-- ==== Sys2Proof/Word.lean ====
section
/-! DEFINITION. The machine words of the GX-7 and their plainest conversions (00 R7: every multi-byte value
is little-endian, bit 0 least significant). -/

namespace Sys2Proof

/-- A general register, an address or a CSR of the scalar core (02 R23). -/
abbrev Word := BitVec 64

/-- A byte of memory. -/
abbrev Byte := BitVec 8

/-- A register field of an instruction word (02 R27). -/
abbrev RegIx := BitVec 5

/-- A 16-bit register of the deputy (14 R302). -/
abbrev Half := BitVec 16

/-- A 64-bit word from a natural number, modulo 2^64. -/
abbrev wd (n : Nat) : Word := BitVec.ofNat 64 n

/-- A truth value as the number 0 or 1. -/
abbrev bit (b : Bool) : Nat := if b then 1 else 0

/-- The field of `n` beginning at bit `lo` and `w` bits wide. -/
abbrev fieldOf (n lo w : Nat) : Nat := n / 2 ^ lo % 2 ^ w

/-- Bit `i` of `n`. -/
abbrev bitOf (n i : Nat) : Bool := n / 2 ^ i % 2 == 1

end Sys2Proof
end

