-- ==== Sys2Proof/Syntax.lean ====
section
/-! DEFINITION. The commands of the GX-7 block: one constructor per row of the opcode table, with the row's operands.
An instruction of the scalar core, of the tile extension or of the deputy carries every field of its word, the
reserved ones (`rsv`) too, so that a non-zero reserved field is expressible. -/

namespace Sys2Proof

/-- The three scalar floating-point formats (02 R36). -/
inductive FpFormat where
  | f64
  | f32
  | bf16
  deriving DecidableEq, Repr

/-- What REGISTER_WRITE names (00 R8): a CSR of the scalar core, or an address of the deputy's window with the bytes written. -/
inductive RegTarget where
  | csr (n : BitVec 12)
  | window (addr : BitVec 16) (bytes : Nat)
  deriving DecidableEq, Repr

/-- A packet of the fabric port without its TYPE: header, inline payload and data granules (17 Tables 17.6 and 17.7). -/
structure Packet where
  /-- SRC. -/
  src : BitVec 24
  /-- DST. -/
  dst : BitVec 24
  /-- SEC. -/
  sec : Bool
  /-- SR. -/
  sr : Bool
  /-- RED. -/
  red : BitVec 2
  /-- FMT. -/
  fmt : BitVec 3
  /-- LEN. -/
  len : BitVec 13
  /-- STATUS. -/
  status : BitVec 4
  /-- TAG. -/
  tag : BitVec 12
  /-- TAIL. -/
  tail : BitVec 6
  /-- HEAD. -/
  head : BitVec 6
  /-- ADDR. -/
  addr : BitVec 47
  /-- POIS. -/
  pois : BitVec 64
  /-- The inline payload, bytes 32 to 127 of the first flit, byte 32 lowest. -/
  inl : BitVec 768
  /-- The data granules, 64 bytes each, in order. -/
  data : List (BitVec 512)
  deriving DecidableEq, Repr

/-- A switchable power domain (01, 17 R388). -/
inductive Domain where
  | core
  | tile
  | store
  deriving DecidableEq, Repr

/-- A register of the deputy (14 R302). -/
abbrev DReg := BitVec 3

/-- A command. -/
inductive Instr where
  -- 02 Scalar core
  | add (rd ra rb rsv : RegIx)
  | sub (rd ra rb rsv : RegIx)
  | adc (rd ra rb rsv : RegIx)
  | sbc (rd ra rb rsv : RegIx)
  | and (rd ra rb rsv : RegIx)
  | or (rd ra rb rsv : RegIx)
  | xor (rd ra rb rsv : RegIx)
  | andn (rd ra rb rsv : RegIx)
  | shl (rd ra rb rsv : RegIx)
  | shr (rd ra rb rsv : RegIx)
  | sar (rd ra rb rsv : RegIx)
  | ror (rd ra rb rsv : RegIx)
  | min (rd ra rb rsv : RegIx)
  | max (rd ra rb rsv : RegIx)
  | minu (rd ra rb rsv : RegIx)
  | maxu (rd ra rb rsv : RegIx)
  | clz (rd ra rb rsv : RegIx)
  | ctz (rd ra rb rsv : RegIx)
  | popc (rd ra rb rsv : RegIx)
  | sextb (rd ra rb rsv : RegIx)
  | sexth (rd ra rb rsv : RegIx)
  | sextw (rd ra rb rsv : RegIx)
  | zextb (rd ra rb rsv : RegIx)
  | zexth (rd ra rb rsv : RegIx)
  | zextw (rd ra rb rsv : RegIx)
  | addi (rd ra : RegIx) (imm : BitVec 16)
  | subi (rd ra : RegIx) (imm : BitVec 16)
  | andi (rd ra : RegIx) (imm : BitVec 16)
  | ori (rd ra : RegIx) (imm : BitVec 16)
  | xori (rd ra : RegIx) (imm : BitVec 16)
  | shi (rd ra : RegIx) (imm : BitVec 16)
  | addsp (rd ra : RegIx) (imm : BitVec 16)
  | lih (rd : RegIx) (hw : BitVec 2) (rsv : BitVec 3) (imm : BitVec 16)
  | inh (rd : RegIx) (hw : BitVec 2) (rsv : BitVec 3) (imm : BitVec 16)
  | flh (rd : RegIx) (hw : BitVec 2) (rsv : BitVec 3) (imm : BitVec 16)
  | adr (rd : RegIx) (imm : BitVec 21)
  | mov (rd ra rb rsv : RegIx)
  | pick (rd ra rb : RegIx) (cond : BitVec 4) (rsv : BitVec 1)
  | getsp (rd ra rb rsv : RegIx)
  | setsp (rd ra rb rsv : RegIx)
  | getfl (rd ra rb rsv : RegIx)
  | setfl (rd ra rb rsv : RegIx)
  | mul (rd ra rb : RegIx) (rsv : BitVec 9)
  | mulh (rd ra rb : RegIx) (rsv : BitVec 9)
  | mulhu (rd ra rb : RegIx) (rsv : BitVec 9)
  | mulhsu (rd ra rb : RegIx) (rsv : BitVec 9)
  | div (rd ra rb : RegIx) (rsv : BitVec 9)
  | divu (rd ra rb : RegIx) (rsv : BitVec 9)
  | rem (rd ra rb : RegIx) (rsv : BitVec 9)
  | remu (rd ra rb : RegIx) (rsv : BitVec 9)
  | fadd (p : FpFormat) (rd ra rb rsv : RegIx)
  | fsub (p : FpFormat) (rd ra rb rsv : RegIx)
  | fmul (p : FpFormat) (rd ra rb rsv : RegIx)
  | fdiv (p : FpFormat) (rd ra rb rsv : RegIx)
  | fsqrt (p : FpFormat) (rd ra rb rsv : RegIx)
  | fmin (p : FpFormat) (rd ra rb rsv : RegIx)
  | fmax (p : FpFormat) (rd ra rb rsv : RegIx)
  | fcmp (p : FpFormat) (rd ra rb rsv : RegIx)
  | fneg (p : FpFormat) (rd ra rb rsv : RegIx)
  | fabs (p : FpFormat) (rd ra rb rsv : RegIx)
  | fcvtF64 (p : FpFormat) (rd ra rb rsv : RegIx)
  | fcvtF32 (p : FpFormat) (rd ra rb rsv : RegIx)
  | fcvtBf16 (p : FpFormat) (rd ra rb rsv : RegIx)
  | fcvti (p : FpFormat) (rd ra rb : RegIx) (rtz : Bool) (rsv : BitVec 4)
  | fcvtu (p : FpFormat) (rd ra rb : RegIx) (rtz : Bool) (rsv : BitVec 4)
  | icvtf (p : FpFormat) (rd ra rb rsv : RegIx)
  | ucvtf (p : FpFormat) (rd ra rb rsv : RegIx)
  | fma (rd ra rb rc : RegIx) (prec neg rsv : BitVec 2)
  | ld (rt ra : RegIx) (size : BitVec 2) (sx ord : Bool) (off : BitVec 12)
  | st (rt ra : RegIx) (size : BitVec 2) (sx ord : Bool) (off : BitVec 12)
  | ldx (rt ra rb : RegIx) (size : BitVec 2) (sx ord sh : Bool) (rsv : BitVec 6)
  | stx (rt ra rb : RegIx) (size : BitVec 2) (sx ord sh : Bool) (rsv : BitVec 6)
  | atomicAdd (rd ra rb : RegIx) (wide : Bool) (ord : BitVec 2) (rsv : RegIx)
  | atomicSwap (rd ra rb : RegIx) (wide : Bool) (ord : BitVec 2) (rsv : RegIx)
  | atomicCas (rd ra rb : RegIx) (wide : Bool) (ord : BitVec 2) (rsv : RegIx)
  | atomicMin (rd ra rb : RegIx) (wide : Bool) (ord : BitVec 2) (rsv : RegIx)
  | atomicMax (rd ra rb : RegIx) (wide : Bool) (ord : BitVec 2) (rsv : RegIx)
  | atomicMinu (rd ra rb : RegIx) (wide : Bool) (ord : BitVec 2) (rsv : RegIx)
  | atomicMaxu (rd ra rb : RegIx) (wide : Bool) (ord : BitVec 2) (rsv : RegIx)
  | brc (cond : BitVec 4) (off : BitVec 22)
  | br (off : BitVec 26)
  | call (off : BitVec 26)
  | callr (ra : RegIx) (rsv : BitVec 21)
  | ret (rsv : BitVec 26)
  | jr (ra : RegIx) (rsv : BitVec 21)
  | loop (ra : RegIx) (len : BitVec 16) (rsv : RegIx)
  | loopi (count : BitVec 10) (len : BitVec 16)
  | rmov (size : BitVec 2) (stop : Bool) (rv : RegIx) (rsv : BitVec 18) (chunks : Option Nat)
  | rfill (size : BitVec 2) (stop : Bool) (rv : RegIx) (rsv : BitVec 18) (chunks : Option Nat)
  | rcmp (size : BitVec 2) (stop : Bool) (rv : RegIx) (rsv : BitVec 18) (chunks : Option Nat)
  | rscan (size : BitVec 2) (stop : Bool) (rv : RegIx) (rsv : BitVec 18) (chunks : Option Nat)
  | trap (code : BitVec 12) (rsv : BitVec 10)
  | eret (rsv : BitVec 22)
  | fence (mask : BitVec 4) (rsv : BitVec 18)
  | bkpt (rsv : BitVec 22)
  | tlbinvAll (rsv : BitVec 22)
  | tlbinvAsid (ra : RegIx) (rsv : BitVec 17)
  | tlbinvVa (ra rb : RegIx) (rsv : BitVec 12)
  | clean (ra : RegIx) (rsv : BitVec 17)
  | inval (ra : RegIx) (rsv : BitVec 17)
  | flush (ra : RegIx) (rsv : BitVec 17)
  | iinval (ra : RegIx) (rsv : BitVec 17)
  | zero (ra : RegIx) (rsv : BitVec 17)
  | post (ra rb : RegIx) (rsv : BitVec 12)
  | wait (ra : RegIx) (rsv : BitVec 17)
  | trywait (rd ra : RegIx) (rsv : BitVec 12)
  | read (rd ra : RegIx) (rsv : BitVec 12)
  | arm (ra rb : RegIx) (rsv : BitVec 12)
  | step (rsv : BitVec 22)
  | draw (rd : RegIx) (q : BitVec 4) (rsv : BitVec 13)
  | sev (ev : BitVec 3) (rsv : BitVec 19)
  | sleep (rsv : BitVec 22)
  | csrr (rd ra : RegIx) (csr : BitVec 12) (parityError : Bool := false)
  | csrw (rd ra : RegIx) (csr : BitVec 12) (parityError : Bool := false)
  | csrs (rd ra : RegIx) (csr : BitVec 12) (parityError : Bool := false)
  | csrc (rd ra : RegIx) (csr : BitVec 12) (parityError : Bool := false)
  | csrwi (rd imm : RegIx) (csr : BitVec 12) (parityError : Bool := false)
  | csrsi (rd imm : RegIx) (csr : BitVec 12) (parityError : Bool := false)
  | csrci (rd imm : RegIx) (csr : BitVec 12) (parityError : Bool := false)
  -- 00 R8, any register
  | registerWrite (target : RegTarget) (value : BitVec 64) (secure : Bool)
  -- 02 winze port
  | winzeRequest (rd ra rb : RegIx) (op : BitVec 3) (func : BitVec 11) (parityError : Bool) (early : Option (BitVec 64) := none)
  | wzReqTransfer
  | wzRsp (tag : BitVec 4) (data : BitVec 64) (dpar : BitVec 8) (status : BitVec 2)
  | wzTimeout (tag : BitVec 4 := 0)
  -- 03 memory system
  | storeBufferDrain (index : Nat)
  | deviceLoadReturn (level : BitVec 3) (data : BitVec 64) (poison : Bool)
  | streamPrefetch (tracker : BitVec 5) (va : BitVec 64)
  | tscfgWrite (value : BitVec 64)
  | reassignmentEnd
  -- 04, 05 translation, banksman
  | holdLimit (slot : BitVec 2)
  | irq (line : BitVec 5) (level : Bool)
  | nmi
  | eventEntry
  | taskSwitch
  | rladd (value : BitVec 64)
  | bankpolWrite (value : BitVec 64)
  | tsbpWrite (n : BitVec 3) (value : BitVec 64)
  | lazyFill
  | lazyRestore
  | budgetEnd
  | timeSliceSave
  | timeSliceRestore
  -- 06 to 10 The tile extension, its queue, streams, the journal
  | tcfg (rd ra : RegIx) (imm12 : BitVec 12)
  | tzero (rd ra : RegIx) (imm12 : BitVec 12)
  | kzero (rd ra : RegIx) (imm12 : BitVec 12)
  | tmov (rd ra : RegIx) (imm12 : BitVec 12)
  | tfence (rd ra : RegIx) (imm12 : BitVec 12)
  | tloadV (tile : BitVec 3) (ra rb : RegIx) (rsv7 : BitVec 7) (rsv4 : BitVec 4)
  | tloadD (tile : BitVec 3) (wc : BitVec 2) (ra rb : RegIx) (rsv5 : BitVec 5) (rsv4 : BitVec 4)
  | tstoreV (tile : BitVec 3) (ra rb : RegIx) (rsv7 : BitVec 7) (rsv4 : BitVec 4)
  | tstoreD (tile : BitVec 3) (wc : BitVec 2) (ra rb : RegIx) (rsv5 : BitVec 5) (rsv4 : BitVec 4)
  | tloadQ (tile fmt : BitVec 3) (d : Bool) (ra rb : RegIx) (slot : BitVec 6) (rsv : BitVec 2)
  | tstoreQ (tile fmt : BitVec 3) (d : Bool) (ra rb : RegIx) (slot : BitVec 6) (rsv : BitVec 2)
  | vload (v : BitVec 3) (ra rb : RegIx) (rsv7 : BitVec 7) (rsv5 : BitVec 5)
  | vstore (v : BitVec 3) (ra rb : RegIx) (rsv7 : BitVec 7) (rsv5 : BitVec 5)
  | opa (kd : BitVec 2) (ta tb : BitVec 3) (rc : RegIx) (fa fb : BitVec 3) (rsv : BitVec 5)
  | opmax (kd : BitVec 2) (ta tb : BitVec 3) (rc : RegIx) (fa fb : BitVec 3) (rsv : BitVec 5)
  | opmin (kd : BitVec 2) (ta tb : BitVec 3) (rc : RegIx) (fa fb : BitVec 3) (rsv : BitVec 5)
  | kout (k seam : BitVec 2) (vr : BitVec 3) (kz : Bool) (ra rb : RegIx) (slot : BitVec 6) (rsv : BitVec 2)
  | seamld (rd ra : RegIx) (slot : BitVec 6) (sel : BitVec 3) (seam : BitVec 2) (rsv : BitVec 1)
  | scaleSet (rd ra : RegIx) (slot : BitVec 6) (sel : BitVec 3) (seam : BitVec 2) (rsv : BitVec 1)
  | scaleUpd (rd ra : RegIx) (slot : BitVec 6) (sel : BitVec 3) (seam : BitVec 2) (rsv : BitVec 1)
  | scaleRd (rd ra : RegIx) (slot : BitVec 6) (sel : BitVec 3) (seam : BitVec 2) (rsv : BitVec 1)
  | stepUpdateEntry
  | tileEntryStart (faults : List (BitVec 14 × BitVec 32) := [])
  | tileEntryComplete (index : BitVec 4)
  | tflagsWrite (value : BitVec 64)
  | qdataWrite (rd ra : RegIx)
  | qdataRead (rd : RegIx)
  | append (portOk : Bool)
  | jnlcfgWrite (value : BitVec 64)
  -- 11 The assay
  | sameFormatCheck (faults : List (BitVec 8 × BitVec 32))
  | wideCheck
  | calibrationStep
  | calibrationStepClose
  | d2dTuning (channel : BitVec 5) (early late : List Bool)
  | ashselClr
  -- 16 Fills and parity
  | stopeColumnFill (unit : BitVec 12)
  | tileStoreBankFill (unit : BitVec 12)
  | operandTileRowFill (unit : BitVec 12)
  | registerBankFill (unit : BitVec 12)
  | l2WayFill (unit : BitVec 12)
  | fillClose (cls : BitVec 3)
  | parityError (cls : BitVec 4) (clean : Bool) (unit : BitVec 12) (addr : BitVec 47) (part : BitVec 13)
  -- 12 Haulage
  | heatEvent (miss : Option (BitVec 33))
  | htage
  | agingPassEnd
  | htwdataRead
  | haulageEpoch
  | migrationTimeout (migid : BitVec 8)
  | revoke
  | remap
  | abort
  | s2invDoorbell
  | release
  | hint
  | request
  | ack
  | memberRequestTimeout
  | pin (count : BitVec 8) (iapg : BitVec 33)
  | unpin (count : BitVec 8) (iapg : BitVec 33)
  | promote (count : BitVec 8) (iapg : BitVec 33)
  | demote (count : BitVec 8) (iapg : BitVec 33)
  -- 13 Sync objects, mailboxes, tram, fabric
  | taskTake
  | takeRetryWait
  | peek (p : Packet)
  | peekreply (p : Packet)
  | take (p : Packet)
  | takereply (p : Packet)
  | remotePost (p : Packet)
  | parkedWaiterTake
  | sodataWrite (value : BitVec 64)
  | sowakePop
  | send (channel : BitVec 4)
  | mailboxRelease (channel : BitVec 4)
  | mailboxSendPacket (channel : BitVec 4)
  | mailbox (p : Packet)
  | credit (p : Packet)
  | mbcfgWrite (channel : BitVec 4) (value : BitVec 64)
  | trhead (channel : BitVec 5) (head : BitVec 12)
  | descriptorStart (channel : BitVec 5)
  | copy (channel : BitVec 5)
  | copyReduce (channel : BitVec 5)
  | gather (channel : BitVec 5)
  | remoteRead (channel : BitVec 5)
  | remoteWrite (channel : BitVec 5)
  | remoteReduce (channel : BitVec 5)
  | journalAppend (channel : BitVec 5)
  | digest (channel : BitVec 5)
  | descriptorComplete (channel : BitVec 5)
  | trstatWrite (value : BitVec 64)
  | trcfgWrite (value : BitVec 64)
  | readPacket (p : Packet)
  | readreply (p : Packet)
  | writePacket (p : Packet)
  | reducePacket (p : Packet)
  | ackPacket (p : Packet)
  | nack (p : Packet)
  | doorbellReceive (p : Packet)
  | doorbellSend
  | dbpop
  -- 14 Deputy windows
  | retry (slot : BitVec 2)
  | decline (slot : BitVec 2)
  | s2inv
  | s2invComplete
  | copyEngineCopy (srcl dstl sec irq : Bool)
  | cleanpa (irq : Bool)
  | invpa (irq : Bool)
  | copyEngineCompletion (portError : Bool)
  -- 14 Deputy instructions
  | deputyMov (rd rs : DReg) (rsv : BitVec 1)
  | deputyAdd (rd rs : DReg) (rsv : BitVec 1)
  | deputyAdc (rd rs : DReg) (rsv : BitVec 1)
  | deputySub (rd rs : DReg) (rsv : BitVec 1)
  | deputySbc (rd rs : DReg) (rsv : BitVec 1)
  | cmp (rd rs : DReg) (rsv : BitVec 1)
  | deputyAnd (rd rs : DReg) (rsv : BitVec 1)
  | deputyOr (rd rs : DReg) (rsv : BitVec 1)
  | deputyXor (rd rs : DReg) (rsv : BitVec 1)
  | tst (rd rs : DReg) (rsv : BitVec 1)
  | deputyShl (rd rs : DReg) (rsv : BitVec 1)
  | deputyShr (rd rs : DReg) (rsv : BitVec 1)
  | deputySar (rd rs : DReg) (rsv : BitVec 1)
  | deputyMul (rd rs : DReg) (rsv : BitVec 1)
  | deputyDivu (rd rs : DReg) (rsv : BitVec 1)
  | deputyRemu (rd rs : DReg) (rsv : BitVec 1)
  | movl (rd : DReg) (imm : BitVec 8)
  | movh (rd : DReg) (imm : BitVec 8)
  | deputyAddi (rd : DReg) (imm : BitVec 8)
  | deputyLd (rd : DReg) (d8 : BitVec 8)
  | deputySt (rd : DReg) (d8 : BitVec 8)
  | ldw (rd ra : DReg) (mode : BitVec 2)
  | ldb (rd ra : DReg) (mode : BitVec 2)
  | stw (rd ra : DReg) (mode : BitVec 2)
  | stb (rd ra : DReg) (mode : BitVec 2)
  | push (rd : DReg) (rsvRa : BitVec 3) (rsvMode : BitVec 2)
  | pop (rd : DReg) (rsvRa : BitVec 3) (rsvMode : BitVec 2)
  | specialMoveGetSp (rd : DReg) (rsvMode : BitVec 2)
  | specialMoveSetSp (rd : DReg) (rsvMode : BitVec 2)
  | specialMoveGetFlags (rd : DReg) (rsvMode : BitVec 2)
  | specialMoveSetFlags (rd : DReg) (rsvMode : BitVec 2)
  | specialMoveGetBank (rd : DReg) (rsvMode : BitVec 2)
  | specialMoveSetBank (rd : DReg) (rsvMode : BitVec 2)
  | bcc (cond : BitVec 3) (d : Bool) (off : BitVec 6)
  | jmp (d : Bool) (rs : DReg) (rsv : BitVec 3)
  | deputyCall (d : Bool) (rs : DReg) (rsv : BitVec 3)
  | bra (d : Bool) (off : BitVec 7)
  | deputyCallr (d : Bool) (off : BitVec 7)
  | nop
  | deputyRet
  | retD
  | reti
  | ei
  | di
  | deputyWait
  | rptMovw
  | rptMovb
  | rptFillw
  | rptFillb
  | rptCmpw
  | rptCmpb
  | swi
  -- 14 Deputy vectors, watchdog, windows
  | interruptEntry
  | watchdogFirstStage
  | watchdogRecord
  | wdkick (value : BitVec 16)
  | timerExpiry
  | pmdataWrite (value : BitVec 16)
  | pmctlWrite (value : BitVec 16)
  | coreWindowRead (offset : BitVec 14)
  | coreWindowWrite (offset : BitVec 14) (value : BitVec 16) (secure : Bool)
  | windowWritePerform
  -- 15 to 17 Boot, dictionary, power, debug
  | powerOnBoot (freePages : List (BitVec 33)) (members : List (BitVec 24)) (badBlocks : BitVec 16 := 0)
  | fuseRdy
  | dictionaryRead (arrival : Option Packet) (firmware : Bool)
  | dictionaryWrite (arrival : Option Packet) (firmware : Bool)
  | blockRead (arrival : Option Packet) (firmware : Bool)
  | dictionaryAnswer (more : Bool)
  | dictionaryTimeout
  | notify
  | dictionaryStoreWrite
  | tallyPersist
  | telemetrySample (temp : BitVec 12) (vmon : BitVec 10)
  | dumpReq
  | readResponse (channel : BitVec 4) (id : BitVec 8) (granule : BitVec 41) (data : BitVec 512) (poison err parity : Bool)
  | writeResponse (src : BitVec 3) (channel : BitVec 5) (granule : BitVec 41) (err : Bool) (left : Option (BitVec 512))
  | responseTimeout (write : Bool) (src : BitVec 3) (channel : BitVec 5) (granule : BitVec 41)
  | pdCoreOff
  | pdCoreOn
  | pdTileOff
  | pdTileOn
  | pdStoreOff
  | pdStoreRetention
  | pdStoreOn
  | pwrAck (domain : Domain) (level : Bool)
  | pwrRetackStore (level : Bool)
  | pwrAckTimeout (domain : Domain)
  | vidOk
  | corerstAssert
  | corerstRelease
  | aonReset
  | ringRead (tap : Bool) (addr : BitVec 32)
  | ringWrite (tap : Bool) (addr : BitVec 32) (data : BitVec 64)
  | halt (tap : Bool)
  | resume (tap : Bool)
  | debugStep (tap : Bool)
  | freeze
  | fieldNetworkFrame (ident : BitVec 29) (fd : Bool) (frame : BitVec 512) (dlc : BitVec 4 := 15)
  | busOffRecovery
  | reservedPacketType (type : BitVec 4)
  | fabricCreditReturn (vc : BitVec 2) (flits : BitVec 8)
  | tapReset
  | tapInstructionLoad (ir : BitVec 8)
  deriving DecidableEq, Repr

end Sys2Proof
end

