-- ==== Sys2Proof/WellFormed.lean ====
section
/-! DEFINITION. Which commands the table admits: the operands that their types do not already confine. -/

namespace Sys2Proof

/-- The TYPE codes that 17 Table 17.7 does not list: 0 and 0xC to 0xF. -/
def reservedType (t : BitVec 4) : Bool := t == 0 || decide (0xC ≤ t.toNat)

/-- A parity class of 16 Table 16.1. -/
def parityClass (c : BitVec 4) : Bool := decide (c.toNat < 14)

/-- A fill class of 16 Table 16.4. -/
def fillClass (c : BitVec 3) : Bool := decide (c.toNat < 5)

/-- A window access of 1 to 8 bytes within the 64 KB data space (14 R305). -/
def windowAccess (a : BitVec 16) (n : Nat) : Bool := decide (1 ≤ n) && decide (n ≤ 8) && decide (a.toNat + n ≤ 0x10000)

/-- Elements of an accumulator that the stope gets wrong, each at most once (11 R248). -/
def elementList (l : List (BitVec 14 × BitVec 32)) : Bool := decide (l.map (·.1)).Nodup

/-- A READ: whole granules from an aligned address, no data (17 R383). -/
def readFrame (p : Packet) : Bool :=
  p.data.isEmpty && decide (p.len.toNat % 64 = 0) && decide (64 ≤ p.len.toNat) && decide (p.len.toNat ≤ 4096)
    && decide (p.addr.toNat % 64 = 0)

/-- A data packet: LEN bytes of whole granules from an aligned address, HEAD + TAIL < LEN (17 R383). -/
def dataFrame (p : Packet) : Bool :=
  decide (p.len.toNat = 64 * p.data.length) && decide (1 ≤ p.data.length) && decide (p.data.length ≤ 64)
    && decide (p.addr.toNat % 64 = 0) && decide (p.head.toNat + p.tail.toNat < p.len.toNat)

/-- A REDUCE: a data packet whose RED and FMT are not reserved (13 Table 13.7). -/
def reduceFrame (p : Packet) : Bool := dataFrame p && decide (p.red.toNat < 2) && decide (p.fmt.toNat < 3)

/-- The command's operands are ones its row admits. -/
def Instr.wf : Instr → Bool
  | .reservedPacketType t => reservedType t
  | .parityError cls _ _ _ _ => parityClass cls
  | .fillClose cls => fillClass cls
  | .registerWrite (.window a n) _ _ => windowAccess a n
  | .tileEntryStart l => elementList l
  | .readPacket p => readFrame p
  | .writePacket p => dataFrame p
  | .reducePacket p => reduceFrame p
  | _ => true

end Sys2Proof
end

