-- ==== Sys2Proof/Config.lean ====
section
/-! DEFINITION. The values the spec leaves open: constants without a body, so that no proof can rest on one of them.
A fresh value is one of these applied to the counter `free` of the state, which the step advances (log 10). -/

namespace Sys2Proof.Config

/-- Whether a matching TLB slot is still resident at the draw (04 R104: replacement is not defined; log 9). -/
opaque tlbHit : Nat → Bool

/-- Whether a matching entry of the table-entry cache is used at the draw (04 R106, Table 4.8; log 9). -/
opaque tecHit : Nat → Bool

/-- Which of the ways that hold dirty lines of a full set gives its line up, by the lines held: replacement is not defined (03 R78,
log 8). -/
opaque victimWay : List Nat → Nat

/-- Which slot of a full TLB set is replaced at the draw (04 R104: not defined, or random; log 9). -/
opaque tlbVictim : Nat → Nat

/-- Whether an access misses the clean lines of a cache at the draw: which clean lines are resident is not defined (03 R78, R84; log 8). -/
opaque cacheMiss : Nat → Bool

/-- Whether FCMP of a quiet NaN sets FPSTAT.NV: the spec does not say whether the comparison signals (log 15). -/
opaque fcmpQuietInvalid : Bool

/-- An amount that depends on time: elements copied by a fill, cycles elapsed, budget left (log 10). -/
opaque freeCount : Nat → Nat

/-- Bytes of a dump section whose layout the spec does not give (16 Table 16.13; log 52). -/
opaque dumpByte : Nat → Nat → BitVec 8

/-- Whether the copy engine reports status 4 while an image is written to its slot, or the write takes longer than DETMO (16 R367). -/
opaque dumpFails : Nat → Bool

/-- The granules that a failing cache way or tile-store bank holds: the mapping is not given (16 Table 16.5; log 53). -/
opaque unitGranules : Nat → List Nat

/-- Whether the early capture (at an even argument) or the late one (at an odd) of a shadowed read differs from the nominal one: an
analogue matter (11 R257; log 58). -/
opaque shadowFail : Nat → Bool

/-- The channel that serves a bank of the tile store, by 256·die + bank: not given (03 R79, 16 R355; log 58). -/
opaque bankChannel : Nat → Nat

/-- The delay code that the training of boot step 9 finds for a channel (17 Table 17.14; log 54). -/
opaque trainedCode : Nat → BitVec 8

end Sys2Proof.Config
end

