-- ==== Sys2Proof/Machine/State.lean ====
section
/-! DEFINITION. The state of the GX-7 block: every register, buffer, counter, mode and queue the spec gives it, as
plain data, and the state after PD_AON reset. Each field's docstring names the file and rule of spec/ that gives it
and its reset value; 'log n' names notes/assumptions/n.md. -/

namespace Sys2Proof.Machine

/-- Build options (00 Table 0.2): fixed when the block is built, no command changes them. -/
structure Build where
  /-- NBANK: 4, 6 or 8 (00 R4). Default 8. -/
  nbank : Nat
  /-- TLBORG: FLAT (00 R4). Default SPLIT. -/
  flatTlb : Bool
  /-- Two tile-store dies (00 R4). Default two. -/
  twoDies : Bool
  /-- The winze port is present (00 R4). Default present. -/
  winze : Bool
  deriving DecidableEq, Repr

/-- The flags N, Z, C and V of one level (02 R24, Table 2.2). -/
structure Flags where
  /-- FL.N, negative. Reset X: zero (log 1). -/
  n : Bool
  /-- FL.Z, zero. Reset X: zero (log 1). -/
  z : Bool
  /-- FL.C, carry; 1 after a subtraction means no borrow. Reset X: zero (log 1). -/
  c : Bool
  /-- FL.V, signed overflow, or invalid for floating point. Reset X: zero (log 1). -/
  v : Bool
  deriving DecidableEq, Repr

/-- The register bank of one priority level (02 R23 Table 2.1, 05 R111, Tables 5.2, 5.11 and 5.12). -/
structure Bank where
  /-- G0 to G31, 64 bits each (02 R23); place 0 is never written and reads as zero. Reset X: zero (log 1). -/
  g : Vector Word 32
  /-- SP (02 R23). Reset X: zero (log 1). -/
  sp : Word
  /-- FL (02 R24). Reset X: zero (log 1). -/
  fl : Flags
  /-- PC: the current instruction while the level runs, its resume address otherwise (05 R111). Reset at level 0: vector 0; elsewhere no value given: zero (log 1). -/
  pc : Word
  /-- LC, hardware loop count (02 R46). Reset 0. -/
  lc : Word
  /-- LB, first body instruction (02 R46). Reset X: zero (log 1). -/
  lb : Word
  /-- LE, last body instruction (02 R46). Reset X: zero (log 1). -/
  le : Word
  /-- EPC (05 Table 5.11). Reset X: zero (log 1). -/
  epc : Word
  /-- ECAUSE (05 Table 5.11). Reset 0. -/
  ecause : BitVec 6
  /-- EADDR (05 Table 5.11). Reset X: zero (log 1); 0 at level 0 by cause 0 (Table 5.9). -/
  eaddr : Word
  /-- EINFO (05 Table 5.11). Reset X: zero (log 1); the reset reason at level 0 by cause 0. -/
  einfo : Word
  /-- ESAVE (05 Table 5.11). Reset X: zero (log 1). -/
  esave : Word
  /-- MASK.PPRIV (05 Table 5.12). Reset 1. -/
  ppriv : Bool
  /-- MASK.PRIV, 1 Supervisor (05 R110, Table 5.12). Reset 1. -/
  priv : Bool
  /-- MASK.VSWE (05 R133). Reset 0. -/
  vswe : Bool
  /-- MASK.EXCM, exception in progress (05 R130). Reset 1 at level 0, else 0. -/
  excm : Bool
  /-- MASK.ML (05 R109). Reset 6 at level 0, else 0. -/
  ml : BitVec 3
  /-- EVNUM, event of this activation (05 R125, Table 5.10). Reset 0. -/
  evnum : BitVec 6
  /-- RSTATE.LZRES, this level holds a lazy reservation (05 R135). Reset 0. -/
  lzres : Bool
  /-- RSTATE.LZFILL, this level performed a lazy fill (05 R136). Reset 0. -/
  lzfill : Bool
  /-- LZSP, this level's SP before its reservation (05 R135). Reset 0. -/
  lzsp : Word
  /-- RSTATE.SUBPRI of the running level-0 task (05 Table 5.2). Reset X: zero (log 1). -/
  subpri : BitVec 4
  deriving DecidableEq, Repr

/-- The faults deferred to one level (02 R62, 03 R77). -/
structure Deferred where
  /-- WZDEFER.PEND of the level (02 Table 2.20). Reset 0. -/
  wzPend : Bool
  /-- WZDEFER.KIND of the level, 1 UNDEFINED (02 Table 2.20). Reset 0. -/
  wzKind : Bool
  /-- EADDR that the deferred cause 20 will hold (02 R62, Table 2.12). Reset 0. -/
  wzEaddr : Word
  /-- EINFO bits that the deferred winze fault will hold (05 Table 5.9). Reset 0. -/
  wzEinfo : Word
  /-- DEVDEFER.OUTST of the level (03 Table 3.13). Reset 0. -/
  devOutst : Bool
  /-- DEVDEFER.PEND of the level (03 Table 3.13). Reset 0. -/
  devPend : Bool
  /-- The return address, not a multiple of 4, of a RET whose device load completed in the background: cause 3 awaits the level
  (02 R44, 03 R77, log 157). Reset: none. -/
  retBad : Option Word
  deriving DecidableEq, Repr

/-- Where the data of a device load goes. -/
inductive DevDest where
  /-- A register, extended from `size` bytes. -/
  | reg (rd : RegIx) (size : BitVec 2) (sx : Bool)
  /-- The return address of a RET. -/
  | ret
  /-- An element of a string instruction. -/
  | element
  deriving DecidableEq, Repr

/-- A device load that has been issued and not answered (03 R65, R77). -/
structure DevLoad where
  /-- Level whose bank receives the data. -/
  level : Fin 8
  /-- What receives the data. -/
  dest : DevDest
  /-- Physical address read. -/
  pa : Nat
  /-- Virtual address of the access, for cause 25. -/
  va : Word
  /-- The load was left behind by an event entry and completes in the background (R77). -/
  background : Bool
  /-- Reissues after an answer with ERR (17 R382). -/
  tries : Nat
  deriving DecidableEq, Repr

/-- The answer of a device element that its string instruction has not consumed (02 R52, 03 R65). -/
structure DevDatum where
  /-- Level of the instruction. -/
  level : Fin 8
  /-- The instruction's address. -/
  pc : Word
  /-- Virtual address read. -/
  va : Word
  /-- The data. -/
  data : Word
  /-- They are poisoned. -/
  poison : Bool
  deriving DecidableEq, Repr

/-- Whether the scalar core's clocks and reset let it run (17 R391, R397, 16 R367). -/
inductive CoreMode where
  /-- PD_CORE is off or CORE reset is held. -/
  | held
  /-- Instructions issue. -/
  | run
  /-- Stopped at an instruction boundary by HALT or STEP (17 R397). -/
  | halted
  /-- Clocks frozen at once, by FREEZE, by a watchdog record or by a fatal stop (16 R367, 05 R132). -/
  | frozen
  deriving DecidableEq, Repr

/-- The scalar core (02, 05). -/
structure Core where
  /-- Clock and reset state of the core (17 R391, R397). Reset held: PD_CORE is off. -/
  mode : CoreMode
  /-- SLEEP has stopped issue (05 R124). Reset 0. -/
  sleeping : Bool
  /-- A task or the reset context runs at level 0 (05 R123). Reset 0: nothing runs until CORERST.RELEASE. -/
  taskRunning : Bool
  /-- A debug STEP lets one instruction complete (17 R397). Reset 0. -/
  stepGrant : Bool
  /-- The clocks were frozen while CORE reset was held: CORESTAT.STOPPED, and no release until CORERST.ASSERT unfreezes them
  (14 R324, 17 R391). Reset 0. -/
  heldFrozen : Bool
  /-- Active levels; level 0 is always active and LVL is the highest (05 R109). Reset: level 0 only. -/
  active : Vector Bool 8
  /-- The eight banks (05 R111). Each register's reset value stands with its field. -/
  banks : Vector Bank 8
  /-- Levels whose bank image is resident in a physical bank (05 R113 to R115). Reset: the levels that own a bank. -/
  resident : Vector Bool 8
  /-- Levels from most to least recently run (05 R115). Reset: level 0 first. -/
  lru : List (Fin 8)
  /-- FPCTL.RM (02 Table 2.15). Reset 0. -/
  fprm : BitVec 2
  /-- FPSTAT: NV, DZ, OF, UF, NX from bit 4 down (02 Table 2.16). Reset 0. -/
  fpstat : BitVec 5
  /-- CYCLE (02 Table 2.17). Reset 0. -/
  cycle : Word
  /-- INSTRET (02 Table 2.17). Reset 0. -/
  instret : Word
  /-- Deferred faults of each level: WZDEFER and DEVDEFER (02 R62, 03 R77). Reset 0. -/
  deferred : Vector Deferred 8
  /-- Device loads outstanding (03 R77). Reset: none. -/
  devLoads : List DevLoad
  /-- Device elements answered and not yet consumed by their string instruction (02 R52, 03 R65). Reset: none. -/
  devData : List DevDatum
  /-- DBGCTL.STEP, one bit per level (17 R398, Table 17.16). Reset 0. -/
  dbgStep : BitVec 8
  /-- DBGBP0 to DBGBP3 (17 R398, Table 17.16). Reset 0. -/
  dbgBp : Vector Word 4
  /-- An ERET has completed and its first instruction has not: only level 7 may be entered (05 R129). Reset 0. -/
  eretShadow : Bool
  /-- A recognised event entry waits for the response of a non-idempotent winze request (02 R61). Reset 0. -/
  entryWaits : Bool
  /-- The entry under way has waited for such a response, so that its latency has that term (05 R126). Reset 0. -/
  waited : Bool
  deriving DecidableEq, Repr

/-- What the response to a winze request, or its absence, decides (02 Table 2.12). -/
inductive WzAnswer where
  /-- Status OK, parity good: the result. -/
  | ok (data : Word)
  /-- Status UNDEFINED. -/
  | undefined
  /-- Status ERROR, a response parity error or a timeout: EADDR and EINFO of cause 20. -/
  | error (eaddr : Word) (info : Nat)
  deriving DecidableEq, Repr

/-- One request on the winze port (02 R57, R59). -/
structure WzReq where
  /-- WZ_REQ_TAG. -/
  tag : BitVec 4
  /-- WZ_REQ_OP. -/
  op : BitVec 2
  /-- WZ_REQ_FUNC. -/
  func : BitVec 11
  /-- WZ_REQ_A. -/
  a : Word
  /-- WZ_REQ_B. -/
  b : Word
  /-- WZ_REQ_PRIV. -/
  priv : Bool
  /-- WZ_REQ_LVL. -/
  lvl : Fin 8
  /-- WZ_REQ_CSR. -/
  csr : Bool
  /-- Destination register of the instruction. -/
  rd : RegIx
  /-- The instruction word. -/
  word : Word
  /-- WZ_REQ_SPEC: its instruction is not the oldest unretired one (R59). -/
  spec : Bool
  /-- WZ_REQ_APAR. -/
  apar : Byte
  /-- WZ_REQ_BPAR. -/
  bpar : Byte
  /-- Address of the instruction. -/
  pc : Word
  /-- The request has transferred (R59). -/
  transferred : Bool
  /-- The outcome of a speculative request whose instruction has not become the oldest (R59, Table 2.12). -/
  answer : Option WzAnswer
  deriving DecidableEq, Repr

/-- The winze port (02 R56 to R62). -/
structure Winze where
  /-- WZCFG.MAXLAT, sampled at CORE reset release (02 Table 2.18). Reset 0 until sampled. -/
  maxlat : BitVec 12
  /-- WZCFG.IDEMP, sampled at CORE reset release (02 Table 2.18). Reset 0 until sampled. -/
  idemp : Bool
  /-- WZCFG.SPECSAFE, sampled at CORE reset release (02 Table 2.18). Reset 0 until sampled. -/
  specsafe : Bool
  /-- WZSTAT.PARERRS (02 Table 2.19). Reset 0. -/
  parerrs : BitVec 16
  /-- WZSTAT.TIMEOUTS (02 Table 2.19). Reset 0. -/
  timeouts : BitVec 16
  /-- The request offered or transferred for the oldest instruction (02 R59). Reset: none. -/
  req : Option WzReq
  /-- Speculative requests, in the program order of their instructions (02 R59). Reset: none. -/
  early : List WzReq
  /-- Tags cancelled or timed out whose response is to be ignored (02 R59, R60). Reset: none. -/
  ignored : List (BitVec 4)
  /-- Tag of the next request (02 R59). Reset 0: DESIGN CHOICE (log 20). -/
  nextTag : BitVec 4
  /-- WZ_KILL outputs driven: tags cancelled, youngest first (02 Table 2.11). Reset: none. -/
  kills : List (BitVec 4)
  deriving DecidableEq, Repr

/-- The current owner of the tile state, or a displaced one (05 R135, R136, Table 5.3). -/
structure TileOwner where
  /-- TOWNER.LEVEL. -/
  level : Fin 8
  /-- TOWNER.TSB, address bits [46:10]. -/
  tsb : BitVec 37
  /-- PEND, lazy-pending. -/
  pend : Bool
  /-- LSAP, address of the lazy-save area. -/
  lsap : Word
  /-- FILLED: this owner's state is at its LSAP. -/
  filled : Bool
  /-- FILLER: the level whose fill displaced this owner. -/
  filler : Fin 8
  deriving DecidableEq, Repr

/-- One entry of the level-0 ready list, oldest first in the list (05 R123). -/
structure ReadyEntry where
  /-- TSB address bits [46:10]. -/
  tsb : BitVec 37
  /-- SUBPRI, 15 highest. -/
  subpri : BitVec 4
  /-- TILEWAIT (05 Table 5.2). -/
  tilewait : Bool
  deriving DecidableEq, Repr

/-- The banksman (05). -/
structure Banksman where
  /-- TSBP0 to TSBP7, bits [46:10] (05 Table 5.10). Reset 0. -/
  tsbp : Vector (BitVec 37) 8
  /-- TQUANT.QUANT (05 Table 5.10). Reset 0. -/
  quant : BitVec 32
  /-- TQUANT.LEFT (05 R138). Reset 0. -/
  left : BitVec 32
  /-- The holder's budget is unlimited, QUANT having been 0 when it became holder (05 R138). Reset 0. -/
  unlimited : Bool
  /-- The level-0 ready list, oldest first, at most 64 (05 R123). Reset: empty. -/
  ready : List ReadyEntry
  /-- RLSTAT.OVF (05 R123). Reset 0. -/
  rlOvf : Bool
  /-- EVRT: the level of each event (05 Table 5.15). Reset 0; EV32 and EV63 are 7. -/
  evrt : Vector (BitVec 3) 64
  /-- EVPEND (05 R121). Reset 0. -/
  evpend : BitVec 64
  /-- BANKPOL.BOUND (05 Table 5.13). Reset: the lowest NBANK - 2 of levels 1 to 6. -/
  bound : BitVec 6
  /-- BANKPOL.POL, 1 SPILL (05 Table 5.13). Reset 0. -/
  spill : Bool
  /-- The owner of the live or lazy-pending tile state: TOWNER, LSAP (05 Table 5.16). Reset: none. -/
  owner : Option TileOwner
  /-- Owners displaced by fills, the last displaced first (05 R136, R137). Reset: none. -/
  displaced : List TileOwner
  deriving DecidableEq, Repr

/-- One region of the physical map attribute table (04 Tables 4.14 and 4.15). -/
structure Pmat where
  /-- VALID. Reset 0. -/
  valid : Bool
  /-- BASE, address bits [46:14]. Reset 0. -/
  base : BitVec 33
  /-- LOG2SIZE. Reset 14. -/
  log2size : BitVec 6
  /-- ILFIRST. Reset 0. -/
  ilfirst : BitVec 5
  /-- ILGRAN. Reset 0. -/
  ilgran : BitVec 2
  /-- ILWAYS. Reset 0. -/
  ilways : BitVec 3
  /-- SECURE. Reset 0. -/
  secure : Bool
  /-- TIER: 0 NEAR, 1 EXP, 2 LOG. Reset 0. -/
  tier : BitVec 2
  /-- TYPE: 1 device. Reset 0. -/
  device : Bool
  deriving DecidableEq, Repr

/-- The part of a tram descriptor that waits for a held stage-2 fault (13 R294, R300). -/
inductive TramPart where
  /-- An access of the channel's oldest descriptor that has accesses to make. -/
  | data
  /-- The completion record of the channel's oldest descriptor. -/
  | record
  /-- The local destination of the read reply with a tag. -/
  | reply (tag : BitVec 12)
  deriving DecidableEq, Repr

/-- Who waits for a held stage-2 fault (04 R101). -/
inductive HeldWaiter where
  /-- The instruction at the current level, with the cause, EADDR and EINFO that a decline reports. -/
  | core (cause : Nat) (eaddr einfo : Word)
  /-- A channel of the tram engine (13 R292). -/
  | tram (channel : Nat) (part : TramPart)
  deriving DecidableEq, Repr

/-- A held-fault record, one per walker slot (04 Table 4.5). -/
structure HeldRec where
  /-- VALID. Reset 0. -/
  valid : Bool
  /-- VA. Reset 0. -/
  va : Word
  /-- REQ: 0 core, 1 tile dispatch, 2 tram. Reset 0. -/
  req : BitVec 2
  /-- KIND: 0 INVALID, 1 PERM, 2 DEVTABLE, 3 PARITY. Reset 0. -/
  kind : BitVec 3
  /-- LEVEL. Reset 0. -/
  level : BitVec 2
  /-- S1WALK. Reset 0. -/
  s1walk : Bool
  /-- FETCH. Reset 0. -/
  fetch : Bool
  /-- WRITE. Reset 0. -/
  write : Bool
  /-- IA. Reset 0. -/
  ia : BitVec 47
  /-- The accesses that wait on this record (R101). Reset: none. -/
  waiters : List HeldWaiter
  deriving DecidableEq, Repr

/-- One TLB slot: a translation of both stages (04 R104). Page numbers are of 16 KB pages. -/
structure TlbSlot where
  /-- First VA page covered, or first IA page where stage 1 was off. -/
  vpage : Nat
  /-- Pages covered: 1, 16 or 256 (R94). -/
  span : Nat
  /-- ASID tag. -/
  asid : BitVec 16
  /-- G. -/
  g : Bool
  /-- First IA page. -/
  ipage : Nat
  /-- First PA page. -/
  ppage : Nat
  /-- Read permission, both stages. -/
  r : Bool
  /-- Write permission, both stages. -/
  w : Bool
  /-- Execute permission, both stages. -/
  x : Bool
  /-- Stage-1 U. -/
  u : Bool
  /-- Made with stage 1 on. -/
  s1 : Bool
  /-- Combined memory type code, as MT; 4 where both stages were off and the type is the physical map's. -/
  mt : BitVec 3
  /-- D is set in every stage walked. -/
  d : Bool
  deriving DecidableEq, Repr

/-- One entry of the table-entry cache: a non-leaf entry of one stage at its address (04 R95). -/
structure TecEntry where
  /-- The stage is 2. -/
  stage2 : Bool
  /-- Address of the entry, an IA for stage 1 and a PA for stage 2. -/
  addr : Nat
  /-- The entry's value as it was read. -/
  value : Word
  deriving DecidableEq, Repr

/-- Address translation (04). -/
structure Xlat where
  /-- S1ROOT.ASID (04 Table 4.10). Reset 0. -/
  asid : BitVec 16
  /-- S1ROOT.ROOT (04 Table 4.10). Reset X: zero (log 1). -/
  s1root : BitVec 33
  /-- S1ROOT.LEVELS (04 Table 4.10). Reset 0. -/
  levels : BitVec 2
  /-- S1ROOT.EN (04 Table 4.10). Reset 0. -/
  s1en : Bool
  /-- S2CFG.ROOT (04 Table 4.11). Reset 0. -/
  s2root : BitVec 33
  /-- S2CFG.HOLDLIM (04 Table 4.11). Reset 0x400. -/
  holdlim : BitVec 11
  /-- S2CFG.EN (04 Table 4.11). Reset 0. -/
  s2en : Bool
  /-- XLCNT.HELD (04 Table 4.13). Reset 0. -/
  cntHeld : BitVec 32
  /-- XLCNT.DECLINED (04 Table 4.13). Reset 0. -/
  cntDeclined : BitVec 16
  /-- XLCNT.TIMEOUTS (04 Table 4.13). Reset 0. -/
  cntTimeouts : BitVec 16
  /-- The physical map attribute table (04 R98). Reset: every region invalid, LOG2SIZE 14. -/
  pmat : Vector Pmat 32
  /-- The four held-fault records (04 R102). Reset 0. -/
  held : Vector HeldRec 4
  /-- The L1 instruction TLB of SPLIT, at most 32 slots (04 R104). Reset: empty. -/
  itlb : List TlbSlot
  /-- The L1 data TLB of SPLIT, at most 64 slots (04 R104). Reset: empty. -/
  dtlb : List TlbSlot
  /-- The unified L2 TLB of SPLIT, at most 6 slots in each of its 512 sets, or the TLB of FLAT, at most 512 slots (04 R104).
  Reset: empty. -/
  tlb : List TlbSlot
  /-- Table-entry cache, newest first, at most 64 (04 R95). Reset: empty. -/
  tec : List TecEntry
  deriving DecidableEq, Repr

/-- A memory type (03 R64). -/
inductive MemType where
  /-- Normal cached. -/
  | cached
  /-- Normal uncached. -/
  | uncached
  /-- Tile-scratch. -/
  | scratch
  /-- Device side-effect. -/
  | device
  deriving DecidableEq, Repr

/-- A 64-byte granule held dirty by a cache: a line of the L2 or half of a 128-byte line of the tile-store cache (03 R78, 16 R352). -/
structure CacheLine where
  /-- Granule number: physical address divided by 64. -/
  granule : Nat
  /-- The 64 bytes, byte 0 lowest. -/
  data : BitVec 512
  /-- The cached copy is poisoned. -/
  poison : Bool
  /-- The L1 data cache, which the L2 includes, holds it dirty (03 Table 3.4). -/
  l1 : Bool
  deriving DecidableEq, Repr

/-- One store in the store buffer (03 R75). -/
structure StoreEntry where
  /-- Physical address, or the virtual address of on-core memory. -/
  pa : Nat
  /-- Bytes stored, 1 to 8. -/
  size : Nat
  /-- The bytes, the lowest first. -/
  data : Word
  /-- Memory type of the access. -/
  ty : MemType
  /-- Release store: leaves after every earlier store. -/
  release : Bool
  /-- The store's granule is to be written poisoned (16 Table 16.1 class 4). -/
  poison : Bool
  deriving DecidableEq, Repr

/-- A write issued to a device on the memory port (03 R65, 17 Table 17.4). -/
structure DeviceWrite where
  /-- Physical address. -/
  pa : Nat
  /-- Bytes written. -/
  size : Nat
  /-- Data. -/
  data : Word
  deriving DecidableEq, Repr

/-- A request on the memory port, but for its data (17 Tables 17.2 and 17.3). TIER and STACK of its ATTR are those that the physical
map gives the address. -/
structure PortReq where
  /-- The physical address: the channel is bits [9:6] of a read and [8:6] of a write, ADDR bits [46:6] (R378). -/
  pa : Nat
  /-- SRC: 0 core data, 1 fetch, 2 walker, 3 tile, 4 tram, 5 copy engine, 6 write-back. -/
  src : BitVec 3
  /-- DEV; OTAG is 1 where it is set, and 0, unordered, elsewhere (Table 17.4). -/
  dev : Bool
  /-- SEC. -/
  sec : Bool
  /-- Bytes of a device access, 0 elsewhere: they begin at OFF, PA[5:0]. -/
  size : Nat
  /-- AOP of a write request: 0 a plain write. -/
  aop : BitVec 4
  deriving DecidableEq, Repr

/-- Memory as the core's agents see it (03). -/
structure Mem where
  /-- The memory devices behind the port, and tile-store scratch at its window addresses: (address, byte) pairs in canonical form, an unlisted byte reading 0 (log 2). Reset: nothing listed. -/
  cells : List Host.Cell
  /-- Poisoned 64-byte granules of the devices and of scratch, rising (16 R352). Reset: none. -/
  poison : List Nat
  /-- Granules of which the caches hold a clean copy that a failed read left poisoned, rising (17 R382). Reset: none. -/
  copyPoison : List Nat
  /-- Lines that the L2 holds dirty, rising by granule: at most `l2ways` in a set, of which the L1 data cache holds at most 8 in one
  of its sets (03 R78, log 8). Reset: none. -/
  cache : List CacheLine
  /-- Granules that the tile-store cache holds dirty, rising: at most 16 lines of 128 bytes in a set (03 R78, log 8). Reset: none. -/
  tsc : List CacheLine
  /-- Sets of the tile-store cache in use: CACHE16 × 8,192, none while BUSY (03 R78, R82). Reset: TSCAP.STEPS × 8,192. -/
  tsSets : Nat
  /-- Ways of the L2 in use: 16, less those retired (03 Table 3.4, 16 R360). Reset 16. -/
  l2ways : Nat
  /-- The read request that the memory port offered last (17 Table 17.2). Reset: none. -/
  mrq : Option PortReq
  /-- The write request that the memory port offered last (17 Table 17.2). Reset: none. -/
  mw : Option PortReq
  /-- Vector store and urgent RAM: offsets 0 to 0x47FF from 0xFFFF_FFFF_FFFF_B800 (05 R133), canonical form. Reset: contents not given, zero (log 1). -/
  onCore : List Host.Cell
  /-- On-core granules with a parity failure (16 Table 16.1 class 6). Reset: none. -/
  onCorePoison : List Nat
  /-- The store buffer, oldest first, at most 64 (03 R75). Reset: empty. -/
  sb : List StoreEntry
  /-- Writes performed at devices, oldest first (03 R65). Reset: none. -/
  devOut : List DeviceWrite
  deriving DecidableEq, Repr

/-- The tile store's partition and status (03 R79 to R82). -/
structure TileStore where
  /-- TSCFG.CACHE16 (03 Table 3.7). Reset TSCAP.STEPS. -/
  cache16 : BitVec 4
  /-- TSSTAT.UNBCNT (03 Table 3.9). Reset 0. -/
  unbcnt : BitVec 16
  /-- TSSTAT.UNB (03 Table 3.9). Reset 0. -/
  unb : Bool
  /-- TSSTAT.BUSY (03 Table 3.9). Reset 0. -/
  busy : Bool
  /-- TSUNADDR.VALID (03 Table 3.10). Reset 0. -/
  unValid : Bool
  /-- TSUNADDR.SEQ (03 Table 3.10). Reset 0. -/
  unSeq : BitVec 16
  /-- TSUNADDR.ADDR (03 Table 3.10). Reset 0. -/
  unAddr : BitVec 47
  /-- While BUSY: the scratch steps kept by the reassignment; steps at or above wait for their zero-fill (03 R82). Reset 0. -/
  kept : Nat
  deriving DecidableEq, Repr

/-- One stream tracker in use (03 R84). -/
structure Tracker where
  /-- The line of the last miss it saw: its virtual address divided by 64. -/
  last : Nat
  /-- Lines from one miss to the next: the stride, −32 to 32, 0 while there is one miss. -/
  stride : Int
  /-- Misses at that stride, the first among them; the stream is confirmed at 3. -/
  misses : Nat
  /-- Lines it is ahead of the last miss, in strides. -/
  ahead : Nat
  deriving DecidableEq, Repr

/-- The stream prefetcher (03 R84). -/
structure Prefetch where
  /-- PFCTL.L1 (03 Table 3.11). Reset 0. -/
  l1 : Bool
  /-- PFCTL.TRACKERS (03 Table 3.11). Reset 32. -/
  trackers : BitVec 6
  /-- PFCTL.DIST (03 Table 3.11). Reset 8. -/
  dist : BitVec 4
  /-- PFCTL.EN (03 Table 3.11). Reset 1. -/
  en : Bool
  /-- PFSTAT.DROPPED (03 Table 3.12). Reset 0. -/
  dropped : BitVec 32
  /-- PFSTAT.ISSUED (03 Table 3.12). Reset 0. -/
  issued : BitVec 32
  /-- The 32 trackers, those in use (03 R84). Reset: none. -/
  streams : Vector (Option Tracker) 32
  /-- Trackers in use from the most to the least recently advanced one (03 R84). Reset: none. -/
  recent : List (Fin 32)
  /-- The line last prefetched, and whether it went into the L1 data cache too (03 R84). Reset: none. -/
  fetched : Option (Nat × Bool)
  deriving DecidableEq, Repr
/-- The tile registers of one context (06 Table 6.1). -/
structure TileRegs where
  /-- T0 to T7: 128 lanes of 128 bytes (06 R143). Zero when first owned (06 R145). -/
  t : Vector (Vector (BitVec 1024) 128) 8
  /-- K0 to K3: 128 rows of 128 elements of 32 bits, element j at bits 32j (06 Table 6.1). Zero when first owned. -/
  k : Vector (Vector (BitVec 4096) 128) 4
  /-- V0 to V7: 128 elements of 32 bits (06 R143). Zero when first owned. -/
  v : Vector (BitVec 4096) 8
  /-- SS0 to SS63: 64-byte scale-slot records (06 Table 6.1, 08 R206). Zero when first owned. -/
  ss : Vector (BitVec 512) 64
  /-- Q0 to Q15: 32-byte stream records (06 Table 6.1, 10 R231). Zero when first owned. -/
  q : Vector (BitVec 256) 16
  /-- TFLAGS: SKEW, NANIN, SAT, POISON, NAN, OVF from bit 5 down (06 Table 6.20). 0 when first owned. -/
  tflags : BitVec 6
  /-- TCONF (06 Table 6.19). 0x3FFFFF when first owned. -/
  tconf : BitVec 22
  /-- KTYPE, bit n for Kn (06 Table 6.1). 0 when first owned. -/
  ktype : BitVec 4
  /-- KDEPTH0 to KDEPTH3 (06 Table 6.1). 0 when first owned. -/
  kdepth : Vector Word 4
  /-- TPOIS: one bit a lane (06 Table 6.13). 0 when first owned. -/
  tpois : Vector (BitVec 128) 8
  /-- KPOIS: one bit a row (06 Table 6.13). 0 when first owned. -/
  kpois : Vector (BitVec 128) 4
  /-- VQPOIS[7:0] (06 Table 6.11). 0 when first owned. -/
  vpois : BitVec 8
  /-- SSPOIS (06 Table 6.13). 0 when first owned. -/
  sspois : BitVec 64
  /-- VQPOIS[23:8] (06 Table 6.11). 0 when first owned. -/
  qpois : BitVec 16
  deriving DecidableEq, Repr

/-- One seam image slot (06 R160, 09 R224). -/
structure SeamSlot where
  /-- The 4 KB image, byte 0 lowest (09 R224). Reset 0. -/
  image : BitVec 32768
  /-- The slot holds a valid image (09 R225). Reset 0. -/
  valid : Bool
  /-- The slot is poisoned (09 R227). Reset 0. -/
  poison : Bool
  /-- Image address of the slot's last SEAMLD, SEAMSRC[63:1] (06 Table 6.11). Reset 0. -/
  src : Word
  deriving DecidableEq, Repr

/-- A piece of a tile memory operand after translation: physical address, memory type and bytes (06 R163). -/
structure Segment where
  /-- Physical address. -/
  pa : Nat
  /-- Memory type. -/
  ty : MemType
  /-- Bytes. -/
  len : Nat
  deriving DecidableEq, Repr

/-- The work of a queue entry, its operands as dispatch read and translated them (06 R152 to R160, R164). -/
inductive TileOp where
  /-- TCFG: the new TCONF. -/
  | tcfg (new : BitVec 22)
  /-- TZERO: class V or T, mask. -/
  | tzero (isV : Bool) (mask : BitVec 8)
  /-- KZERO: mask, INT32 type. -/
  | kzero (mask : BitVec 4) (int : Bool)
  /-- TMOV: class V or T, source, destination. -/
  | tmov (isV : Bool) (src dst : Fin 8)
  /-- TFENCE. -/
  | tfence
  /-- TLOAD.V, TLOAD.D: orientation D, width code, tile, lines. -/
  | load (d : Bool) (w : Nat) (tile : Fin 8) (lines : List (List Segment))
  /-- TSTORE.V, TSTORE.D. -/
  | store (d : Bool) (w : Nat) (tile : Fin 8) (lines : List (List Segment))
  /-- TLOAD.Q: orientation D, format code, tile, scale slot, lines, side-buffer band (11 R250). -/
  | loadQ (d : Bool) (fmt : Nat) (tile : Fin 8) (slot : Fin 64) (lines : List (List Segment)) (band : Nat)
  /-- TSTORE.Q. -/
  | storeQ (d : Bool) (fmt : Nat) (tile : Fin 8) (slot : Fin 64) (lines : List (List Segment))
  /-- VLOAD. -/
  | vload (v : Fin 8) (lines : List (List Segment))
  /-- VSTORE. -/
  | vstore (v : Fin 8) (lines : List (List Segment))
  /-- OPA: accumulator, operand tiles, format codes, control word, STEPCNT and MBATCH as sampled at dispatch (10 R235). -/
  | opa (kd : Fin 4) (ta tb : Fin 8) (fa fb : Nat) (ctl stepcnt mbatch : Word)
  /-- OPMAX, or OPMIN where `isMin`. -/
  | opm (isMin : Bool) (kd : Fin 4) (ta tb : Fin 8) (f : Nat) (ctl : Word)
  /-- KOUT: accumulator, seam slot, reduction vector, KZ, scale slot, lines, the stream whose ARMED its check cleared. -/
  | kout (k : Fin 4) (seam : Fin 4) (vr : Fin 8) (kz : Bool) (slot : Fin 64) (lines : List (List Segment))
      (disarm : Option (Fin 16))
  /-- SCALE.SET: slot, word, value. -/
  | scaleSet (slot : Fin 64) (sel : Fin 8) (value : Word)
  /-- SCALE.UPD: slot. -/
  | scaleUpd (slot : Fin 64)
  /-- STEP's update entry, with DCUR, STEPCNT and SSGRP as sampled at dispatch, and the SEQ of its journal record if one is
  made (08 R210, 10 R237, R239). -/
  | stepUpdate (dcur stepcnt : Word) (ssgrp : BitVec 2) (seq : Option Word)
  deriving DecidableEq, Repr

/-- One entry of the tile command queue (06 R164). -/
structure TileEntry where
  /-- Its work. -/
  op : TileOp
  /-- It has started on its unit; its effects are performed. -/
  started : Bool
  deriving DecidableEq, Repr

/-- The tile extension (06). -/
structure Tile where
  /-- The live tile state (06 R141). -/
  regs : TileRegs
  /-- TCTL.UEN (06 Table 6.14). Reset 0. -/
  uen : Bool
  /-- TCTL.EN (06 Table 6.14). Reset 0. -/
  en : Bool
  /-- The tile command queue, oldest first, at most 16 (06 R164). Reset: empty. -/
  queue : List TileEntry
  /-- Seam image slots (06 R160). Reset: not valid. -/
  seam : Vector SeamSlot 4
  /-- TPEVT.VALID (06 Table 6.16). Reset 0. -/
  evtValid : Bool
  /-- TPEVT.SEQ (06 Table 6.16). Reset 0. -/
  evtSeq : BitVec 16
  /-- TPEVT.INDEX (06 Table 6.16). Reset 0. -/
  evtIndex : BitVec 7
  /-- TPEVT.CLASS (06 Table 6.16). Reset 0. -/
  evtClass : BitVec 3
  /-- TPEVT.REG (06 Table 6.16). Reset 0. -/
  evtReg : BitVec 6
  /-- TPEVT.STORAGE (06 Table 6.16). Reset 0. -/
  evtStorage : Bool
  /-- TPEVT.MISSED (06 Table 6.16). Reset 0. -/
  evtMissed : BitVec 16
  /-- TPADDR (06 Table 6.17). Reset 0. -/
  evtAddr : BitVec 47
  /-- STOPCNT (07 Table 7.11). Reset 0. -/
  stopcnt : Word
  /-- SEAMCNT (09 Table 9.11). Reset 0. -/
  seamcnt : Word
  deriving DecidableEq, Repr
/-- The trigger of a dump, as its header and its record give it (16 Tables 16.11 and 16.12). -/
structure DumpInfo where
  /-- DUMPS after the trigger. -/
  seq : Nat
  /-- TRIGGER. -/
  trigger : Nat
  /-- WDCAUSE. -/
  wdcause : Nat
  /-- MGMTCYC at the trigger. -/
  mgmtcyc : Nat
  /-- TILEEPOCH at the trigger. -/
  epoch : Nat
  /-- STEPCNT at the trigger. -/
  stepcnt : Nat
  deriving DecidableEq, Repr

/-- One record of the event log (16 R369). -/
structure EventRec where
  /-- MGMTCYC when written. -/
  mgmtcyc : Word
  /-- STEPCNT when written. -/
  stepcnt : Word
  /-- KIND. -/
  kind : BitVec 16
  /-- CLASS. -/
  cls : BitVec 8
  /-- UNIT. -/
  unit : BitVec 32
  /-- ADDR. -/
  addr : Word
  /-- INFO. -/
  info : BitVec 128
  /-- SEQ. -/
  seq : Word
  deriving DecidableEq, Repr

/-- The result of the last closed fill of a class: FILLRES (16 Table 16.17), or STFILLRES for class 0 (07 Table 7.8). -/
structure FillRes where
  /-- VALID. Reset 0. -/
  valid : Bool
  /-- SEQ. Reset 0. -/
  seq : BitVec 16
  /-- OUTCOME. Reset 0. -/
  outcome : BitVec 3
  /-- UNIT; for class 0 the logical column LCOL. Reset 0. -/
  unit : BitVec 12
  /-- SPARE. Reset 0. -/
  spare : BitVec 4
  /-- RESTARTS. Reset 0. -/
  restarts : BitVec 8
  /-- FIRST (classes 1 to 4). Reset 0. -/
  first : BitVec 13
  /-- POISONED. Reset 0. -/
  poisoned : BitVec 13
  deriving DecidableEq, Repr

/-- An open fill (16 R357). -/
structure OpenFill where
  /-- The unit being moved. -/
  unit : Nat
  /-- The spare being filled; none for a fold fill (07 R194). -/
  spare : Option Nat
  /-- Restarts after spare failures. -/
  restarts : Nat
  /-- First element not copied when the source failed, if it has. -/
  first : Option Nat
  /-- Elements, or rows for class 0, poisoned by the source failure. -/
  poisoned : Nat
  /-- MGMTCYC when the fill opened, for FILLTIME (16 Table 16.9). -/
  started : Word
  deriving DecidableEq, Repr

/-- The fill machine and spare state of one class (16 R357, 07 R193). Reset: nothing open, queued, fenced, used or dead. -/
structure FillMachine where
  /-- The open fill. Reset: none. -/
  openFill : Option OpenFill
  /-- Requests queued, oldest first, at most 4. Reset: empty. -/
  queue : List Nat
  /-- Units fenced (16 R358). Reset: none. -/
  fenced : List Nat
  /-- Units dead. Reset: none. -/
  dead : List Nat
  /-- Spares in use with the unit each replaces. Reset: none. -/
  inUse : List (Nat × Nat)
  /-- Spares dead. Reset: none. -/
  deadSpares : List Nat
  /-- Units retired (16 R360). Reset: none. -/
  retired : List Nat
  /-- FILLRES or STFILLRES. Reset 0. -/
  res : FillRes
  deriving DecidableEq, Repr

/-- Parity, poison, spares and tally (16). -/
structure Resil where
  /-- Tally counters by subindex 0x00 to 0x5F (16 Table 16.8). Reset 0, AONRESETS 1 for the reset itself (then loaded at boot, R365). -/
  tally : Vector Word 96
  /-- Tally histograms: 32·sub + bucket to count, canonical, unlisted 0 (16 Table 16.9). Reset 0. -/
  hist : List (Nat × Word)
  /-- MGMTCYC of each class's last parity event, for PARINT (16 Table 16.9). Reset: none. -/
  parLast : Vector (Option Word) 14
  /-- The event log, newest first, at most 256 (16 R369). Reset: empty. -/
  eventLog : List EventRec
  /-- SEQ of the next event record (16 R369). Reset 0. -/
  eventSeq : Word
  /-- PARCAP.VALID (16 Table 16.16). Reset 0. -/
  capValid : Bool
  /-- PARCAP.SEQ (16 Table 16.16). Reset 0. -/
  capSeq : BitVec 16
  /-- PARCAP.CLASS (16 Table 16.16). Reset 0. -/
  capClass : BitVec 4
  /-- PARCAP.KIND (16 Table 16.16). Reset 0. -/
  capKind : BitVec 2
  /-- PARCAP.UNIT (16 Table 16.16). Reset 0. -/
  capUnit : BitVec 12
  /-- PARCAP.MISSED (16 Table 16.16). Reset 0. -/
  capMissed : BitVec 16
  /-- PARADDR (16 Table 16.15). Reset 0. -/
  capAddr : BitVec 47
  /-- TALSTAT[13:0] (16 Table 16.15). Reset 0. -/
  talstat : BitVec 14
  /-- TALSTAT.LATDEV (16 Table 16.15). Reset 0. -/
  latdev : Bool
  /-- TALTHRc.THR (16 Table 16.19). Reset 16, class 8: 1. -/
  thr : Vector (BitVec 16) 14
  /-- TALTHRc.PENDING (16 Table 16.19). Reset 0. -/
  thrPending : Vector (BitVec 16) 14
  /-- TALSEL (16 Table 16.15). Reset 0: given for no field, zero (log 1). -/
  talsel : BitVec 13
  /-- FILLSEL (16 Table 16.15). Reset 0: none given, zero (log 1). -/
  fillsel : BitVec 3
  /-- The fill machines of classes 0 to 4 (16 R357). -/
  fills : Vector FillMachine 5
  /-- STSTAT.MODE: 0 normal, 1 folded, 2 retired (07 Table 7.6). Reset: the spare state; normal with nothing persisted. -/
  stopeMode : BitVec 2
  /-- Register-bank images marked poisoned by a failed class-3 fill (16 Table 16.5). Reset: none. -/
  bankPoison : Vector Bool 8
  /-- DUMPSTAT.VALID (16 Table 16.18). Reset 0. -/
  dumpValid : Bool
  /-- DUMPSTAT.SEQ (16 Table 16.18). Reset 0. -/
  dumpSeq : BitVec 16
  /-- DUMPSTAT.STATUS (16 Table 16.18). Reset 0. -/
  dumpStatus : BitVec 3
  /-- DUMPSTAT.SLOT (16 Table 16.18). Reset 0. -/
  dumpSlot : BitVec 12
  /-- TRIGGER of a fatal dump that is due: 1 a further escalation, 2 a watchdog record, 3 DUMP_REQ, 0 none (05 R132, 16 R367). Reset 0. -/
  fatalDue : BitVec 2
  /-- The dump in progress: its record has been made, its image has not (16 R367). Reset: none. -/
  dumping : Option DumpInfo
  /-- MGMTCYC as it was loaded at boot: AONCYC counts from there (15 Table 15.3, 16 R365). Reset 0. -/
  cycBase : Word
  /-- Periods of TPERSIST since the tally last went into the dictionary store (16 R365). Reset 0. -/
  persists : Nat
  /-- Firmware's record of units' last parity events: class, unit, MGMTCYC (16 R356). Reset: none. -/
  unitSeen : List (Nat × Nat × Word)
  deriving DecidableEq, Repr

/-- A journal record that waits at the journal channel (10 R239). -/
structure JnlRec where
  /-- SEQ. -/
  seq : Word
  /-- The address of its slot. -/
  addr : Nat
  /-- The 64 bytes of Table 10.4, byte 0 lowest; none until STEP's update entry has built them. -/
  data : Option (BitVec 512)
  deriving DecidableEq, Repr

/-- Streams' shared registers and the journal (10 R233, R239 to R245). -/
structure Journal where
  /-- STEPCNT (10 Table 10.5). Reset 0. -/
  stepcnt : Word
  /-- MBATCH (10 Table 10.5). Reset 0. -/
  mbatch : BitVec 20
  /-- DCUR (10 Table 10.5). Reset 0. -/
  dcur : Word
  /-- QSEL.WORD (10 Table 10.6). Reset 0. -/
  qword : BitVec 2
  /-- QSEL.STREAM (10 Table 10.6). Reset 0. -/
  qstream : BitVec 4
  /-- JNLCFG.LOG2LEN (10 Table 10.7). Reset 6. -/
  log2len : BitVec 5
  /-- JNLCFG.SSGRP (10 Table 10.7). Reset 0. -/
  ssgrp : BitVec 2
  /-- JNLCFG.EN (10 Table 10.7). Reset 0. -/
  en : Bool
  /-- JNLBASE, address bits [46:12] (10 Table 10.5). Reset X: zero (log 1). -/
  base : BitVec 35
  /-- JNLSEQ (10 Table 10.5). Reset X: zero (log 1). -/
  seq : Word
  /-- JNLHEAD (10 Table 10.5). Reset 0. -/
  head : BitVec 26
  /-- JNLOBJ.EN (10 Table 10.5). Reset 0. -/
  objEn : Bool
  /-- JNLOBJ.OBJ (10 Table 10.5). Reset 0. -/
  obj : BitVec 13
  /-- JNLSTAT.DONE (10 Table 10.8). Reset 0. -/
  done : BitVec 32
  /-- JNLSTAT.ERRCNT (10 Table 10.8). Reset 0. -/
  errcnt : BitVec 16
  /-- JNLSTAT.ERR (10 Table 10.8). Reset 0. -/
  err : Bool
  /-- JNLSTAT.JCH (10 Table 10.8). Reset 0. -/
  jch : Bool
  /-- JNLERR.VALID (10 Table 10.9). Reset 0. -/
  errValid : Bool
  /-- JNLERR.CSEQ (10 Table 10.9). Reset 0. -/
  errCseq : BitVec 16
  /-- JNLERR.REASON (10 Table 10.9). Reset 0. -/
  errReason : BitVec 8
  /-- JNLERR.SEQ (10 Table 10.9). Reset 0. -/
  errSeq : BitVec 32
  /-- Records pending, oldest first, at most 8; their number is JNLSTAT.PEND (10 R239). Reset: empty. -/
  pend : List JnlRec
  deriving DecidableEq, Repr

/-- An entry of the assay's side buffer (11 R250). -/
structure SideEntry where
  /-- The tile. -/
  tile : Fin 8
  /-- Its band of 16 lanes. -/
  band : Nat
  /-- The BF16 sources of the 16 lanes, each lane's in depth order from bit 0. -/
  lanes : List Nat
  /-- Which of the buffer's four entries it is (11 Table 11.5). -/
  place : Fin 4
  deriving DecidableEq, Repr

/-- A sample whose same-format check has not finished (11 R248). -/
structure Sample where
  /-- LTAG. -/
  ltag : BitVec 8
  /-- Row block. -/
  rb : BitVec 3
  /-- Column block. -/
  cb : BitVec 3
  deriving DecidableEq, Repr

/-- A same-format check in progress (11 R248): the sample, what the assay array recomputed and what the stope has written. -/
structure Check where
  /-- LTAG, RB and CB. -/
  sample : Sample
  /-- The 256 results under the reference order, row then column. -/
  ref : List (BitVec 32)
  /-- The 256 results of the stope. -/
  got : List (BitVec 32)
  /-- The physical columns on which the sub-block's 16 columns made their final promotion (R256). -/
  cols : List (BitVec 8)
  /-- The wide unit checks the same sample (R251). -/
  wide : Bool
  deriving DecidableEq, Repr

/-- A wide check whose unit is busy (11 R251, R252). -/
structure WideSample where
  /-- LTAG. -/
  ltag : BitVec 8
  /-- The sample's bucket. -/
  bucket : BitVec 5
  /-- The sample's error, FP32. -/
  err : BitVec 32
  deriving DecidableEq, Repr

/-- The assay and the calibration state (11). -/
structure Assay where
  /-- ASCTL.QS (11 Table 11.4). Reset 0. -/
  qs : BitVec 4
  /-- ASCTL.ALBKT (11 Table 11.4). Reset 24. -/
  albkt : BitVec 5
  /-- ASCTL.RATE (11 Table 11.4). Reset 10. -/
  rate : BitVec 5
  /-- ASCTL.WIDE (11 Table 11.4). Reset 0. -/
  wide : Bool
  /-- ASCTL.EN (11 Table 11.4). Reset 0. -/
  en : Bool
  /-- ASCNT0.SAMPLES (11 Table 11.6). Reset 0. -/
  samples : BitVec 32
  /-- ASCNT0.MISMATCH (11 Table 11.6). Reset 0. -/
  mismatch : BitVec 32
  /-- ASCNT1.WIDE (11 Table 11.6). Reset 0. -/
  wides : BitVec 32
  /-- ASCNT1.SKIPPED (11 Table 11.6). Reset 0. -/
  skipped : BitVec 16
  /-- ASCNT1.WSKIP (11 Table 11.6). Reset 0. -/
  wskip : BitVec 16
  /-- ASMISM.VALID (11 Table 11.7). Reset 0. -/
  misValid : Bool
  /-- ASMISM.SEQ (11 Table 11.7). Reset 0. -/
  misSeq : BitVec 16
  /-- ASMISM.LTAG, RB and CB (11 Table 11.7). Reset 0. -/
  misSample : Sample
  /-- ASMISM.SINGLE (11 Table 11.7). Reset 0. -/
  misSingle : Bool
  /-- ASMISM.PCOL (11 Table 11.7). Reset 0. -/
  misPcol : BitVec 8
  /-- ASMISM.NELEM (11 Table 11.7). Reset 0. -/
  misNelem : BitVec 9
  /-- ASMISM.MISSED (11 Table 11.7). Reset 0. -/
  misMissed : BitVec 15
  /-- ASALARM.VALID (11 Table 11.8). Reset 0. -/
  alValid : Bool
  /-- ASALARM.SEQ (11 Table 11.8). Reset 0. -/
  alSeq : BitVec 16
  /-- ASALARM.LTAG, BUCKET and ERR (11 Table 11.8). Reset 0. -/
  alSample : WideSample
  /-- ASHSEL.LTAG (11 Table 11.9). Reset 0. -/
  selTag : BitVec 8
  /-- ASHSEL.BUCKET (11 Table 11.9). Reset 0. -/
  selBucket : BitVec 5
  /-- The histogram array: 32·tag + bucket to count, canonical, unlisted 0 (11 R253). Reset 0: PD_AON, none given (log 1). -/
  hist : List (Nat × BitVec 32)
  /-- The side buffer, most recently made first, at most 4 (11 R250). Reset: empty. -/
  side : List SideEntry
  /-- Samples whose check has not finished, oldest first (11 R248). Reset: none. -/
  pend : List Check
  /-- The wide check in progress, if the unit is busy (11 R251). Reset: none. -/
  widePend : Option WideSample
  /-- CALSTAT.OPEN and ASSTAT.FORCED: a calibration step is open (11 R254). Reset 0. -/
  stepOpen : Bool
  /-- CALSTAT.KNOB, 1 trim (11 Table 11.10). Reset 0. -/
  knob : Bool
  /-- The knob of the last attempt, 1 trim: the next attempt takes the other (11 R254). Reset 1, so that voltage comes first: DESIGN CHOICE (log 56). -/
  lastKnob : Bool
  /-- A mismatch outside a step waits for the stope fill to close before its margin step (11 Table 11.2). Reset 0. -/
  marginDue : Bool
  /-- Hold-off periods left; CALSTAT.HOLDOFF while not 0 (11 R254). Reset 0. -/
  holdoff : Nat
  /-- CALSTAT.STEPS (11 Table 11.10). Reset 0. -/
  steps : BitVec 16
  /-- CALSTAT.TRIM and the TILE_TRIM pins, signed (11 R255). Reset 0. -/
  trim : BitVec 8
  /-- CALSTAT.VID and the VID_REQ pins (11 R255). Reset 100. -/
  vid : BitVec 16
  /-- last_good's VID (11 R254). Reset 100. -/
  goodVid : BitVec 16
  /-- last_good's TRIM (11 R254). Reset 0. -/
  goodTrim : BitVec 8
  /-- Same-format samples observed in the open step (11 R254). Reset 0. -/
  window : Nat
  /-- The open step has met a mismatch, after this many samples (11 R254). Reset: none. -/
  stepFail : Option Nat
  /-- Firmware's count of attributed samples per physical column, canonical, unlisted 0 (11 R256). Reset: none. -/
  colCount : List (Nat × Nat)
  /-- Delay codes of the 32 tile-store channels (11 R257). Reset X: zero (log 1). -/
  delay : Vector (BitVec 8) 32
  deriving DecidableEq, Repr


/-- One heat-table entry in use (12 Table 12.1). -/
structure HeatEntry where
  /-- IAPG. -/
  iapg : BitVec 33
  /-- FILL. -/
  fill : BitVec 14
  /-- MISS. -/
  miss : BitVec 16
  deriving DecidableEq, Repr

/-- Where an open migration stands (12 Table 12.2). -/
inductive MigPhase where
  /-- Step 4: waiting for the ACKs to REVOKE. -/
  | revoke
  /-- Step 6: the copy engine copies. -/
  | copy
  /-- Step 9: waiting for the ACKs to REMAP. -/
  | remap
  /-- An aborted migration waits for the ACKs to ABORT (12 R268). -/
  | abort
  deriving DecidableEq, Repr

/-- A migration that this deputy has open as home (12 R265). -/
structure Migration where
  /-- MIGID. -/
  migid : BitVec 8
  /-- The IA page P. -/
  page : BitVec 33
  /-- The old PA page O. -/
  old : BitVec 33
  /-- The new PA page N. -/
  new : BitVec 33
  /-- Address of P's stage-2 entry. -/
  entry : Nat
  /-- The step it waits in. -/
  phase : MigPhase
  /-- Members whose ACK is awaited. -/
  waits : List (BitVec 24)
  /-- REASON of the notice that an abort raises (Table 12.9). -/
  reason : BitVec 3
  /-- It belongs to the HLREQ request being served, or to a member's REQUEST. -/
  requested : Bool
  deriving DecidableEq, Repr

/-- A page that a member has hinted (12 R271). -/
structure Hint where
  /-- IAPG. -/
  page : BitVec 33
  /-- HEAT. -/
  heat : BitVec 33
  /-- LSTACK of the sender. -/
  stack : BitVec 5
  deriving DecidableEq, Repr

/-- A request being served (12 R272): from HLREQ, or a member's REQUEST with its sender. -/
structure HlRequest where
  /-- OP. -/
  op : BitVec 4
  /-- Pages not yet begun, ascending. -/
  todo : List (BitVec 33)
  /-- Pages in the request. -/
  count : Nat
  /-- Pages completed. -/
  done : Nat
  /-- The stack promoted to. -/
  stack : BitVec 5
  /-- The member that asked and its MIGID; none for HLREQ. -/
  sender : Option (BitVec 24 × BitVec 8)
  deriving DecidableEq, Repr

/-- Haulage (12). -/
structure Haulage where
  /-- The heat table: set·4 + way to entry; an unlisted entry is invalid (12 R262). Reset: every entry invalid. -/
  heat : List (Nat × Option HeatEntry)
  /-- Heat events waiting, oldest first, at most 64: MISS and the page (12 R263). Reset: none. -/
  queue : List (Bool × BitVec 33)
  /-- HTDROP (12 Table 12.6). Reset 0: none given, zero (log 1). -/
  drop : Word
  /-- HTSEL (12 Table 12.6). Reset 0: none given, zero (log 1). -/
  htsel : BitVec 14
  /-- HTSTAT.AGING (14 Table 14.9). Reset 0. -/
  aging : Bool
  /-- Sets that the aging pass under way has aged, 4,096 where none is under way (12 R264). Reset 4,096. -/
  aged : Nat
  /-- HTWSEL (14 Table 14.9). Reset 0. -/
  htwsel : BitVec 14
  /-- The snapshot of HTWDATA (14 Table 14.9). Reset 0. -/
  htwsnap : Word
  /-- HTCFG.HFILLW (14 Table 14.9). Reset 8. -/
  hfillw : BitVec 8
  /-- HLSTAT.MIGS (12 Table 12.11). Reset 0. -/
  migs : BitVec 32
  /-- HLSTAT.REQIGN (12 Table 12.11). Reset 0. -/
  reqign : BitVec 16
  /-- HLSTAT.ABORTS (12 Table 12.11). Reset 0. -/
  aborts : BitVec 8
  /-- The requests being served, HLREQ's own among them; REQBUSY while one has no sender, or while a member's own request waits for its home (12 R271, R272). Reset: none. -/
  requests : List HlRequest
  /-- A REQUEST of this member that waits for its home's answer: its MIGID (12 R271). Reset: none. -/
  asked : Option (BitVec 8)
  /-- HLRES.VALID (12 Table 12.8). Reset 0. -/
  resValid : Bool
  /-- HLRES.SEQ (12 Table 12.8). Reset 0. -/
  resSeq : BitVec 16
  /-- HLRES.OUTCOME (12 Table 12.8). Reset 0. -/
  resOutcome : BitVec 3
  /-- HLRES.DONE (12 Table 12.8). Reset 0. -/
  resDone : BitVec 9
  /-- HLNOTE.VALID (12 Table 12.9). Reset 0. -/
  noteValid : Bool
  /-- HLNOTE.SEQ (12 Table 12.9). Reset 0. -/
  noteSeq : BitVec 16
  /-- HLNOTE.IAPG (12 Table 12.9). Reset 0. -/
  notePage : BitVec 33
  /-- HLNOTE.REASON (12 Table 12.9). Reset 0. -/
  noteReason : BitVec 3
  /-- HLNOTE.MISSED (12 Table 12.9). Reset 0. -/
  noteMissed : BitVec 11
  /-- HLTAKE.LSTACK (12 Table 12.10). Reset NODE_ID[4:0]. -/
  lstack : BitVec 5
  /-- HLTAKE.REFLIM (12 Table 12.10). Reset HREFLIM, 8. -/
  reflim : BitVec 8
  /-- HLTAKE.THR (12 Table 12.10). Reset HTAKETHR, 192. -/
  thr : BitVec 8
  /-- HLTKCNT takes (12 Table 12.6). Reset 0: none given, zero (log 1). -/
  takes : BitVec 32
  /-- HLTKCNT refusals (12 Table 12.6). Reset 0: none given, zero (log 1). -/
  refusals : BitVec 32
  /-- Migrations open as home, at most 4 (12 R265). Reset: none. -/
  migrations : List Migration
  /-- MIGID of the next migration or request. Reset 0: DESIGN CHOICE (log 35). -/
  nextMig : BitVec 8
  /-- Hinted pages held, at most 256 (12 R271). Reset: none. -/
  hints : List Hint
  /-- The epoch's choices not yet begun, in order: the page and the stack it goes to, or none for EXP (12 R270). Reset: none. -/
  chosen : List (BitVec 33 × Option (BitVec 5))
  /-- Migrations begun in this epoch, which count against HMIGMAX (12 R270). Reset 0. -/
  begun : Nat
  /-- Pages that this member's home migrates: between REVOKE and RELEASE or ABORT (12 R266). Reset: none. -/
  revoked : List (BitVec 33)
  /-- NEAR pools that had fewer than HRSV free pages when the epoch began (12 R270, R272). Reset: none. -/
  owed : List (Fin 32)
  /-- Free PA pages of the pools, as firmware lists them (12 R265, R268). Reset: none (log 36). -/
  free : List (BitVec 33)
  /-- The members of this home's table other than its own core (12, Migration). Reset: none (log 36). -/
  members : List (BitVec 24)
  deriving DecidableEq, Repr

/-- A sync-object record (13 Table 13.1). -/
structure SyncObj where
  /-- COUNT; GEN and ARRIVED in barrier mode, HEAD and QLEN in queue mode. -/
  count : Word
  /-- TARGET. -/
  target : BitVec 32
  /-- POIS. -/
  pois : Bool
  /-- USER. -/
  user : Bool
  /-- WAKE. -/
  wake : BitVec 2
  /-- MODE: 0 disabled, 1 counter, 2 barrier, 3 queue. -/
  mode : BitVec 2
  /-- RINGPA, address bits [46:12]. -/
  ringpa : BitVec 35
  /-- LOG2LEN. -/
  log2len : BitVec 5
  /-- DTAB, address bits [46:6]. -/
  dtab : BitVec 41
  deriving DecidableEq, Repr

/-- The record after PD_AON reset: every bit zero, the object disabled (13 R278). -/
def SyncObj.zero : SyncObj :=
  { count := 0, target := 0, pois := false, user := false, wake := 0, mode := 0, ringpa := 0, log2len := 0, dtab := 0 }

/-- An entry of the parked list (13 R283). -/
structure Parked where
  /-- TSB, address bits [46:10]. -/
  tsb : BitVec 37
  /-- The object. -/
  obj : BitVec 13
  /-- GEN recorded at the park; 0 for a counter waiter. -/
  gen : BitVec 32
  deriving DecidableEq, Repr

/-- Where the banksman's task take stands (13 R289). -/
inductive TakePhase where
  /-- Nothing is sent. -/
  | idle
  /-- The 1,024-cycle wait after a refusal or an empty reply. -/
  | waiting
  /-- A PEEK is with the unit of this object. -/
  | peeked (obj : BitVec 37)
  /-- A TAKE with this SEQ is with the unit of this object. -/
  | taking (obj : BitVec 37) (seq : BitVec 32)
  deriving DecidableEq, Repr

/-- Sync objects (13 R277 to R289). -/
structure Sync where
  /-- The 8,192 object records, canonical: an unlisted record is zero (13 R278). Reset: every record zero. -/
  objs : List (Nat × SyncObj)
  /-- The parked list in the order parked, at most 64 (13 R283). Reset: empty. -/
  parked : List Parked
  /-- The wake queue in push order, at most 64 (13 R284). Reset: empty. -/
  wakeq : List (BitVec 13)
  /-- SOSTAT.DROPS (13 Table 13.12). Reset 0. -/
  drops : BitVec 32
  /-- SOSTAT.WQOVF (13 Table 13.12). Reset 0. -/
  wqovf : Bool
  /-- SOERR.VALID (13 Table 13.13). Reset 0. -/
  errValid : Bool
  /-- SOERR.SEQ (13 Table 13.13). Reset 0. -/
  errSeq : BitVec 16
  /-- SOERR.REASON (13 Table 13.13). Reset 0. -/
  errReason : BitVec 4
  /-- SOERR.SRCNODE (13 Table 13.13). Reset 0. -/
  errSrc : BitVec 24
  /-- SOERR.OBJECT (13 Table 13.13). Reset 0. -/
  errObj : BitVec 13
  /-- SOSEL.PK (13 Table 13.11). Reset 0: none given, zero (log 1). -/
  selPk : Bool
  /-- SOSEL.WORD (13 Table 13.11). Reset 0: none given, zero (log 1). -/
  selWord : BitVec 2
  /-- SOSEL.OBJECT (13 Table 13.11). Reset 0: none given, zero (log 1). -/
  selObj : BitVec 13
  /-- SOTAKE.EN (13 Table 13.11). Reset 0. -/
  takeEn : Bool
  /-- SOTAKE's object name (13 Table 13.11). Reset 0. -/
  takeObj : BitVec 37
  /-- The take in progress (13 R289). Reset: none. -/
  phase : TakePhase
  /-- Refusals in a row of the object last examined (12 R274). Reset 0. -/
  refused : Nat
  /-- The object last examined (12 R274). Reset: none. -/
  lastObj : Option (BitVec 37)
  deriving DecidableEq, Repr

/-- A mailbox channel (13 R290). -/
structure Mailbox where
  /-- The inbound slot, byte 0 lowest. Reset 0: none given, zero (log 1). -/
  inSlot : BitVec 512
  /-- The inbound slot is poisoned (16 Table 16.2). Reset 0. -/
  inPois : Bool
  /-- The outbound slot. Reset 0: none given, zero (log 1). -/
  outSlot : BitVec 512
  /-- INFULL. Reset 0. -/
  inFull : Bool
  /-- OUTFULL. Reset 0. -/
  outFull : Bool
  /-- CREDIT. Reset 0. -/
  credit : Bool
  /-- MBCFG.EN. Reset 0. -/
  en : Bool
  /-- MBCFG.PCHAN. Reset 0. -/
  pchan : BitVec 4
  /-- MBCFG.PNODE. Reset 0. -/
  pnode : BitVec 24
  deriving DecidableEq, Repr

/-- The mailboxes (13 R290, R291). -/
structure Mailboxes where
  /-- Channels 0 to 15; 8 to 15 are secure. -/
  ch : Vector Mailbox 16
  /-- MBSTAT.DROPS (13 Table 13.14). Reset 0. -/
  drops : BitVec 16
  /-- MBSEL.WORD (13 Table 13.11). Reset 0: none given, zero (log 1). -/
  selWord : BitVec 3
  /-- MBSEL.CHAN (13 Table 13.11). Reset 0: none given, zero (log 1). -/
  selChan : BitVec 3
  deriving DecidableEq, Repr

/-- A tram descriptor that has started and not completed (13 R292, R298). -/
structure TramOpen where
  /-- The 64 bytes of Table 13.7. -/
  desc : BitVec 512
  /-- Its accesses have been made, its remote ones sent. -/
  issued : Bool
  /-- TRCFG.EN was cleared within a 4 KB unit of it: it ends at the unit's end (13 R299). -/
  ending : Bool
  /-- Its completion record cannot be written: CREC's translation has failed (13 R294). -/
  noRecord : Bool
  /-- Replies of remote packets still awaited: tag, destination offset and bytes (17 R383). -/
  waits : List (BitVec 12 × Nat × Nat)
  /-- Status so far (13 Table 13.9). -/
  status : BitVec 4
  /-- BYTES so far. -/
  bytes : BitVec 40
  /-- RESULT. -/
  result : Word
  deriving DecidableEq, Repr

/-- A tram channel (13 R292). -/
structure Channel where
  /-- TRCFG.EN. Reset 0. -/
  en : Bool
  /-- TRCFG.PA. Reset 0. -/
  pa : Bool
  /-- TRRING's PA, bits [46:12]. Reset X: zero (log 1). -/
  ring : BitVec 35
  /-- TRRING.LOG2LEN. Reset X: zero (log 1). -/
  log2len : BitVec 5
  /-- TRROOT, layout of Table 4.10. Reset X: zero (log 1). -/
  root : Word
  /-- TRTAIL. Reset X: zero (log 1). -/
  tail : BitVec 12
  /-- TRHEAD. Reset X: zero (log 1). -/
  head : BitVec 12
  /-- TRSTAT.DONE (13 Table 13.15). Reset 0. -/
  done : BitVec 32
  /-- TRSTAT.HALT (13 Table 13.15). Reset 0. -/
  halt : Bool
  /-- TRSTAT.LAST (13 Table 13.15). Reset 0. -/
  last : BitVec 4
  /-- Descriptors started and not completed, in ring order (TRSTAT.OPEN). Reset: none. -/
  opens : List TramOpen
  deriving DecidableEq, Repr

/-- The tram engine (13 R292 to R299). -/
structure Tram where
  /-- The 32 channels. -/
  ch : Vector Channel 32
  /-- TRSEL (13 Table 13.11). Reset 0: none given, zero (log 1). -/
  sel : BitVec 5
  /-- TRRWIN.EN (13 Table 13.11). Reset 0. -/
  winEn : Bool
  /-- TRRWIN's base PA, bits [46:14] (13 Table 13.11). Reset 0. -/
  winBase : BitVec 33
  /-- TRRWIN's log2 of the size (13 Table 13.11). Reset 0. -/
  winLog : BitVec 6
  /-- TAG of the next remote packet. Reset 0: DESIGN CHOICE (log 37). -/
  nextTag : BitVec 12
  /-- The channel whose unit was served last (13 R292). Reset 31, so that channel 0 comes first: DESIGN CHOICE (log 169). -/
  served : Fin 32
  deriving DecidableEq, Repr

/-- The fabric port and the counts of both ports (17 R383 to R386, Table 17.16). -/
structure Fabric where
  /-- Packets that wait for flit credits: TYPE and packet, oldest first (17 R385). Reset: none. -/
  waiting : List (BitVec 4 × Packet)
  /-- Packets sent on FTX, oldest first (17 R383). Reset: none. -/
  sent : List (BitVec 4 × Packet)
  /-- Flit credits held for each virtual channel (17 R385). Reset 0. -/
  credits : Vector Nat 4
  /-- FPCNT: NACKs received (17 Table 17.16). Reset 0. -/
  nacks : BitVec 32
  /-- FPCNT: parity errors (17 Table 17.16). Reset 0. -/
  parity : BitVec 16
  /-- FPCNT: reserved types dropped (17 Table 17.16). Reset 0. -/
  reserved : BitVec 16
  /-- The packet that arrives next has a parity error (16 Table 16.1 class 11). Reset 0. -/
  bad : Bool
  /-- MPCNT: read errors (17 Table 17.16). Reset 0. -/
  rdErrs : BitVec 32
  /-- MPCNT: write errors (17 Table 17.16). Reset 0. -/
  wrErrs : BitVec 16
  /-- MPCNT: timeouts (17 Table 17.16). Reset 0. -/
  timeouts : BitVec 16
  /-- Granules whose read has been issued a second time (17 R382). Reset: none. -/
  reissued : List (BitVec 41)
  deriving DecidableEq, Repr

/-- A delayed branch of the deputy whose slot has not executed (14 R310). -/
structure DepPair where
  /-- The branch's address. -/
  addr : Half
  /-- Where it goes. -/
  target : Half
  /-- It pushes its address + 2 (a delayed call). -/
  push : Bool
  /-- It pops its target (RET.D). -/
  pop : Bool
  deriving DecidableEq, Repr

/-- A posted window write: address, bytes, value, and whether secure code made it (14 R317). -/
structure WinWrite where
  /-- Address. -/
  addr : BitVec 16
  /-- Bytes, 1 or 2. -/
  bytes : Nat
  /-- Value. -/
  value : Half
  /-- Made in secure state. -/
  secure : Bool
  deriving DecidableEq, Repr

/-- The deputy (14). -/
structure Deputy where
  /-- D0 to D7 (14 R302). Reset X: zero (log 1). -/
  d : Vector Half 8
  /-- SP (14 R302). Reset 0x8000. -/
  sp : Half
  /-- PC (14 R302). Reset 0x8000. -/
  pc : Half
  /-- BANK (14 R302). Reset 0. -/
  bank : BitVec 8
  /-- N (14 R302). Reset X: zero (log 1). -/
  n : Bool
  /-- Z (14 R302). Reset X: zero (log 1). -/
  z : Bool
  /-- C (14 R302). Reset X: zero (log 1). -/
  c : Bool
  /-- V (14 R302). Reset X: zero (log 1). -/
  v : Bool
  /-- IE (14 R302). Reset 0. -/
  ie : Bool
  /-- ROM has stopped: two blocks of program SRAM fail (14 R318). Reset 0. -/
  halted : Bool
  /-- WAIT has stopped issue (14 Table 14.5). Reset 0. -/
  waiting : Bool
  /-- The instruction executed last was a RETI: one instruction executes before an asynchronous vector (14 R312). Reset 0. -/
  retiShadow : Bool
  /-- The delayed branch whose slot comes next (14 R310). Reset: none. -/
  pair : Option DepPair
  /-- Program SRAM: word address to word, the spare block from 0x4000, an unlisted word reading the fill word 0x3EFF (14 R303, R304, R306). Reset: contents not given, the fill word (log 1). -/
  prog : List (Nat × BitVec 14)
  /-- Program SRAM words in parity error (14 R304). Reset: none. -/
  progBad : List Nat
  /-- Boot ROM: word address to word, an unlisted word reading 0 (14 Table 14.2). Constant; contents not given (log 38). -/
  rom : List (Nat × BitVec 14)
  /-- Data SRAM, 0x0000 to 0x7FFF, canonical, unlisted 0 (14 R305). Reset: contents not given, zero (log 1). -/
  data : List Host.Cell
  /-- Data SRAM bytes in parity error (14 R305). Reset: none. -/
  dataBad : List Nat
  /-- IPEND, latched vectors 4 to 14 (14 R312). Reset 0. -/
  ipend : BitVec 16
  /-- IENA (14 Table 14.9). Reset 0. -/
  iena : BitVec 16
  /-- SPLO (14 Table 14.9). Reset 0x7F00. -/
  splo : Half
  /-- SPHI (14 Table 14.9). Reset 0x7FFF. -/
  sphi : Half
  /-- SHPC (14 Table 14.9). Reset 0. -/
  shpc : Half
  /-- SHFL (14 Table 14.9). Reset 0. -/
  shfl : Half
  /-- SHSTAT.VALID (14 Table 14.9). Reset 0. -/
  shValid : Bool
  /-- SHSTAT.POP (14 Table 14.9). Reset 0. -/
  shPop : Bool
  /-- WINSEL.PAGE (14 Table 14.9). Reset 0. -/
  winsel : BitVec 8
  /-- WINSTAT.OFF (14 Table 14.9). Reset 0. -/
  winOff : Bool
  /-- WINSTAT.LDFLT (14 Table 14.9). Reset 0. -/
  winLdflt : Bool
  /-- The snapshot of a CSR read through the core window: number and value (14 R316). Reset: none. -/
  winSnap : Option (BitVec 12 × Word)
  /-- The staging register of the core window: CSR number and bytes 0 to 5 (14 R316). Reset: none. -/
  winStage : Option (BitVec 12 × BitVec 48)
  /-- Window writes posted and not performed, oldest first, at most 4 (14 R317). Reset: none. -/
  wqueue : List WinWrite
  /-- WDCTL.EN (14 Table 14.9). Reset 1. -/
  wdEn : Bool
  /-- WDCTL.PERIOD (14 Table 14.9). Reset 0x40. -/
  wdPeriod : BitVec 8
  /-- The watchdog is in its second stage (14 R323). Reset 0. -/
  wdSecond : Bool
  /-- WDREC.VALID (14 Table 14.9). Reset 0. -/
  recValid : Bool
  /-- WDREC.SEQ (14 Table 14.9). Reset 0. -/
  recSeq : BitVec 7
  /-- WDREC.CAUSE (14 Table 14.9). Reset 0. -/
  recCause : BitVec 4
  /-- WDREC's PC (14 Table 14.9). Reset 0. -/
  recPc : Half
  /-- WDREC's block (14 Table 14.9). Reset 0. -/
  recBlock : BitVec 4
  /-- DFADDR (14 Table 14.9). Reset 0. -/
  dfaddr : Half
  /-- DFINFO (14 Table 14.9). Reset 0. -/
  dfinfo : BitVec 6
  /-- TMRLD (14 Table 14.9). Reset 0. -/
  tmrld : Half
  /-- TMRCNT (14 Table 14.9). Reset 0. -/
  tmrcnt : Half
  /-- TMRCTL.EN (14 Table 14.9). Reset 0. -/
  tmrEn : Bool
  /-- PMADDR (14 Table 14.9). Reset 0. -/
  pmaddr : Half
  /-- PMCTL.LOCK (14 Table 14.9). Reset 0. -/
  lock : Bool
  /-- PMCTL.SPEN (14 Table 14.9). Reset 0. -/
  spen : Bool
  /-- PMCTL.SPBLK (14 Table 14.9). Reset 0. -/
  spblk : BitVec 4
  /-- EXTCTL.EN (14 Table 14.9). Reset 0. -/
  extEn : Bool
  /-- EXTGATE (14 Table 14.9). Reset 0. -/
  extgate : Half
  /-- DPBOOT.STATUS (14 Table 14.9). Reset 0. -/
  bootStatus : BitVec 4
  /-- DPBOOT.RECOV (14 Table 14.9). Reset 0. -/
  recov : Bool
  /-- DPBOOT.XOK (14 Table 14.9). Reset 0. -/
  xok : Bool
  /-- CORESTAT.ESC2 (14 Table 14.9). Reset 0. -/
  esc2 : Bool
  /-- CORESTAT.DUMPREQ (14 Table 14.9). Reset 0. -/
  dumpreq : Bool
  /-- CORESTAT.PWRCHG (14 Table 14.9). Reset 0. -/
  pwrchg : Bool
  /-- FWVER of the accepted image (15 Table 15.3). Reset 0. -/
  fwver : BitVec 32
  deriving DecidableEq, Repr

/-- The copy engine (14 Table 14.9). -/
structure CopyEngine where
  /-- A COPY that waits for scratch steps to be zero-filled (03 R82): SRCL, DSTL, SEC, source, destination, length. Reset: none. -/
  waiting : Option (Bool × Bool × Bool × Nat × Nat × Nat)
  /-- CESRC. Reset 0. -/
  src : BitVec 47
  /-- CEDST. Reset 0. -/
  dst : BitVec 47
  /-- CELEN. Reset 0. -/
  len : BitVec 32
  /-- CESTAT.BUSY. Reset 0. -/
  busy : Bool
  /-- The operation in progress interrupts at completion. Reset 0. -/
  irq : Bool
  /-- STATUS that the operation in progress will report. Reset 0. -/
  next : BitVec 4
  /-- CESTAT.VALID. Reset 0. -/
  valid : Bool
  /-- CESTAT.SEQ. Reset 0. -/
  seq : BitVec 7
  /-- CESTAT.STATUS. Reset 0. -/
  status : BitVec 4
  deriving DecidableEq, Repr

/-- The deputy's doorbells, secure fields of translation and calibration windows (14 Table 14.9). -/
structure Window where
  /-- S2INVPG.IAPG. Reset 0. -/
  s2page : BitVec 33
  /-- S2INVPG.ALL. Reset 0. -/
  s2all : Bool
  /-- S2INVST.BUSY. Reset 0. -/
  s2busy : Bool
  /-- DBOUT. Reset 0. -/
  dbout : BitVec 128
  /-- DBDEST. Reset 0. -/
  dbdest : BitVec 24
  /-- DBSTAT.BUSY. Reset 0. -/
  dbbusy : Bool
  /-- DBSTAT.UNRT. Reset 0. -/
  dbunrt : Bool
  /-- The inbound doorbells, oldest first, at most 8. Reset: none. -/
  dbin : List (BitVec 128)
  /-- D2DCNTh: early fails, late fails, shadow samples of each channel. Reset 0. -/
  d2dcnt : Vector (BitVec 16 × BitVec 16 × BitVec 16) 32
  /-- Reads of each tile-store channel since the last that was shadowed: every 64th is (11 R257). Reset 0: DESIGN CHOICE (log 1). -/
  d2dreads : Vector (BitVec 6) 32
  deriving DecidableEq, Repr

/-- A dictionary request that waits or is open (15 R333, R349). -/
structure DictReq where
  /-- PATH: 0 field network, 1 fabric, 2 CSR. -/
  path : BitVec 2
  /-- The requester is secure (15 R330). -/
  secure : Bool
  /-- SERVICE: 1 READ, 2 WRITE, 3 BLOCK READ. -/
  service : BitVec 4
  /-- TID. -/
  tid : BitVec 7
  /-- PRIO of a field-network frame. -/
  prio : BitVec 3
  /-- Source node. -/
  source : BitVec 24
  /-- A broadcast of the field network. -/
  broadcast : Bool
  /-- The frame of Table 15.13, header and data, byte 0 lowest. -/
  frame : BitVec 512
  /-- Bytes of data that carried it: the FD data length of a field-network frame (15 R339). -/
  bytes : Nat
  /-- Requests served while it waited. -/
  passed : Nat
  deriving DecidableEq, Repr

/-- Pieces gathered for one entry (15 R340). -/
structure Staging where
  /-- Index and subindex. -/
  key : Nat
  /-- The bytes staged. -/
  bytes : List Byte
  deriving DecidableEq, Repr

/-- The dictionary engine, its entries and its window (15). -/
structure Dict where
  /-- Entries that differ from their default: index·256 + subindex to value, byte 0 first (15 R331, R335). Reset: none. -/
  vals : List (Nat × List Byte)
  /-- Requests that wait, oldest first (15 R333). Reset: none. -/
  queue : List DictReq
  /-- The request that firmware is to answer (15 R332). Reset: none. -/
  current : Option DictReq
  /-- The staging buffers of the field network, the fabric and the CSR path (15 R340). Reset: none. -/
  staging : Vector (Option Staging) 3
  /-- DERSP (15 Table 15.21). Reset 0. -/
  rsp : BitVec 512
  /-- DETMO (15 Table 15.21). Reset 0x0200. -/
  tmo : BitVec 16
  /-- DENTF (15 Table 15.21). Reset 0. -/
  ntf : BitVec 512
  /-- DENSTAT.BUSY (15 Table 15.21). Reset 0. -/
  ntfBusy : Bool
  /-- DENSTAT's TID of the last NOTIFY sent (15 Table 15.21). Reset 0. -/
  ntfTid : BitVec 7
  /-- DESTAT.BUSY (15 Table 15.21). Reset 0. -/
  busy : Bool
  /-- The buffers of a path's request are in parity error: it is answered POISON (16 Table 16.2). Reset 0. -/
  bad : Bool
  /-- CAPADDR (15 Table 15.18). Reset 0. -/
  capaddr : BitVec 9
  /-- DICT_IDX (15 Table 15.19). Reset 0. -/
  idx : Word
  /-- DICT_WDATA (15 Table 15.18). Reset 0. -/
  wdata : Word
  /-- DICT_STAT.BUSY (15 Table 15.18). Reset 0. -/
  csrBusy : Bool
  /-- DICT_STAT.IGN (15 Table 15.18). Reset 0. -/
  ign : BitVec 16
  /-- DICT_RES.VALID (15 Table 15.20). Reset 0. -/
  resValid : Bool
  /-- DICT_RES.SEQ (15 Table 15.20). Reset 0. -/
  resSeq : BitVec 16
  /-- DICT_RES.STATUS (15 Table 15.20). Reset 0. -/
  resStatus : BitVec 4
  /-- DICT_RES.TYPE (15 Table 15.20). Reset 0. -/
  resType : BitVec 4
  /-- DICT_RES.LEN (15 Table 15.20). Reset 0. -/
  resLen : BitVec 4
  /-- DICT_RES.LAST (15 Table 15.20). Reset 0. -/
  resLast : Bool
  /-- CANRATE as the capability list was built with it at boot (15 R345, Table 15.16). Reset 0. -/
  capRate : BitVec 2
  /-- POOLn as firmware derived them when the physical map was last written, the pools in region order (15 Table 15.8). Reset: none. -/
  pools : List (BitVec 32)
  /-- DICT_DATA (15 Table 15.18). Reset 0: none given, zero (log 1). -/
  resData : Word
  /-- The last 16 fatal records, newest first, byte 0 lowest (15 Table 15.9, 16 R367). Reset: none (log 39). -/
  fatals : List (BitVec 512)
  /-- SHORTDUMP, byte 0 first (15 Table 15.9). Reset: empty. -/
  short : List Byte
  deriving DecidableEq, Repr

/-- A CAN FD frame of the field network (15 R336, R338, R339). -/
structure CanOut where
  /-- The 29-bit identifier. -/
  ident : BitVec 29
  /-- FD data length in bytes (15 R339). -/
  len : Nat
  /-- Header and data, byte 0 lowest. -/
  frame : BitVec 512
  deriving DecidableEq, Repr

/-- The CAN controller (15 R336 to R338, Table 15.21). -/
structure Can where
  /-- CANCFG.EN. Reset 0. -/
  en : Bool
  /-- CANCFG.DRATE. Reset 0. -/
  drate : BitVec 2
  /-- CANSTAT.STATE: 0 error active, 1 error passive, 2 bus off. Reset 0. -/
  state : BitVec 2
  /-- CANERR, transmit error count. Reset 0. -/
  txErr : BitVec 9
  /-- CANERR, receive error count. Reset 0. -/
  rxErr : BitVec 9
  /-- CANCNT.RX. Reset 0. -/
  rx : BitVec 32
  /-- CANCNT.DROP. Reset 0. -/
  drop : BitVec 16
  /-- CANCNT.IGN. Reset 0. -/
  ign : BitVec 16
  /-- Frames sent on CAN_TX, oldest first. Reset: none. -/
  sent : List CanOut
  deriving DecidableEq, Repr

/-- Power of one switchable domain (17 R388, R389, PWRSTAT). -/
inductive PowerSt where
  /-- Off. -/
  | off
  /-- On. -/
  | on
  /-- PD_STORE in retention. -/
  | retained
  /-- The request is raised and PWR_ACK has not followed. -/
  | rising
  /-- The request is lowered and PWR_ACK has not followed. -/
  | falling
  /-- PWR_RET_STORE has changed and PWR_RETACK_STORE has not followed. -/
  | retaining
  deriving DecidableEq, Repr

/-- The straps and the fuse port, sampled at PD_AON reset (17 R376). -/
structure Straps where
  /-- NODE_ID. Reset: the strap; 0 in State.reset (log 40). -/
  nodeId : BitVec 24
  /-- MGMT_NODE. Reset: the strap; 0x21 in State.reset (log 40). -/
  mgmtNode : BitVec 7
  /-- BOOT_BASE, PA[46:14]. Reset: the strap; 0 in State.reset (log 40). -/
  bootBase : BitVec 33
  /-- SECEN. Reset: the strap; 0 in State.reset (log 40). -/
  secen : Bool
  /-- FUSE_HASH. Static: 0 in State.reset (log 40). -/
  fuseHash : BitVec 384
  /-- FUSE_RDY. Reset 0 (log 40). -/
  fuseRdy : Bool
  /-- The declaration on WZCFG's pins, sampled at CORE reset release: bits [14:0] (02 R57). Static: 1 in State.reset (log 40). -/
  wzDecl : BitVec 15
  deriving DecidableEq, Repr

/-- Power, reset and the telemetry pins (17). -/
structure Power where
  /-- PD_CORE: PWRSTAT [1:0] (17 R389). Reset off. -/
  core : PowerSt
  /-- PD_TILE: PWRSTAT [3:2] (17 R389). Reset off. -/
  tile : PowerSt
  /-- PD_STORE: PWRSTAT [5:4] (17 R389). Reset off. -/
  store : PowerSt
  /-- PWRCTL's targets: CORE, TILE, STORE, STORE retention from bit 0 (17 Table 17.16). Reset 0. -/
  targets : BitVec 4
  /-- PWRSTAT.ERR (17 Table 17.16). Reset 0. -/
  err : Bool
  /-- CORE reset is held (17 R391). Reset 1. -/
  coreReset : Bool
  /-- No CORE reset release has followed PD_AON reset; a power-up has followed the last release (17 R391). Reset: first. -/
  firstRelease : Bool
  /-- PD_CORE has been powered up since the last release (17 R391). Reset 0. -/
  poweredUp : Bool
  /-- PD_STORE comes from retention in the rise in progress (17 Table 17.11). Reset 0. -/
  fromRetention : Bool
  /-- A wake source came while PWR_ACK_CORE was still to fall (17 R390). Reset 0. -/
  wakeAgain : Bool
  /-- The wake latch: EVPEND bits held for the release of CORE reset (17 Table 17.11, R389). Reset 0. -/
  wakeLatch : Word
  /-- The wake latch holds EVPEND: from the PD_CORE off sequence to the release of CORE reset (17 Table 17.11). Reset 1. -/
  latching : Bool
  /-- IRQWAKE (17 Table 17.16). Reset 0. -/
  irqwake : BitVec 32
  /-- The IRQ lines' levels (17 Table 17.1). Reset 0: an input (log 40). -/
  irq : BitVec 32
  /-- TEMPNOW (17 Table 17.16). Reset 0. -/
  temp : BitVec 12
  /-- VMONNOW (17 Table 17.16). Reset 0. -/
  vmon : BitVec 10
  /-- VIDSTAT.VID_OK (17 Table 17.16). Reset 0. -/
  vidOk : Bool
  /-- Firmware's restart tail is under way: its steps 10 and 11 are due before the release (17 R393). Reset 0. -/
  tail : Bool
  /-- The core has been retired: CORE reset stays asserted (16 Table 16.6). Reset 0. -/
  coreRetired : Bool
  deriving DecidableEq, Repr

/-- The debug ring and the test access port (17 R394 to R397). -/
structure Debug where
  /-- DRADDR (17 Table 17.16). Reset 0. -/
  addr : BitVec 32
  /-- DRSTAT.BUSY (17 Table 17.16). Reset 0: an operation is one step here. -/
  busy : Bool
  /-- DRSTAT.ERR (17 Table 17.16). Reset 0. -/
  err : Bool
  /-- DRDATA (17 Table 17.16). Reset 0. -/
  data : Word
  /-- The TAP's instruction register (17 R394). Reset BYPASS, 0xFF. -/
  ir : BitVec 8
  /-- ERR of the TAP's ring-access instrument (17 R395). Reset 0. -/
  tapErr : Bool
  /-- The ring address of the TAP's ring-access instrument (17 R395). Reset 0: none given, zero (log 1). -/
  tapAddr : BitVec 32
  /-- DATA of the TAP's ring-access instrument (17 R395). Reset 0: none given, zero (log 1). -/
  tapData : Word
  deriving DecidableEq, Repr
/-- The whole machine. -/
structure State where
  /-- Commands that wait, first in, first out (the model's queue). Reset: empty. -/
  pending : List Instr
  /-- The model's own counter of free values drawn (log 10). Reset 0: DESIGN CHOICE (log 10). -/
  free : Nat
  /-- Build options (00 R4). -/
  build : Build
  /-- The scalar core (02, 05). -/
  core : Core
  /-- The winze port (02). -/
  wz : Winze
  /-- The banksman (05). -/
  bm : Banksman
  /-- Translation (04). -/
  xl : Xlat
  /-- Memory (03). -/
  mem : Mem
  /-- Tile-store partition (03). -/
  ts : TileStore
  /-- Stream prefetcher (03). -/
  pf : Prefetch
  /-- The tile extension (06, 09). -/
  tile : Tile
  /-- Streams' shared registers and the journal (10). -/
  jnl : Journal
  /-- The assay and calibration (11). -/
  assay : Assay
  /-- Parity, spares, tally, dump (16). -/
  res : Resil
  /-- The deputy (14). -/
  dep : Deputy
  /-- The copy engine (14). -/
  ce : CopyEngine
  /-- Further window registers of the deputy (14). -/
  win : Window
  /-- Haulage (12). -/
  hl : Haulage
  /-- Sync objects (13). -/
  sy : Sync
  /-- Mailboxes (13). -/
  mb : Mailboxes
  /-- The tram engine (13). -/
  tr : Tram
  /-- The fabric and memory ports (17). -/
  fab : Fabric
  /-- The dictionary (15). -/
  dict : Dict
  /-- The CAN controller (15). -/
  can : Can
  /-- Power, resets and telemetry (17). -/
  pwr : Power
  /-- Straps and fuses (17). -/
  straps : Straps
  /-- Debug access (17). -/
  dbg : Debug
  deriving DecidableEq, Repr

/-- Why a run stops with a fault. -/
inductive Fault where
  /-- Raised by no command: every fault that the spec gives the block (an exception, a status, an error flag) is an effect
  on State. Safe: nothing stops through it. -/
  | none
  deriving DecidableEq, Repr

/-- Why a command has no meaning. -/
inductive Refusal where
  /-- A command without a meaning in this model: raised by no arm of exec. Safe. -/
  | notModelled (mnemonic : String)
  /-- A command whose operands the table does not admit (Sys2Proof.Instr.wf): raised by its meaning. Safe. -/
  | illFormed
  deriving DecidableEq, Repr


/-! ### Reset -/

/-- A register bank after CORE reset (05 Tables 5.11 and 5.12). -/
def Bank.reset : Bank :=
  { g := Vector.replicate 32 0, sp := 0, fl := { n := false, z := false, c := false, v := false }, pc := 0, lc := 0,
    lb := 0, le := 0, epc := 0, ecause := 0, eaddr := 0, einfo := 0, esave := 0, ppriv := true, priv := true, vswe := false,
    excm := false, ml := 0, evnum := 0, lzres := false, lzfill := false, lzsp := 0, subpri := 0 }

/-- Level 0's bank after CORE reset: EXCM 1, ML 6, at the vector of cause 0 (05 Table 5.12, R130). -/
def Bank.resetZero : Bank := { Bank.reset with pc := 0xFFFFFFFFFFFFF800#64, excm := true, ml := 6 }

/-- The scalar core in reset (17 R391). -/
def Core.reset : Core :=
  { mode := .held, sleeping := false, taskRunning := false, stepGrant := false, heldFrozen := false
    active := (Vector.replicate 8 false).set 0 true
    banks := (Vector.replicate 8 Bank.reset).set 0 Bank.resetZero
    resident := Vector.replicate 8 true, lru := [0], fprm := 0, fpstat := 0, cycle := 0, instret := 0
    deferred := Vector.replicate 8
      { wzPend := false, wzKind := false, wzEaddr := 0, wzEinfo := 0, devOutst := false, devPend := false, retBad := none }
    devLoads := [], devData := [], dbgStep := 0, dbgBp := Vector.replicate 4 0, eretShadow := false
    entryWaits := false, waited := false }

/-- The winze port in reset. -/
def Winze.reset : Winze :=
  { maxlat := 0, idemp := false, specsafe := false, parerrs := 0, timeouts := 0, req := none, early := [], ignored := [], nextTag := 0
    kills := [] }

/-- The banksman in reset: the routes of EV32 and EV63 are 7, BOUND names every level of a build with 8 banks. -/
def Banksman.reset : Banksman :=
  { tsbp := Vector.replicate 8 0, quant := 0, left := 0, unlimited := false, ready := [], rlOvf := false
    evrt := ((Vector.replicate 64 0).set 32 7).set 63 7
    evpend := 0, bound := 0x3F, spill := false, owner := none, displaced := [] }

/-- Translation in reset. -/
def Xlat.reset : Xlat :=
  { asid := 0, s1root := 0, levels := 0, s1en := false, s2root := 0, holdlim := 0x400, s2en := false, cntHeld := 0
    cntDeclined := 0, cntTimeouts := 0
    pmat := Vector.replicate 32
      { valid := false, base := 0, log2size := 14, ilfirst := 0, ilgran := 0, ilways := 0, secure := false, tier := 0
        device := false }
    held := Vector.replicate 4
      { valid := false, va := 0, req := 0, kind := 0, level := 0, s1walk := false, fetch := false, write := false, ia := 0
        waiters := [] }
    itlb := [], dtlb := [], tlb := [], tec := [] }

/-- Memory with nothing listed. -/
def Mem.reset : Mem :=
  { cells := [], poison := [], copyPoison := [], cache := [], tsc := [], tsSets := 12 * 8192, l2ways := 16, mrq := none, mw := none, onCore := [], onCorePoison := [], sb := [], devOut := [] }

/-- The tile store in reset: every step is cache. -/
def TileStore.reset : TileStore :=
  { cache16 := 12, unbcnt := 0, unb := false, busy := false, unValid := false, unSeq := 0, unAddr := 0, kept := 0 }

/-- The prefetcher in reset. -/
def Prefetch.reset : Prefetch :=
  { l1 := false, trackers := 32, dist := 8, en := true, dropped := 0, issued := 0, streams := Vector.replicate 32 none, recent := []
    fetched := none }

/-- The tile registers with every register zero and everything enabled (06 R145). -/
def TileRegs.reset : TileRegs :=
  { t := Vector.replicate 8 (Vector.replicate 128 0), k := Vector.replicate 4 (Vector.replicate 128 0)
    v := Vector.replicate 8 0, ss := Vector.replicate 64 0, q := Vector.replicate 16 0, tflags := 0, tconf := 0x3FFFFF
    ktype := 0, kdepth := Vector.replicate 4 0, tpois := Vector.replicate 8 0, kpois := Vector.replicate 4 0, vpois := 0
    sspois := 0, qpois := 0 }

/-- The tile extension in reset. -/
def Tile.reset : Tile :=
  { regs := TileRegs.reset, uen := false, en := false, queue := []
    seam := Vector.replicate 4 { image := 0, valid := false, poison := false, src := 0 }
    evtValid := false, evtSeq := 0, evtIndex := 0, evtClass := 0, evtReg := 0, evtStorage := false, evtMissed := 0
    evtAddr := 0, stopcnt := 0, seamcnt := 0 }

/-- A fill machine with nothing open and every unit healthy. -/
def FillMachine.reset : FillMachine :=
  { openFill := none, queue := [], fenced := [], dead := [], inUse := [], deadSpares := [], retired := []
    res := { valid := false, seq := 0, outcome := 0, unit := 0, spare := 0, restarts := 0, first := 0, poisoned := 0 } }

/-- Parity, spares and tally in reset. -/
def Resil.reset : Resil :=
  { tally := (Vector.replicate 96 0).set 1 1, hist := [], parLast := Vector.replicate 14 none, eventLog := [], eventSeq := 0
    capValid := false, capSeq := 0, capClass := 0, capKind := 0, capUnit := 0, capMissed := 0, capAddr := 0, talstat := 0
    latdev := false, thr := (Vector.replicate 14 16).set 8 1, thrPending := Vector.replicate 14 0, talsel := 0, fillsel := 0
    fills := Vector.replicate 5 FillMachine.reset, stopeMode := 0, bankPoison := Vector.replicate 8 false
    dumpValid := false, dumpSeq := 0, dumpStatus := 0, dumpSlot := 0, fatalDue := 0, dumping := none, cycBase := 0, persists := 0, unitSeen := [] }

/-- The journal in reset. -/
def Journal.reset : Journal :=
  { stepcnt := 0, mbatch := 0, dcur := 0, qword := 0, qstream := 0, log2len := 6, ssgrp := 0, en := false, base := 0, seq := 0
    head := 0, objEn := false, obj := 0, done := 0, errcnt := 0, err := false, jch := false, errValid := false, errCseq := 0
    errReason := 0, errSeq := 0, pend := [] }

/-- The assay in reset. -/
def Assay.reset : Assay :=
  { qs := 0, albkt := 24, rate := 10, wide := false, en := false, samples := 0, mismatch := 0, wides := 0, skipped := 0
    wskip := 0, misValid := false, misSeq := 0, misSample := { ltag := 0, rb := 0, cb := 0 }, misSingle := false, misPcol := 0
    misNelem := 0, misMissed := 0, alValid := false, alSeq := 0, alSample := { ltag := 0, bucket := 0, err := 0 }
    selTag := 0, selBucket := 0, hist := [], side := [], pend := [], widePend := none, stepOpen := false, knob := false
    lastKnob := true, marginDue := false
    holdoff := 0, steps := 0, trim := 0, vid := 100, goodVid := 100, goodTrim := 0, window := 0, stepFail := none
    colCount := [], delay := Vector.replicate 32 0 }

/-- The deputy after its reset (14 R302, Table 14.9), its program SRAM and data SRAM as empty. -/
def Deputy.reset : Deputy :=
  { d := Vector.replicate 8 0, sp := 0x8000, pc := 0x8000, bank := 0, n := false, z := false, c := false, v := false
    ie := false, halted := false, waiting := false, retiShadow := false, pair := none, prog := [], progBad := [], rom := []
    data := [], dataBad := [], ipend := 0, iena := 0, splo := 0x7F00, sphi := 0x7FFF, shpc := 0, shfl := 0, shValid := false
    shPop := false, winsel := 0, winOff := false, winLdflt := false, winSnap := none, winStage := none, wqueue := []
    wdEn := true, wdPeriod := 0x40, wdSecond := false, recValid := false, recSeq := 0, recCause := 0, recPc := 0
    recBlock := 0, dfaddr := 0, dfinfo := 0, tmrld := 0, tmrcnt := 0, tmrEn := false, pmaddr := 0, lock := false
    spen := false, spblk := 0, extEn := false, extgate := 0, bootStatus := 0, recov := false, xok := false, esc2 := false
    dumpreq := false, pwrchg := false, fwver := 0 }

/-- The copy engine in reset. -/
def CopyEngine.reset : CopyEngine :=
  { waiting := none, src := 0, dst := 0, len := 0, busy := false, irq := false, next := 0, valid := false, seq := 0, status := 0 }

/-- Further window registers in reset. -/
def Window.reset : Window :=
  { s2page := 0, s2all := false, s2busy := false, dbout := 0, dbdest := 0, dbbusy := false, dbunrt := false, dbin := []
    d2dcnt := Vector.replicate 32 (0, 0, 0), d2dreads := Vector.replicate 32 0 }

/-- Haulage in reset. -/
def Haulage.reset : Haulage :=
  { heat := [], queue := [], drop := 0, htsel := 0, aging := false, aged := 4096, htwsel := 0, htwsnap := 0, hfillw := 8, migs := 0
    reqign := 0, aborts := 0, requests := [], asked := none, resValid := false, resSeq := 0, resOutcome := 0, resDone := 0
    noteValid := false, noteSeq := 0, notePage := 0, noteReason := 0, noteMissed := 0, lstack := 0, reflim := 8, thr := 192
    takes := 0, refusals := 0, migrations := [], nextMig := 0, hints := [], chosen := [], begun := 0, revoked := [], owed := [], free := [], members := [] }

/-- Sync objects in reset. -/
def Sync.reset : Sync :=
  { objs := [], parked := [], wakeq := [], drops := 0, wqovf := false, errValid := false, errSeq := 0, errReason := 0
    errSrc := 0, errObj := 0, selPk := false, selWord := 0, selObj := 0, takeEn := false, takeObj := 0, phase := .idle
    refused := 0, lastObj := none }

/-- Mailboxes in reset. -/
def Mailboxes.reset : Mailboxes :=
  { ch := Vector.replicate 16
      { inSlot := 0, inPois := false, outSlot := 0, inFull := false, outFull := false, credit := false, en := false
        pchan := 0, pnode := 0 }
    drops := 0, selWord := 0, selChan := 0 }

/-- The tram engine in reset. -/
def Tram.reset : Tram :=
  { ch := Vector.replicate 32
      { en := false, pa := false, ring := 0, log2len := 0, root := 0, tail := 0, head := 0, done := 0, halt := false, last := 0
        opens := [] }
    sel := 0, winEn := false, winBase := 0, winLog := 0, nextTag := 0, served := 31 }

/-- The ports in reset: no credit is held. -/
def Fabric.reset : Fabric :=
  { waiting := [], sent := [], credits := Vector.replicate 4 0, nacks := 0, parity := 0, bad := false, reserved := 0, rdErrs := 0
    wrErrs := 0, timeouts := 0, reissued := [] }

/-- The dictionary in reset. -/
def Dict.reset : Dict :=
  { vals := [], queue := [], current := none, staging := Vector.replicate 3 none, rsp := 0, tmo := 0x0200, ntf := 0
    ntfBusy := false, ntfTid := 0, busy := false, bad := false, capaddr := 0, idx := 0, wdata := 0, csrBusy := false, ign := 0
    resValid := false, resSeq := 0, resStatus := 0, resType := 0, resLen := 0, resLast := false, capRate := 0, pools := [], resData := 0
    fatals := [], short := [] }

/-- The CAN controller in reset. -/
def Can.reset : Can :=
  { en := false, drate := 0, state := 0, txErr := 0, rxErr := 0, rx := 0, drop := 0, ign := 0, sent := [] }

/-- Power after PD_AON reset: every switched domain off, CORE reset held (17 R388, R391). -/
def Power.reset : Power :=
  { core := .off, tile := .off, store := .off, targets := 0, err := false, coreReset := true, firstRelease := true
    poweredUp := false, fromRetention := false, wakeAgain := false, wakeLatch := 0, latching := true, irqwake := 0, irq := 0
    temp := 0, vmon := 0, vidOk := false, tail := false, coreRetired := false }

/-- The straps of State.reset (log 40). -/
def Straps.reset : Straps :=
  { nodeId := 0, mgmtNode := 0x21, bootBase := 0, secen := false, fuseHash := 0, fuseRdy := false, wzDecl := 1 }

/-- Debug access in reset: the TAP selects BYPASS (17 R394). -/
def Debug.reset : Debug :=
  { addr := 0, busy := false, err := false, data := 0, ir := 0xFF, tapErr := false, tapAddr := 0, tapData := 0 }

/-- The machine right after PD_AON reset: the default build, nothing powered but PD_AON, no command waiting. -/
def State.reset : State :=
  { pending := [], free := 0, build := { nbank := 8, flatTlb := false, twoDies := true, winze := true }
    core := Core.reset, wz := Winze.reset, bm := Banksman.reset, xl := Xlat.reset, mem := Mem.reset, ts := TileStore.reset
    pf := Prefetch.reset, tile := Tile.reset, jnl := Journal.reset, assay := Assay.reset, res := Resil.reset
    dep := Deputy.reset, ce := CopyEngine.reset, win := Window.reset, hl := Haulage.reset, sy := Sync.reset
    mb := Mailboxes.reset, tr := Tram.reset, fab := Fabric.reset, dict := Dict.reset, can := Can.reset, pwr := Power.reset
    straps := Straps.reset, dbg := Debug.reset }

end Sys2Proof.Machine
end

