-- ==== Sys2Proof/Machine/Flags.lean ====
section
/-! DEFINITION. The flag computations of the scalar core (02 R29 to R35, R37) and the conditions of Table 2.5. -/

namespace Sys2Proof.Machine

/-- FL as the four bits of Table 2.2. -/
def Flags.toBits (f : Flags) : BitVec 4 :=
  BitVec.ofNat 4 (8 * bit f.n + 4 * bit f.z + 2 * bit f.c + bit f.v)

/-- FL from the four bits of Table 2.2. -/
def Flags.ofBits (b : BitVec 4) : Flags :=
  { n := b.getLsbD 3, z := b.getLsbD 2, c := b.getLsbD 1, v := b.getLsbD 0 }

/-- The sum `a + b + cin` with the flags of R30's `addc`. -/
def addc (a b : Word) (cin : Bool) : Word × Flags :=
  let full := a.toNat + b.toNat + bit cin
  let r := wd full
  (r, { n := r.msb, z := r == 0, c := decide (2 ^ 64 ≤ full), v := a.msb == b.msb && r.msb != a.msb })

/-- The logic rule of R30: N and Z from the result, C and V clear. -/
def logicFlags (r : Word) : Flags := { n := r.msb, z := r == 0, c := false, v := false }

/-- The logic rule with C given: shifts, and CLZ, CTZ and POPC (Table 2.6). -/
def carryFlags (r : Word) (c : Bool) : Flags := { logicFlags r with c := c }

/-- The multiply and divide rule of R35: N and Z from the result, C clear, V given. -/
def mulDivFlags (r : Word) (v : Bool) : Flags := { logicFlags r with v := v }

/-- SHL by `s` below 64 with its flags (Table 2.6): C is the last bit shifted out. -/
def shiftLeft (a : Word) (s : Nat) : Word × Flags :=
  let r := a <<< s
  (r, carryFlags r (s != 0 && a.getLsbD (64 - s)))

/-- SHR by `s` below 64 with its flags (Table 2.6). -/
def shiftRight (a : Word) (s : Nat) : Word × Flags :=
  let r := a >>> s
  (r, carryFlags r (s != 0 && a.getLsbD (s - 1)))

/-- SAR by `s` below 64 with its flags (Table 2.6). -/
def shiftArith (a : Word) (s : Nat) : Word × Flags :=
  let r := a.sshiftRight s
  (r, carryFlags r (s != 0 && a.getLsbD (s - 1)))

/-- ROR by `s` below 64 with its flags (Table 2.6): C is the top bit of the result where `s` is not 0. -/
def rotateRight (a : Word) (s : Nat) : Word × Flags :=
  let r := a.rotateRight s
  (r, carryFlags r (s != 0 && r.msb))

/-- The condition of Table 2.5 (R31). -/
def condHolds (c : BitVec 4) (f : Flags) : Bool :=
  match c.toNat with
  | 0x0 => true
  | 0x1 => false
  | 0x2 => f.z
  | 0x3 => !f.z
  | 0x4 => f.c
  | 0x5 => !f.c
  | 0x6 => f.n
  | 0x7 => !f.n
  | 0x8 => f.v
  | 0x9 => !f.v
  | 0xA => f.c && !f.z
  | 0xB => !f.c || f.z
  | 0xC => f.n == f.v
  | 0xD => f.n != f.v
  | 0xE => !f.z && f.n == f.v
  | _ => f.z || f.n != f.v

/-- The flags that FCMP sets from the relation of R37. -/
def compareFlags : Option Ordering → Flags
  | some .lt => { n := true, z := false, c := false, v := false }
  | some .eq => { n := false, z := true, c := true, v := false }
  | some .gt => { n := false, z := false, c := true, v := false }
  | none => { n := false, z := false, c := true, v := true }

end Sys2Proof.Machine
end

