-- ==== Sys2Proof/Machine/Sparse.lean ====
section
/-! DEFINITION. Sparse data by key: a list of (key, value) pairs with rising keys in which no entry equals the value an
unlisted key reads as; and a set of keys as a rising list. Memory, SRAMs and record arrays are kept in this form. -/

namespace Sys2Proof.Machine

/-- The value at key `k`, `d` where none is listed. -/
def smGet {α : Type} (d : α) (k : Nat) : List (Nat × α) → α
  | [] => d
  | (k', v) :: t => if k = k' then v else smGet d k t

/-- Write `v` at key `k`, keeping the canonical form. -/
def smSet {α : Type} [DecidableEq α] (d : α) (k : Nat) (v : α) : List (Nat × α) → List (Nat × α)
  | [] => if v = d then [] else [(k, v)]
  | (k', v') :: t =>
    if k < k' then (if v = d then (k', v') :: t else (k, v) :: (k', v') :: t)
    else if k = k' then (if v = d then t else (k, v) :: t)
    else (k', v') :: smSet d k v t

/-- The canonical form: keys strictly rising from at least `lo`, no entry equal to `d`. -/
def smWf {α : Type} [DecidableEq α] (d : α) (lo : Nat) : List (Nat × α) → Bool
  | [] => true
  | (k, v) :: t => decide (lo ≤ k) && decide (v ≠ d) && smWf d (k + 1) t

/-- Membership in a rising list. -/
def nsMem (k : Nat) (l : List Nat) : Bool := l.contains k

/-- Insertion into a rising list. -/
def nsInsert (k : Nat) : List Nat → List Nat
  | [] => [k]
  | k' :: t => if k < k' then k :: k' :: t else if k = k' then k' :: t else k' :: nsInsert k t

/-- Removal from a list. -/
def nsErase (k : Nat) (l : List Nat) : List Nat := l.filter (fun x => x != k)

/-- The keys of a set rise strictly from at least `lo`. -/
def nsWf (lo : Nat) : List Nat → Bool
  | [] => true
  | k :: t => decide (lo ≤ k) && nsWf (k + 1) t

end Sys2Proof.Machine
end

