-- ==== Sys2Proof/Machine/Ops.lean ====
section
/-! DEFINITION. The named operations over registers, levels, memory, events and exceptions that every meaning uses.
Taking an exception (05 R130 to R132) stands here, once. -/

namespace Sys2Proof.Machine

/-! ### Draws of free values -/

/-- Advance the counter of free values (log 10). -/
def State.drawn (s : State) : State := { s with free := s.free + 1 }

/-! ### Levels and banks (05 R109, R111) -/

/-- A level number from a three-bit field. -/
def levelOf (b : BitVec 3) : Fin 8 := ⟨b.toNat, b.isLt⟩

/-- The current level, LVL: the highest active level, level 0 being always active (R109). -/
def State.lvl (s : State) : Fin 8 :=
  let a := s.core.active
  if a[7] then 7 else if a[6] then 6 else if a[5] then 5 else if a[4] then 4
  else if a[3] then 3 else if a[2] then 2 else if a[1] then 1 else 0

/-- Level `l`'s bank. -/
def State.bankOf (s : State) (l : Fin 8) : Bank := s.core.banks[l]

/-- Replace level `l`'s bank. -/
def State.setBankOf (s : State) (l : Fin 8) (b : Bank) : State :=
  { s with core := { s.core with banks := s.core.banks.set l b } }

/-- The current level's bank. -/
def State.bank (s : State) : Bank := s.bankOf s.lvl

/-- Replace the current level's bank. -/
def State.setBank (s : State) (b : Bank) : State := s.setBankOf s.lvl b

/-- The place of a register in its bank. -/
def regFin (r : RegIx) : Fin 32 := ⟨r.toNat, r.isLt⟩

/-- Gr of a bank; G0 reads as zero (02 R23). -/
def Bank.readG (b : Bank) (r : RegIx) : Word := if r = 0 then 0 else b.g[regFin r]

/-- Write Gr of a bank; a write to G0 is discarded (02 R23). -/
def Bank.writeG (b : Bank) (r : RegIx) (v : Word) : Bank :=
  if r = 0 then b else { b with g := b.g.set (regFin r) v }

/-- Gr of the current level (02 R23). -/
def State.readG (s : State) (r : RegIx) : Word := s.bank.readG r

/-- Write Gr of the current level (02 R23). -/
def State.writeG (s : State) (r : RegIx) (v : Word) : State := s.setBank (s.bank.writeG r v)

/-- Write SP of the current level. -/
def State.setSp (s : State) (v : Word) : State := s.setBank { s.bank with sp := v }

/-- Write FL of the current level. -/
def State.setFl (s : State) (f : Flags) : State := s.setBank { s.bank with fl := f }

/-- Write PC of the current level. -/
def State.setPc (s : State) (v : Word) : State := s.setBank { s.bank with pc := v }

/-- The current level runs at Supervisor privilege (05 R110). -/
def State.super (s : State) : Bool := s.bank.priv

/-- Make level `l` active or inactive. -/
def State.setActive (s : State) (l : Fin 8) (a : Bool) : State :=
  { s with core := { s.core with active := s.core.active.set l a } }

/-! ### Events, deputy vectors, tally and event log -/

/-- Set EVPEND bit `n` (05 R121), or the wake latch's bit from the PD_CORE off sequence to the release of CORE reset
(17 Table 17.11). -/
def State.setEvent (s : State) (n : Nat) : State :=
  if s.pwr.latching then { s with pwr := { s.pwr with wakeLatch := s.pwr.wakeLatch ||| (1#64 <<< n) } }
  else { s with bm := { s.bm with evpend := s.bm.evpend ||| (1#64 <<< n) } }

/-- A wake source sets the PD_CORE target to on: PWR_REQ_CORE rises where the domain is off, and after PWR_ACK_CORE has
fallen where it is falling (17 R389, R390). -/
def State.wakeCore (s : State) : State :=
  let p := { s.pwr with targets := s.pwr.targets ||| 1 }
  { s with pwr := match p.core with
      | .off => { p with core := .rising }
      | .falling => { p with wakeAgain := true }
      | _ => p }

/-- Clear EVPEND bit `n`. -/
def State.clearEvent (s : State) (n : Nat) : State :=
  { s with bm := { s.bm with evpend := s.bm.evpend &&& ~~~(1#64 <<< n) } }

/-- Latch deputy vector `n` in IPEND (14 R312). -/
def State.raiseVector (s : State) (n : Nat) : State :=
  { s with dep := { s.dep with ipend := s.dep.ipend ||| (1#16 <<< n) } }

/-- Advance a tally counter by `k`; the counters never wrap (16 R363). -/
def State.tallyAdd (s : State) (sub k : Nat) : State :=
  { s with res := { s.res with
      tally := s.res.tally.setIfInBounds sub (wd (Nat.min (2 ^ 64 - 1) ((s.res.tally[sub]?.getD 0).toNat + k))) } }

/-- Advance a tally counter by one. -/
def State.tallyInc (s : State) (sub : Nat) : State := s.tallyAdd sub 1

/-- The histogram bucket of a value (16 R364). -/
def bucketOf (v : Nat) : Nat := if v = 0 then 0 else Nat.min 31 (Nat.log2 v + 1)

/-- Enter a value into tally histogram `sub` (16 R364); a bucket saturates. -/
def State.histAdd (s : State) (sub v : Nat) : State :=
  let k := 32 * sub + bucketOf v
  let c := smGet 0#64 k s.res.hist
  { s with res := { s.res with hist := smSet 0#64 k (if c = BitVec.allOnes 64 then c else c + 1) s.res.hist } }

/-- An entry's latency enters ENTRYLAT. One that meets 05 R125's conditions, `exact`, with another latency than 36 CORE cycles sets off the
self-check: LATDEV, TALSTAT, EV45 and the deputy's vector 11 (16 R364). -/
def State.entryLatency (s : State) (exact : Bool) (n : Nat) : State :=
  let s := s.histAdd 1 n
  if exact && n != 36 then
    let t := (s.tallyInc 0x41).setEvent 45
    ({ t with res := { t.res with latdev := true } } : State).raiseVector 11
  else s

/-- Count an entry to a level: ENTRIES, and its latency, 36 CORE cycles and what the further terms of 05 Table 5.5 that the entry has
add, an amount that depends on time (05 R126, 16 R364). -/
def State.countEntry (s : State) (further : Bool) : State :=
  let s := s.tallyInc 0x40
  if further then s.drawn.entryLatency false (36 + Config.freeCount s.free) else s.entryLatency true 36

/-- A count of `w` bits that saturates. -/
def satInc {w : Nat} (c : BitVec w) : BitVec w := if c = BitVec.allOnes w then c else c + 1

/-- Time passes between two things that read it: MGMTCYC and the epochs advance by amounts that depend on time alone
(16 Table 16.8, log 55). -/
def State.passTime (s : State) : State :=
  ((s.drawn.tallyAdd 2 (Config.freeCount s.free)).drawn).tallyAdd 3 (Config.freeCount (s.free + 1))

/-- Write an event-log record; the oldest of more than 256 is lost (16 R369). -/
def State.logEvent (s : State) (kind cls unit addr info : Nat) : State :=
  let s := s.passTime
  let r : EventRec :=
    { mgmtcyc := s.res.tally[2], stepcnt := s.jnl.stepcnt, kind := BitVec.ofNat 16 kind, cls := BitVec.ofNat 8 cls,
      unit := BitVec.ofNat 32 unit, addr := wd addr, info := BitVec.ofNat 128 info, seq := s.res.eventSeq }
  { s with res := { s.res with eventLog := (r :: s.res.eventLog).take 256, eventSeq := s.res.eventSeq + 1 } }

/-- A heat event for an IA page joins the queue of 64, or is dropped and counted (12 R262, R263). -/
def State.heatPush (s : State) (miss : Bool) (page : BitVec 33) : State :=
  { s with hl :=
      if 64 ≤ s.hl.queue.length then { s.hl with drop := s.hl.drop + 1 }
      else { s.hl with queue := s.hl.queue ++ [(miss, page)] } }

/-- A heat table entry as 12 Table 12.1. -/
def State.heatWord (s : State) (n : Nat) : Word :=
  match smGet none n s.hl.heat with
  | none => 0
  | some e => wd (2 ^ 63 + e.iapg.toNat * 2 ^ 30 + e.fill.toNat * 2 ^ 16 + e.miss.toNat)

/-- An entry aged: both counters halved, and the entry gone where both become 0 (12 R264). -/
def HeatEntry.aged (e : HeatEntry) : Option HeatEntry :=
  if e.fill >>> 1 = 0 ∧ e.miss >>> 1 = 0 then none else some { e with fill := e.fill >>> 1, miss := e.miss >>> 1 }

/-- An aging pass reaches set `n`: the sets below it that it had not aged are aged (12 R264). -/
def State.ageTo (s : State) (n : Nat) : State :=
  { s with hl := { s.hl with
      aged := Nat.max s.hl.aged n
      heat := s.hl.heat.filterMap (fun x =>
        if s.hl.aged ≤ x.1 / 4 ∧ x.1 / 4 < n then (x.2.bind HeatEntry.aged).map (fun e => (x.1, some e)) else some x) } }

/-- An aging pass under way has gone on, one set in each MGMT cycle: how far depends on time alone (12 R264, log 62). -/
def State.ageOn (s : State) : State := if s.hl.aging then s.drawn.ageTo (Config.freeCount s.free % 4097) else s

/-! ### Lazy reservation at an entry (05 R135) -/

/-- The lazy-save area below a stack pointer: 409,600 bytes lower, aligned to 4 KB, modulo 2^64 (R135). -/
def lazyArea (sp : Word) : Word := (sp - 409600#64) &&& ~~~0xFFF#64

/-- The reservation at the entry to level `l`: made where a lower context owns live tile state that is not
lazy-pending (R135). -/
def State.lazyReserve (s : State) (l : Fin 8) : State :=
  match s.bm.owner with
  | some o =>
    if o.level < l ∧ o.pend = false then
      let b := s.bankOf l
      let lsa := lazyArea b.sp
      let s := s.setBankOf l { b with lzsp := b.sp, sp := lsa, lzres := true }
      { s with bm := { s.bm with owner := some { o with lsap := lsa, pend := true } } }
    else s
  | none => s

/-! ### Speculative winze requests (02 R59, R61) -/

/-- The requests of discarded instructions are cancelled: those that have transferred through WZ_KILL, their responses being ignored;
the others are withdrawn. -/
def Winze.cancelEarly (w : Winze) : Winze :=
  let gone := w.early.filter (·.transferred)
  { w with
    early := [], ignored := ((gone.filter (·.answer.isNone)).map (·.tag)).reverse ++ w.ignored
    kills := (gone.map (·.tag)).reverse ++ w.kills }

/-- Every speculative request is cancelled. -/
def State.cancelEarly (s : State) : State := { s with wz := s.wz.cancelEarly }

/-! ### Exceptions -/

/-- The first address of the vector store (05 R130, R133). -/
def vectorBase : Word := 0xFFFFFFFFFFFFF800#64

/-- The vector of a cause (05 R130). -/
def vectorOf (cause : Nat) : Word := vectorBase + wd (32 * cause)

/-- A synchronous exception as Table 5.9 describes it; EPC is the faulting instruction unless given. -/
structure Exc where
  /-- The cause. -/
  cause : Nat
  /-- EADDR. -/
  eaddr : Word := 0
  /-- EINFO. -/
  einfo : Word := 0
  /-- EPC where it is not the faulting instruction's address. -/
  epc : Option Word := none
  deriving DecidableEq, Repr

/-- No access waits any longer for a held fault on behalf of the core (04 R101: event entry abandons a held
instruction; an instruction that issues again waits anew). -/
def State.dropCoreWaiters (s : State) : State :=
  { s with xl := { s.xl with held := s.xl.held.map (fun r =>
      { r with waiters := r.waiters.filter (fun w => match w with | .core _ _ _ => false | .tram _ _ => true) }) } }

/-- Entry to level 7 with its exception registers given (05 R125, R131, R132): the level becomes active in
Supervisor with EXCM set, at the cause-31 vector. -/
def State.enterSeven (s : State) (evnum : Nat) (epc einfo : Word) (eaddr : Option Word) : State :=
  let b := s.bankOf 7
  let b := { b with
    epc := epc, ecause := 31, einfo := einfo, eaddr := eaddr.getD b.eaddr, priv := true, excm := true,
    evnum := BitVec.ofNat 6 evnum, pc := vectorOf 31 }
  let s := (s.setBankOf 7 b).setActive 7 true
  let s := { s with core := { s.core with sleeping := false, lru := 7 :: s.core.lru.erase 7 } }
  (s.lazyReserve 7).dropCoreWaiters

/-- A further escalation: an exception at level 7 stops the core (05 R132). The fatal dump is due (16 R367). -/
def State.fatalStop (s : State) : State :=
  let s := { s with core := { s.core with mode := .frozen }, dep := { s.dep with esc2 := true },
                    res := { s.res with fatalDue := 1 } }
  s.raiseVector 13

/-- Poison consumed: POISCONS counts every exception of cause 25 (16 Table 16.8). -/
def State.countConsumed (s : State) (cause : Nat) : State := if cause = 25 then s.tallyInc 0x30 else s

/-- Escalation to level 7 (05 R131): the original cause and level, its EINFO[31:0] and EADDR, and the faulting
instruction's address. At level 7 itself the core stops (R132). -/
def State.escalate (s : State) (cause : Nat) (eaddr einfo epc : Word) : State :=
  let s := (s.cancelEarly).countConsumed cause
  if s.lvl = 7 then s.fatalStop
  else
    let info := wd (2 ^ 63 + cause % 64 * 2 ^ 56 + s.lvl.val * 2 ^ 53 + einfo.toNat % 2 ^ 32)
    let lvl := s.lvl.val
    let s := (s.enterSeven 63 epc info (some eaddr)).setEvent 63
    ((s.tallyInc 0x42).countEntry false).logEvent 5 0 lvl eaddr.toNat info.toNat

/-- Taking a synchronous exception at the current level (05 R130), escalating while EXCM = 1 (R131) and stopping the
core at level 7 (R132). The speculative winze requests of later instructions are cancelled (02 R59). -/
def State.takeException (s : State) (e : Exc) : State :=
  let b := s.bank
  let epc := e.epc.getD b.pc
  if s.lvl = 7 then (s.cancelEarly.countConsumed e.cause).fatalStop
  else if b.excm then s.escalate e.cause e.eaddr e.einfo epc
  else (s.cancelEarly.countConsumed e.cause).setBank { b with
    epc := epc, ecause := BitVec.ofNat 6 e.cause, eaddr := e.eaddr, einfo := e.einfo, ppriv := b.priv, priv := true,
    excm := true, pc := vectorOf e.cause }

/-! ### Physical memory (03 R64, R66, 16 R352 to R354) -/

/-- The first byte of the tile-store scratch window (03 R80). -/
def scratchBase : Nat := 0x7FFF00000000

/-- The address lies in the scratch window of 256 MB (03 R80). -/
def inScratch (pa : Nat) : Bool := decide (scratchBase ≤ pa) && decide (pa < scratchBase + 0x10000000)

/-- The dirty line of a granule, if the caches hold one. -/
def lineFind (g : Nat) (l : List CacheLine) : Option CacheLine := l.find? (fun x => x.granule == g)

/-- Put a line in its place in rising order. -/
def linePut (x : CacheLine) : List CacheLine → List CacheLine
  | [] => [x]
  | y :: t => if x.granule < y.granule then x :: y :: t else if x.granule = y.granule then x :: t else y :: linePut x t

/-- The granules of the lines rise strictly from at least `lo`. -/
def linesWf (lo : Nat) : List CacheLine → Bool
  | [] => true
  | y :: t => decide (lo ≤ y.granule) && linesWf (y.granule + 1) t

/-- The canonical form of memory: cells and on-core cells rising without zeros, poison marks rising, lines rising. -/
def Memory.wf (m : Mem) : Bool :=
  smWf 0#8 0 m.cells && nsWf 0 m.poison && nsWf 0 m.copyPoison && linesWf 0 m.cache && linesWf 0 m.tsc && smWf 0#8 0 m.onCore
    && nsWf 0 m.onCorePoison

/-- The memory port offers a read request (17 R378). -/
def Mem.offerRead (m : Mem) (r : PortReq) : Mem := { m with mrq := some r }

/-- The memory port offers a write request (17 R378). -/
def Mem.offerWrite (m : Mem) (r : PortReq) : Mem := { m with mw := some r }

/-- A byte of the memory behind the caches. -/
def Mem.backByte (m : Mem) (pa : Nat) : Byte := smGet 0#8 pa m.cells

/-- Write a byte of the memory behind the caches. -/
def Mem.setBack (m : Mem) (pa : Nat) (v : Byte) : Mem := { m with cells := smSet 0#8 pa v m.cells }

/-- Mark a granule behind the caches poisoned or clean. -/
def Mem.setBackPoison (m : Mem) (g : Nat) (p : Bool) : Mem :=
  { m with poison := if p then nsInsert g m.poison else nsErase g m.poison }

/-- Byte `i` of a line. -/
def CacheLine.byte (l : CacheLine) (i : Nat) : Byte := l.data.extractLsb' (8 * i) 8

/-- A line with byte `i` replaced. -/
def CacheLine.setByte (l : CacheLine) (i : Nat) (v : Byte) : CacheLine :=
  { l with data := (l.data &&& ~~~((0xFF#512) <<< (8 * i))) ||| ((v.setWidth 512) <<< (8 * i)) }

/-- The bytes `n` from `pa` behind the caches, byte 0 least significant. -/
def Mem.backNat (m : Mem) (pa : Nat) : Nat → Nat
  | 0 => 0
  | n + 1 => (m.backByte pa).toNat + 256 * Mem.backNat m (pa + 1) n

/-- Write `n` bytes of `v` behind the caches. -/
def Mem.setBackNat (m : Mem) (pa : Nat) (v : Nat) : Nat → Mem
  | 0 => m
  | n + 1 => Mem.setBackNat (m.setBack pa (BitVec.ofNat 8 v)) (pa + 1) (v / 256) n

/-- The dirty copy of a granule that the coherent agents see: the L2's, or else the tile-store cache's (03 R66). -/
def Mem.dirty (m : Mem) (g : Nat) : Option CacheLine :=
  match lineFind g m.cache with
  | some l => some l
  | none => lineFind g m.tsc

/-- A byte as the coherent agents of the core see it (03 R66). -/
def Mem.byte (m : Mem) (pa : Nat) : Byte :=
  match m.dirty (pa / 64) with
  | some l => l.byte (pa % 64)
  | none => m.backByte pa

/-- The granule is poisoned as the coherent agents see it: in its dirty line, in its poisoned clean copy, or in memory
(16 R352, 17 R382). -/
def Mem.poisoned (m : Mem) (g : Nat) : Bool :=
  match m.dirty g with
  | some l => l.poison
  | none => nsMem g m.copyPoison || nsMem g m.poison

/-- The line of a granule as the core writes it, filled from memory where no cache holds it dirty. -/
def Mem.fetchLine (m : Mem) (g : Nat) : CacheLine :=
  match m.dirty g with
  | some l => { l with l1 := true }
  | none => { granule := g, data := BitVec.ofNat 512 (m.backNat (64 * g) 64), poison := m.poisoned g, l1 := true }

/-- Write a line to memory, or to scratch, by a write-back; a poisoned line is written poisoned (16 R353). -/
def Mem.setBackLine (m : Mem) (l : CacheLine) : Mem :=
  let m := (m.setBackNat (64 * l.granule) l.data.toNat 64).setBackPoison l.granule l.poison
  if inScratch (64 * l.granule) then m
  else m.offerWrite { pa := 64 * l.granule, src := 6, dev := false, sec := false, size := 0, aop := 0 }

/-- Without a granule in a list of lines. -/
def lineErase (g : Nat) (l : List CacheLine) : List CacheLine := l.filter (fun x => x.granule != g)

/-! #### The tile-store cache (03 Table 3.4): 16 ways of 128-byte lines, non-inclusive of the L2 -/

/-- The lines of 128 bytes that a set of the tile-store cache holds dirty, but for line `n`. -/
def Mem.storeWays (m : Mem) (n : Nat) : List Nat :=
  (((m.tsc.map (fun l => l.granule / 2)).eraseDups).filter (fun k => k != n && k % m.tsSets == n % m.tsSets))

/-- A 128-byte line leaves the tile-store cache for memory. -/
def Mem.evictStore (m : Mem) (n : Nat) : Mem :=
  { (m.tsc.filter (fun l => l.granule / 2 == n)).foldl Mem.setBackLine m with tsc := m.tsc.filter (fun l => l.granule / 2 != n) }

/-- The way of a full set that gives its line up. -/
def victimOf (ways : List Nat) : Nat := ways.getD (Config.victimWay ways % ways.length) 0

/-- A dirty granule enters the tile-store cache, from the L2 or from an engine: into its set of 16 ways; into scratch where its
address lies in the window, and into memory where no step is cache (03 R78, R80, R82). -/
def Mem.toStore (m : Mem) (l : CacheLine) : Mem :=
  if inScratch (64 * l.granule) || m.tsSets == 0 then { m.setBackLine l with tsc := lineErase l.granule m.tsc }
  else
    let ways := m.storeWays (l.granule / 2)
    let m := if 16 ≤ ways.length then m.evictStore (victimOf ways) else m
    { m with tsc := linePut { l with l1 := false } m.tsc }

/-! #### The L2 and the L1 data cache that it includes (03 Table 3.4) -/

/-- The other lines that the L2's set of a granule holds dirty: 2,048 sets. -/
def Mem.l2Set (m : Mem) (g : Nat) : List Nat := (m.cache.map (·.granule)).filter (fun k => k != g && k % 2048 == g % 2048)

/-- The other lines that the L1 data cache's set of a granule holds dirty: 128 sets. -/
def Mem.l1Set (m : Mem) (g : Nat) : List Nat :=
  ((m.cache.filter (·.l1)).map (·.granule)).filter (fun k => k != g && k % 128 == g % 128)

/-- A line leaves the L2, and the L1 data cache with it, for the tile-store cache. -/
def Mem.evictL2 (m : Mem) (g : Nat) : Mem :=
  match lineFind g m.cache with
  | none => m
  | some l => ({ m with cache := lineErase g m.cache } : Mem).toStore l

/-- A line leaves the L1 data cache; the L2 keeps it. -/
def Mem.evictL1 (m : Mem) (g : Nat) : Mem :=
  { m with cache := m.cache.map (fun l => if l.granule == g then { l with l1 := false } else l) }

/-- Room for a line in its sets of the L2 and, where the core writes it, of the L1 data cache. -/
def Mem.room (m : Mem) (g : Nat) (l1 : Bool) : Mem :=
  let ways := m.l2Set g
  let m := if m.l2ways ≤ ways.length then m.evictL2 (victimOf ways) else m
  let ways := m.l1Set g
  if l1 && decide (8 ≤ ways.length) then m.evictL1 (victimOf ways) else m

/-- Put a line into the L2 and, as `l1` says, into the L1 data cache. -/
def Mem.putLine (m : Mem) (l : CacheLine) : Mem :=
  let m := m.room l.granule l.l1
  { m with cache := linePut l m.cache, copyPoison := nsErase l.granule m.copyPoison }

/-- Put a line that an engine has written: where the L2 holds it, there, else into the tile-store cache or scratch (03 R66). -/
def Mem.putEngine (m : Mem) (l : CacheLine) : Mem :=
  match lineFind l.granule m.cache with
  | some x => m.putLine { l with l1 := x.l1 }
  | none => let m := m.toStore l
            { m with copyPoison := nsErase l.granule m.copyPoison }

/-- Drop a granule from every cache without writing it back (INVAL, 03 R83). -/
def Mem.dropLine (m : Mem) (g : Nat) : Mem :=
  { m with cache := lineErase g m.cache, tsc := lineErase g m.tsc, copyPoison := nsErase g m.copyPoison }

/-- Write a byte coherently by the core, allocating its line; a poisoned granule stays poisoned (16 R353). -/
def Mem.setByte (m : Mem) (pa : Nat) (v : Byte) : Mem := m.putLine ((m.fetchLine (pa / 64)).setByte (pa % 64) v)

/-- Write a byte coherently by an engine: the tile paths, the tram engine, the copy engine, the sync unit (03 R66). -/
def Mem.setEngine (m : Mem) (pa : Nat) (v : Byte) : Mem := m.putEngine ((m.fetchLine (pa / 64)).setByte (pa % 64) v)

/-- Read `n` bytes coherently, byte 0 least significant. -/
def Mem.readNat (m : Mem) (pa : Nat) : Nat → Nat
  | 0 => 0
  | n + 1 => (m.byte pa).toNat + 256 * Mem.readNat m (pa + 1) n

/-- Write `n` bytes of `v` coherently. -/
def Mem.writeNat (m : Mem) (pa : Nat) (v : Nat) : Nat → Mem
  | 0 => m
  | n + 1 => Mem.writeNat (m.setByte pa (BitVec.ofNat 8 v)) (pa + 1) (v / 256) n

/-- Write `n` bytes of `v` coherently by an engine. -/
def Mem.engineNat (m : Mem) (pa : Nat) (v : Nat) : Nat → Mem
  | 0 => m
  | n + 1 => Mem.engineNat (m.setEngine pa (BitVec.ofNat 8 v)) (pa + 1) (v / 256) n

/-- Write a whole granule by one operation of the core with its poison indication; clean data clears poison (16 R354). -/
def Mem.writeGranule (m : Mem) (g : Nat) (data : BitVec 512) (p : Bool) : Mem :=
  m.putLine { granule := g, data := data, poison := p, l1 := true }

/-- Write a whole granule by one operation of an engine with its poison indication; clean data clears poison (16 R354). -/
def Mem.engineGranule (m : Mem) (g : Nat) (data : BitVec 512) (p : Bool) : Mem :=
  m.putEngine { granule := g, data := data, poison := p, l1 := false }

/-- Mark a granule poisoned where the caches hold it, or where it lies (16 Table 16.1). -/
def Mem.poisonGranule (m : Mem) (g : Nat) : Mem := m.putEngine { m.fetchLine g with poison := true }

/-- Write a dirty granule back to memory and hold it dirty no longer. -/
def Mem.writeBack (m : Mem) (g : Nat) : Mem :=
  match m.dirty g with
  | none => m
  | some l => (m.setBackLine l).dropLine g

/-- Write back every dirty line of the L2 and the L1 data cache (03 R68). -/
def Mem.writeBackCore (m : Mem) : Mem := { (m.cache.map (·.granule)).foldl Mem.writeBack m with copyPoison := [] }

/-- Write back and invalidate the whole tile-store cache (03 R82); a newer copy in the L2 stays. -/
def Mem.writeBackStore (m : Mem) : Mem := { m.tsc.foldl Mem.setBackLine m with tsc := [] }

/-- Write back every dirty line of every cache, the tile-store cache's older copies first. -/
def Mem.writeBackAll (m : Mem) : Mem := m.writeBackStore.writeBackCore

/-- Read `n` bytes by memory type: normal cached and tile-scratch look into the caches, uncached does not. -/
def Mem.readTy (m : Mem) (ty : MemType) (pa n : Nat) : Nat :=
  match ty with
  | .cached | .scratch => m.readNat pa n
  | .uncached | .device => m.backNat pa n

/-- Write `n` bytes behind the caches by a request on the memory port. -/
def Mem.portWrite (m : Mem) (src : BitVec 3) (pa n v : Nat) : Mem :=
  (m.setBackNat pa v n).offerWrite { pa := pa, src := src, dev := false, sec := false, size := 0, aop := 0 }

/-- A device write is put on the memory port (03 R65, 17 Table 17.4). -/
def Mem.deviceWrite (m : Mem) (pa n v : Nat) : Mem :=
  let w : DeviceWrite := { pa := pa, size := n, data := wd v }
  ({ m with devOut := m.devOut ++ [w] } : Mem).offerWrite
    { pa := pa, src := 0, dev := true, sec := false, size := n, aop := 0 }

/-- Write `n` bytes by memory type, by the core. -/
def Mem.writeTy (m : Mem) (ty : MemType) (pa n v : Nat) : Mem :=
  match ty with
  | .cached | .scratch => m.writeNat pa v n
  | .uncached => m.portWrite 0 pa n v
  | .device => m.deviceWrite pa n v

/-- Write `n` bytes by memory type, by an engine with the SRC given. -/
def Mem.engineTy (m : Mem) (src : BitVec 3) (ty : MemType) (pa n v : Nat) : Mem :=
  match ty with
  | .cached | .scratch => m.engineNat pa v n
  | .uncached => m.portWrite src pa n v
  | .device => m.deviceWrite pa n v

/-- Write a whole granule by memory type, by an engine, with its poison indication (16 R354). -/
def Mem.engineLine (m : Mem) (src : BitVec 3) (ty : MemType) (g : Nat) (data : BitVec 512) (p : Bool) : Mem :=
  match ty with
  | .cached | .scratch => m.engineGranule g data p
  | .uncached | .device => (m.portWrite src (64 * g) 64 data.toNat).setBackPoison g p

/-- Poison of the granule by memory type. -/
def Mem.poisonedTy (m : Mem) (ty : MemType) (pa : Nat) : Bool :=
  match ty with
  | .cached | .scratch => m.poisoned (pa / 64)
  | .uncached | .device => nsMem (pa / 64) m.poison

/-- The channel of the tile store that serves an address: A[11:7] (03 R79). -/
def storeChannel (pa : Nat) : Fin 32 := Fin.ofNat 32 (pa / 128)

/-- A channel's counts (early fails, late fails, shadow samples) with one more sample, whose early and late captures differ as given. -/
def shadowCount (x : BitVec 16 × BitVec 16 × BitVec 16) (y : Bool × Bool) : BitVec 16 × BitVec 16 × BitVec 16 :=
  (if y.1 then satInc x.1 else x.1, if y.2 then satInc x.2.1 else x.2.1, satInc x.2.2)

/-- Shadow samples of a channel are counted; at 4,096 the deputy's vector 10 is raised (11 R257, 14 Table 14.7). -/
def State.countShadows (s : State) (h : Fin 32) (l : List (Bool × Bool)) : State :=
  let x := s.win.d2dcnt[h]
  let y := l.foldl shadowCount x
  let t : State := { s with win := { s.win with d2dcnt := s.win.d2dcnt.set h y } }
  if 4096 ≤ y.2.2.toNat ∧ x.2.2.toNat < 4096 then t.raiseVector 10 else t

/-- A read of a tile-store channel: every 64th is also captured early and late, and the comparisons are counted (11 R257). Whether a
capture differs is free (log 58). -/
def State.storeRead (s : State) (pa : Nat) : State :=
  let h := storeChannel pa
  let n := s.win.d2dreads[h] + 1
  let s := { s with win := { s.win with d2dreads := s.win.d2dreads.set h n } }
  if n ≠ 0 then s else s.drawn.countShadows h [(Config.shadowFail (2 * s.free), Config.shadowFail (2 * s.free + 1))]

/-- A read goes to memory where no cache serves it: an uncached or device one always, a coherent one where no cache holds the granule
dirty and none holds a clean copy, which the draw decides (03 R66, log 8). The request is the last that the port offered. A read of
scratch, or of a line that the tile-store cache holds dirty, is a read of its channel (11 R257, log 58). -/
def State.portRead (s : State) (src : BitVec 3) (sec : Bool) (ty : MemType) (pa n : Nat) : State :=
  let r : PortReq := { pa := pa, src := src, dev := decide (ty = .device), sec := sec, size := if ty = .device then n else 0, aop := 0 }
  if inScratch pa then (if (lineFind (pa / 64) s.mem.cache).isSome then s else s.storeRead pa)
  else match ty with
    | .uncached | .device => { s with mem := s.mem.offerRead r }
    | .cached | .scratch =>
      if (lineFind (pa / 64) s.mem.cache).isSome then s
      else if (lineFind (pa / 64) s.mem.tsc).isSome then s.storeRead pa
      else { s.drawn with mem := { s.mem with mrq := if Config.cacheMiss s.free then some r else s.mem.mrq } }

/-! ### The store buffer (03 R75) -/

/-- Perform one buffered store. -/
def Mem.performStore (m : Mem) (e : StoreEntry) : Mem :=
  let m := m.writeTy e.ty e.pa e.size e.data.toNat
  if e.poison then m.poisonGranule (e.pa / 64) else m

/-- Drain the whole store buffer in program order. -/
def Mem.drain (m : Mem) : Mem := { m.sb.foldl Mem.performStore m with sb := [] }

/-- Two byte ranges overlap. -/
def overlaps (a n b k : Nat) : Bool := decide (a < b + k) && decide (b < a + n)

/-- Add a committed store; a full buffer of 64 first drains its oldest entry. -/
def Mem.pushStore (m : Mem) (e : StoreEntry) : Mem :=
  match m.sb with
  | o :: t =>
    if 64 ≤ m.sb.length then { m.performStore o with sb := t ++ [e] } else { m with sb := m.sb ++ [e] }
  | [] => { m with sb := [e] }

/-- An acquire is ordered after an earlier release store (03 R69): where one is buffered, the buffer drains. -/
def Mem.acquire (m : Mem) : Mem := if m.sb.any (·.release) then m.drain else m

/-- A load of `n` bytes at `pa` of type `ty` against the buffered stores (Table 3.3): forwarded from the youngest
overlapping store that contains it, otherwise read after the overlapping stores have drained. -/
def Mem.loadThrough (m : Mem) (ty : MemType) (pa n : Nat) : Mem × Nat × Bool :=
  match (m.sb.filter (fun e => overlaps pa n e.pa e.size)).getLast? with
  | none => (m, m.readTy ty pa n, m.poisonedTy ty pa)
  | some e =>
    if e.pa ≤ pa ∧ pa + n ≤ e.pa + e.size ∧ e.ty ≠ .device then
      (m, fieldOf e.data.toNat (8 * (pa - e.pa)) (8 * n), false)
    else
      let m := m.drain
      (m, m.readTy ty pa n, m.poisonedTy ty pa)

/-! ### On-core memory (05 R133) -/

/-- The first address of on-core memory: the urgent RAM, 16 KB, then the vector store, 2 KB. -/
def onCoreBase : Nat := 0xFFFFFFFFFFFFB800

/-- Read `n` bytes of on-core memory from offset `off`; beyond its last byte the address wraps to 0 of the address space, where nothing is on-core, and such bytes read 0 (log 16). -/
def Mem.onCoreNat (m : Mem) (off : Nat) : Nat → Nat
  | 0 => 0
  | n + 1 => (smGet 0#8 off m.onCore).toNat + 256 * Mem.onCoreNat m (off + 1) n

/-- Write `n` bytes of on-core memory. -/
def Mem.setOnCoreNat (m : Mem) (off v : Nat) : Nat → Mem
  | 0 => m
  | n + 1 => Mem.setOnCoreNat { m with onCore := smSet 0#8 off (BitVec.ofNat 8 v) m.onCore } (off + 1) (v / 256) n

/-! ### Answers -/

/-- The fields that the spec hard-wires, whatever is done: the build options (00 R4), level 0 active (05 R109), the
routes of EV32 and EV63 at 7 and of EV56 to EV62 at 0 (05 R120), and EV56 to EV62 never set (05 R120). -/
def hardwire (s t : State) : State :=
  { t with
    build := s.build
    core := { t.core with active := t.core.active.set 0 true }
    bm := { t.bm with
      evrt := ((((((((t.bm.evrt.set 32 7).set 56 0).set 57 0).set 58 0).set 59 0).set 60 0).set 61 0).set 62 0).set 63 7
      evpend := t.bm.evpend &&& 0x80FFFFFFFFFFFFFF#64 } }

/-- The outcome of a command that takes the machine from `s` to `t`. -/
def answer (s t : State) : Host.Outcome State Fault Refusal := .next (hardwire s t)

end Sys2Proof.Machine
end

