-- ==== Sys2Proof/Machine/Prefetch.lean ====
section
/-! DEFINITION. The stream trackers (03 R84): how misses of the L1 data cache train them, and how far ahead a confirmed stream may go. -/

namespace Sys2Proof.Machine

/-- The lines of a 16 KB page. -/
def pageOfLine (line : Nat) : Nat := line / 256

/-- A tracker after a miss at `line`, if the miss belongs to its stream: at its stride, or the second miss at any stride of 1 to 32
lines, in the same page (R84, log 158). A miss at the line it saw last changes nothing. -/
def Tracker.after (t : Tracker) (line : Nat) : Option Tracker :=
  let d : Int := (line : Int) - (t.last : Int)
  if pageOfLine line ≠ pageOfLine t.last then none
  else if d = 0 then some t
  else if d = t.stride then some { t with last := line, misses := Nat.min 3 (t.misses + 1), ahead := t.ahead - 1 }
  else if t.misses = 1 ∧ d.natAbs ≤ 32 then some { last := line, stride := d, misses := 2, ahead := 0 }
  else none

/-- A tracker that has seen one miss. -/
def Tracker.first (line : Nat) : Tracker := { last := line, stride := 0, misses := 1, ahead := 0 }

/-- The line that a confirmed stream prefetches next, while it is fewer than `dist` lines ahead of the demand stream (R84). -/
def Tracker.target (t : Tracker) (dist : Nat) : Option Int :=
  if t.misses < 3 ∨ dist ≤ t.ahead then none else some ((t.last : Int) + t.stride * (t.ahead + 1))

/-- A tracker has its new content and is the most recently advanced one. -/
def Prefetch.setTracker (p : Prefetch) (i : Fin 32) (t : Tracker) : Prefetch :=
  { p with streams := p.streams.set i (some t), recent := i :: p.recent.erase i }

/-- A tracker stops. -/
def Prefetch.freeTracker (p : Prefetch) (i : Fin 32) : Prefetch :=
  { p with streams := p.streams.set i none, recent := p.recent.erase i }

/-- The trackers that PFCTL enables. -/
def Prefetch.enabled (p : Prefetch) : List (Fin 32) := (List.finRange 32).filter (fun i => decide (i.val < p.trackers.toNat))

/-- The tracker that takes a miss which belongs to no stream: a free one, or else the least recently advanced one (R84). -/
def Prefetch.place (p : Prefetch) : Option (Fin 32) :=
  match p.enabled.find? (fun i => p.streams[i].isNone) with
  | some i => some i
  | none => (p.recent.filter (fun i => decide (i.val < p.trackers.toNat))).getLast?

/-- A miss of the L1 data cache to a normal cached page (R84). -/
def Prefetch.miss (p : Prefetch) (line : Nat) : Prefetch :=
  if !p.en then p
  else
    match p.enabled.findSome? (fun i => (p.streams[i].bind (fun t => t.after line)).map (fun t => (i, t))) with
    | some (i, t) => p.setTracker i t
    | none => match p.place with
      | some i => p.setTracker i (Tracker.first line)
      | none => p

/-- A load of normal cached or tile-scratch memory by the core looks into the L1 data cache: a line that it holds dirty hits; whether
another one misses is the draw's. A miss to a normal cached page is one that the trackers see (R84). -/
def State.l1Load (s : State) (va : Word) (ty : MemType) (pa n : Nat) : State :=
  match ty with
  | .uncached => s.portRead 0 false ty pa n
  | .device => s
  | _ =>
    match lineFind (pa / 64) s.mem.cache with
    | some l => if l.l1 then s else { s with pf := if ty = .cached then s.pf.miss (va.toNat / 64) else s.pf }
    | none =>
      let miss := Config.cacheMiss s.free
      let t : State := { s.drawn with pf := if miss && decide (ty = .cached) then s.pf.miss (va.toNat / 64) else s.pf }
      let u := t.portRead 0 false ty pa n
      if inScratch pa || (lineFind (pa / 64) s.mem.tsc).isSome then (if miss then u else t)
      else { u with mem := { u.mem with mrq := if miss then u.mem.mrq else t.mem.mrq } }

end Sys2Proof.Machine
end

