-- ==== Sys2Proof/Machine/Operands.lean ====
section
/-! DEFINITION. The operand forms of the scalar core (02 R27, R33, R34, R40, R42): registers, the memory base, immediates,
effective addresses, and the instruction words of Table 2.3, which EADDR holds for causes 1, 2, 15 and 18. -/

namespace Sys2Proof.Machine

/-- The memory base register: SP where the field is zero (02 R27). -/
def State.baseReg (s : State) (r : RegIx) : Word := if r = 0 then s.bank.sp else s.readG r

/-- A 16-bit immediate sign-extended (02 R33). -/
def sext16 (imm : BitVec 16) : Word := imm.signExtend 64

/-- A 16-bit immediate zero-extended (02 R33). -/
def zext16 (imm : BitVec 16) : Word := imm.setWidth 64

/-- The bytes of a size code (02 R40). -/
def sizeBytes (size : BitVec 2) : Nat := 2 ^ size.toNat

/-- The effective address of LD and ST: base + sext(off12)·size (02 R40). -/
def State.eaOffset (s : State) (ra : RegIx) (size : BitVec 2) (off : BitVec 12) : Word :=
  s.baseReg ra + (off.signExtend 64) * wd (sizeBytes size)

/-- The effective address of LDX and STX: base + (rb << sh) (02 R40). -/
def State.eaIndexed (s : State) (ra rb : RegIx) (size : BitVec 2) (sh : Bool) : Word :=
  s.baseReg ra + (s.readG rb <<< (if sh then size.toNat else 0))

/-- The low `n` bytes of a value, zero- or sign-extended to 64 bits (02 R40). -/
def extendBytes (v : Nat) (n : Nat) (sx : Bool) : Word :=
  let r := v % 2 ^ (8 * n)
  if sx && decide (2 ^ (8 * n - 1) ≤ r) then wd (r + 2 ^ 64 - 2 ^ (8 * n)) else wd r

/-- A branch target: PC + sext(off)·4 (02 R42). -/
def branchTarget {w : Nat} (pc : Word) (off : BitVec w) : Word := pc + (off.signExtend 64) * 4

/-! ### Instruction words (Table 2.3) -/

/-- Format R. -/
def encR (op : Nat) (rd ra rb : RegIx) (func : Nat) : Word :=
  wd (op * 2 ^ 26 + rd.toNat * 2 ^ 21 + ra.toNat * 2 ^ 16 + rb.toNat * 2 ^ 11 + func)

/-- Format R with a six-bit function code and the reserved bits func[10:6]. -/
def encR6 (op : Nat) (rd ra rb : RegIx) (func : Nat) (rsv : RegIx) : Word := encR op rd ra rb (rsv.toNat * 64 + func)

/-- Format R of the multiply and divide group: func[1:0] and the reserved bits func[10:2]. -/
def encR2 (op : Nat) (rd ra rb : RegIx) (func : Nat) (rsv : BitVec 9) : Word := encR op rd ra rb (rsv.toNat * 4 + func)

/-- Format W. -/
def encW (op : Nat) (rd : RegIx) (hw : BitVec 2) (rsv : BitVec 3) (imm : BitVec 16) : Word :=
  wd (op * 2 ^ 26 + rd.toNat * 2 ^ 21 + hw.toNat * 2 ^ 19 + rsv.toNat * 2 ^ 16 + imm.toNat)

/-- Format I. -/
def encI (op : Nat) (rd ra : RegIx) (imm : BitVec 16) : Word :=
  wd (op * 2 ^ 26 + rd.toNat * 2 ^ 21 + ra.toNat * 2 ^ 16 + imm.toNat)

/-- Format F4. -/
def encF4 (op : Nat) (rd ra rb rc : RegIx) (prec neg rsv : BitVec 2) : Word :=
  wd (op * 2 ^ 26 + rd.toNat * 2 ^ 21 + ra.toNat * 2 ^ 16 + rb.toNat * 2 ^ 11 + rc.toNat * 64 + prec.toNat * 16
    + neg.toNat * 4 + rsv.toNat)

/-- Format M. -/
def encM (op : Nat) (rt ra : RegIx) (size : BitVec 2) (sx ord : Bool) (off : BitVec 12) : Word :=
  wd (op * 2 ^ 26 + rt.toNat * 2 ^ 21 + ra.toNat * 2 ^ 16 + size.toNat * 2 ^ 14 + bit sx * 2 ^ 13 + bit ord * 2 ^ 12
    + off.toNat)

/-- Format S. -/
def encS (op : Nat) (size : BitVec 2) (stop : Bool) (rv : RegIx) (rsv : BitVec 18) : Word :=
  wd (op * 2 ^ 26 + size.toNat * 2 ^ 24 + bit stop * 2 ^ 23 + rsv.toNat / 2 ^ 16 * 2 ^ 21 + rv.toNat * 2 ^ 16
    + rsv.toNat % 2 ^ 16)

/-- Format C. -/
def encC (rd ra : RegIx) (csr : BitVec 12) (cop : Nat) : Word :=
  wd (0x2C * 2 ^ 26 + rd.toNat * 2 ^ 21 + ra.toNat * 2 ^ 16 + csr.toNat * 16 + cop)

/-- Formats J and LI, and any word whose low 26 bits are given as one number. -/
def encJ (op : Nat) (low : Nat) : Word := wd (op * 2 ^ 26 + low % 2 ^ 26)

end Sys2Proof.Machine
end

