-- ==== Sys2Proof/Machine/Translate.lean ====
section
/-! DEFINITION. Address translation (04): the physical map attribute table, the two-stage walk with its A and D updates,
held stage-2 faults, the TLB and the table-entry cache, and the fault reports of Tables 4.3, 4.4 and 4.16. -/

namespace Sys2Proof.Machine

/-! ### The physical map attribute table (R98) -/

/-- The region contains the address. -/
def Pmat.contains (r : Pmat) (pa : Nat) : Bool :=
  r.valid && (pa / 2 ^ r.log2size.toNat == r.base.toNat * 2 ^ 14 / 2 ^ r.log2size.toNat)

/-- The lowest-numbered valid region that contains a physical address. -/
def State.region (s : State) (pa : Nat) : Option Pmat := s.xl.pmat.toList.find? (fun r => r.contains pa)

/-- The near-tier stack of an address in a near-tier region (R98). -/
def Pmat.stack (r : Pmat) (pa : Nat) : Nat :=
  (r.ilfirst.toNat + pa / 2 ^ (12 + 2 * r.ilgran.toNat) % 2 ^ r.ilways.toNat) % 32

/-! ### Access kinds and fault reports -/

/-! #### Haulage pools (15 Table 15.8, 12 R260) -/

/-- A region is a destination pool: valid, normal, non-secure, NEAR or EXP (12 R260). -/
def Pmat.isPool (r : Pmat) : Bool := r.valid && !r.device && !r.secure && decide (r.tier.toNat < 2)

/-- The pools in ascending region order: region number and region. -/
def State.pools (s : State) : List (Fin 32 × Pmat) :=
  ((List.finRange 32).map (fun i => (i, s.xl.pmat[i]))).filter (fun x => x.2.isPool)

/-- POOLn of a region. -/
def poolWord (i : Fin 32) (r : Pmat) : BitVec 32 :=
  BitVec.ofNat 32 (2 ^ 31 + bit (decide (r.ilways ≠ 0)) * 2 ^ 12 + r.ilfirst.toNat * 2 ^ 7 + r.tier.toNat * 2 ^ 5 + i.val)

/-- The physical map attribute table is written, and the list of pools derived again (15 Table 15.8). -/
def State.setPmat (s : State) (p : Vector Pmat 32) : State :=
  let t : State := { s with xl := { s.xl with pmat := p } }
  { t with dict := { t.dict with pools := t.pools.map (fun x => poolWord x.1 x.2) } }

/-- The kind of an access (04 R95, R99). -/
inductive AccKind where
  /-- Instruction fetch. -/
  | fetch
  /-- Load, tile load, CLEAN, FLUSH, IINVAL. -/
  | load
  /-- Store, tile store, ZERO. -/
  | store
  /-- Atomic. -/
  | atomic
  /-- INVAL: checked as a store, writing nothing (03 R83). -/
  | inval
  deriving DecidableEq, Repr

/-- One access to be translated. -/
structure Access where
  /-- Kind. -/
  kind : AccKind
  /-- Virtual address. -/
  va : Word
  /-- Address that a fault reports in EADDR (03 R74). -/
  eaddr : Word
  /-- An access of a tile instruction. -/
  tile : Bool := false
  /-- Supervisor privilege. -/
  priv : Bool
  /-- Second part of a split access. -/
  part2 : Bool := false
  /-- OP and owner level of cause 16 (05 Table 5.9) where the access belongs to a fill or restore: OP + 4·level. -/
  area : Option Nat := none
  deriving DecidableEq, Repr

/-- The access writes, for the WRITE bit of a report. INVAL counts, being checked as a store, though Table 4.4 does not name it (log 159). -/
def AccKind.writes : AccKind → Bool
  | .fetch | .load => false
  | .store | .atomic | .inval => true

/-- The access sets D (04 R92). -/
def AccKind.dirties : AccKind → Bool
  | .store | .atomic => true
  | .fetch | .load | .inval => false

/-- Translation cause of an access kind (Table 4.3). -/
def AccKind.transCause : AccKind → Nat
  | .fetch => 4
  | .load => 6
  | .store | .atomic | .inval => 8

/-- Permission cause of an access kind (Table 4.3). -/
def AccKind.permCause (k : AccKind) : Nat := k.transCause + 1

/-- KIND codes of Table 4.4. -/
inductive FaultKind where
  | invalid
  | addrSize
  | perm
  | secure
  | noRegion
  | devTable
  | parity
  | attr
  deriving DecidableEq, Repr

/-- The code of a KIND. -/
def FaultKind.code : FaultKind → Nat
  | .invalid => 0
  | .addrSize => 1
  | .perm => 2
  | .secure => 3
  | .noRegion => 4
  | .devTable => 5
  | .parity => 6
  | .attr => 7

/-- The fault report of Table 4.4 with the ASID in use in EINFO[47:32] (Table 5.9). -/
def faultReport (a : Access) (asid : BitVec 16) (kind : FaultKind) (stage level : Nat)
    (s1walk ad timeout : Bool) : Word :=
  wd (kind.code + 16 * stage + 32 * level + 2 ^ 8 * bit s1walk + 2 ^ 9 * bit (a.kind.writes || ad)
    + 2 ^ 10 * bit (decide (a.kind = .fetch)) + 2 ^ 11 * bit (!a.priv) + 2 ^ 12 * bit a.tile + 2 ^ 13 * bit a.part2
    + 2 ^ 14 * bit timeout + 2 ^ 15 * bit ad + 2 ^ 32 * asid.toNat)

/-- A fault with its report. -/
def State.faultOf (s : State) (a : Access) (cause : Nat) (kind : FaultKind) (level : Nat) (ad : Bool := false) : Exc :=
  { cause := cause, eaddr := a.eaddr, einfo := faultReport a s.xl.asid kind 0 level false ad false }

/-- The attribute fault, cause 14 (Table 4.16). -/
def State.attrFault (s : State) (a : Access) : Exc := s.faultOf a 14 .attr 7

/-- Where an access lands. -/
inductive Loc where
  /-- On-core memory, at an offset from its first byte (05 R133). -/
  | onCore (off : Nat)
  /-- A physical address with the combined memory type (R93). -/
  | phys (pa : Nat) (ty : MemType)
  deriving DecidableEq, Repr

/-- The outcome of a translation. -/
inductive Xl where
  /-- Translated. -/
  | ok (s : State) (loc : Loc)
  /-- A fault to be raised. -/
  | fault (s : State) (e : Exc)
  /-- Held on a stage-2 fault record, or waiting for a walker slot (R101). -/
  | hold (s : State)

/-! ### Table entries (R89, R90) -/

/-- Permissions and attributes that a page entry gives. -/
structure Leaf where
  /-- Output page number. -/
  page : Nat
  r : Bool
  w : Bool
  x : Bool
  u : Bool
  g : Bool
  /-- MT code. -/
  mt : Nat
  /-- Pages of the CONT group. -/
  span : Nat
  /-- D of the entry after the access. -/
  d : Bool
  deriving DecidableEq, Repr

/-- OA of an entry as an address. -/
def entryOa (e : Nat) : Nat := fieldOf e 16 33 * 2 ^ 14

/-- The entry is invalid at level `lvl` of `n` levels (R90). -/
def entryInvalid (e lvl n : Nat) : Bool :=
  !bitOf e 0 || fieldOf e 49 7 != 0 || bitOf e 15 ||
    (bitOf e 1 && (decide (3 < fieldOf e 9 3) || fieldOf e 12 2 == 3 || lvl + 1 != n)) ||
    (!bitOf e 1 && lvl + 1 == n)

/-- A page entry's fields. -/
def leafOf (e : Nat) : Leaf :=
  { page := fieldOf e 16 33, r := bitOf e 2, w := bitOf e 3, x := bitOf e 4, u := bitOf e 5, g := bitOf e 6,
    mt := fieldOf e 9 3, span := (match fieldOf e 12 2 with | 1 => 16 | 2 => 256 | _ => 1), d := bitOf e 8 }

/-- A leaf that permits everything, normal cached: a stage that is off. It stands for the aligned group of 256 pages: a slot covers the
group of the other stage, and 4 MB where both stages are off, for which the spec gives no reach (log 160). -/
def Leaf.identity (page : Nat) : Leaf :=
  { page := page, r := true, w := true, x := true, u := true, g := false, mt := 0, span := 256, d := true }

/-- R, W and X needed by an access kind (R91). -/
def permits (k : AccKind) (r w x : Bool) : Bool :=
  match k with
  | .fetch => x
  | .load => r
  | .store | .inval => w
  | .atomic => r && w

/-- Stage-1 permission, with U and the privilege (R91). -/
def permits1 (k : AccKind) (r w x u priv : Bool) : Bool :=
  permits k r w x && (if priv then !(decide (k = .fetch) && u) else u)

/-- The A and D bits that an access of this kind sets in an entry: the new entry (R92). -/
def markEntry (e : Nat) (k : AccKind) : Nat :=
  let e := if bitOf e 7 then e else e + 2 ^ 7
  if k.dirties && !bitOf e 8 then e + 2 ^ 8 else e

/-! ### Held records (R101, R102) -/

/-- The KIND codes of a held record (Table 4.5). -/
inductive HeldKind where
  | invalid
  | perm
  | devTable
  | parity
  deriving DecidableEq, Repr

/-- The code in a record. -/
def HeldKind.code : HeldKind → Nat
  | .invalid => 0
  | .perm => 1
  | .devTable => 2
  | .parity => 3

/-- The KIND of the fault report when the record is declined. -/
def HeldKind.report : HeldKind → FaultKind
  | .invalid => .invalid
  | .perm => .perm
  | .devTable => .devTable
  | .parity => .parity

/-- A stage-2 fault as the walk met it. -/
structure S2Fault where
  kind : HeldKind
  level : Nat
  s1walk : Bool
  /-- Met on an A or D update. -/
  ad : Bool
  ia : Nat
  write : Bool
  deriving DecidableEq, Repr

/-- The slot of an open record on the same IA page, or else a free slot (R101). -/
def State.heldSlot (s : State) (ia : Nat) : Option (Fin 4) :=
  let same := (List.finRange 4).find? (fun i => s.xl.held[i].valid && s.xl.held[i].ia.toNat / 2 ^ 14 == ia / 2 ^ 14)
  match same with
  | some i => some i
  | none => (List.finRange 4).find? (fun i => !s.xl.held[i].valid)

/-- Hold a stage-2 fault: join the open record on the same IA page, or open one in a free walker slot, count it and
raise the deputy's translation interrupt; with no slot free the access waits (R101). -/
def State.holdFault (s : State) (f : S2Fault) (va : Word) (req : Nat) (fetch : Bool) (w : HeldWaiter) : State :=
  match s.heldSlot f.ia with
  | none => s
  | some i =>
    let r := s.xl.held[i]
    if r.valid then
      { s with xl := { s.xl with held := s.xl.held.set i { r with waiters := if r.waiters.contains w then r.waiters else r.waiters ++ [w] } } }
    else
      let r : HeldRec :=
        { valid := true, va := va, req := BitVec.ofNat 2 req, kind := BitVec.ofNat 3 f.kind.code,
          level := BitVec.ofNat 2 f.level, s1walk := f.s1walk, fetch := fetch, write := f.write,
          ia := BitVec.ofNat 47 f.ia, waiters := [w] }
      ({ s with xl := { s.xl with held := s.xl.held.set i r, cntHeld := s.xl.cntHeld + 1 } }).raiseVector 5

/-- A fault of a fill or restore as cause 16, with OP and the owner's level (05 Table 5.9). -/
def areaInfo (area : Nat) (einfo : Word) : Word := wd (einfo.toNat % 2 ^ 32 + area * 2 ^ 32)

/-- What a core access reports if its record is declined: cause 12's EADDR and EINFO (R101), or cause 16's (05 R136). -/
def coreWaiter (s : State) (a : Access) (f : S2Fault) : HeldWaiter :=
  let info := faultReport a s.xl.asid f.kind.report 1 f.level f.s1walk f.ad false
  match a.area with
  | none => .core 12 a.eaddr info
  | some x => .core 16 a.eaddr (areaInfo x info)

/-! ### The walks (R95) -/

/-- The table-entry cache's value for an entry, where the draw says it is used (R95, R106). -/
def State.tecLookup (s : State) (stage2 : Bool) (addr : Nat) : State × Option Nat :=
  match s.xl.tec.find? (fun e => e.stage2 == stage2 && e.addr == addr) with
  | none => (s, none)
  | some e => (s.drawn, if Config.tecHit s.free then some e.value.toNat else none)

/-- Enter a non-leaf entry into the table-entry cache of 64 (R95). -/
def State.tecInsert (s : State) (stage2 : Bool) (addr value : Nat) : State :=
  let e : TecEntry := { stage2 := stage2, addr := addr, value := wd value }
  { s with xl := { s.xl with tec := (e :: s.xl.tec.filter (fun x => !(x.stage2 == stage2 && x.addr == addr))).take 64 } }

/-- Stage-2 outcome. -/
inductive S2 where
  /-- Translated; with stage 2 on, the page entry's address and value after the walk. -/
  | ok (s : State) (pa : Nat) (leaf : Leaf) (entry : Option (Nat × Nat))
  | held (s : State) (f : S2Fault)
  /-- An entry no longer holds the value the walk read: the walk restarts from the root (R92). -/
  | restart (s : State)

/-- What a stage-2 access needs: R, W and X by kind, or R for a table read and W for a table update (R91). -/
structure S2Need where
  kind : AccKind
  s1walk : Bool
  ad : Bool
  deriving DecidableEq, Repr

/-- The kind whose permissions a stage-2 access needs. -/
def S2Need.eff (n : S2Need) : AccKind := if n.s1walk then (if n.ad then .store else .load) else n.kind

/-- A stage-2 fault at a level. -/
def S2Need.fault (n : S2Need) (ia : Nat) (kind : HeldKind) (level : Nat) : S2Fault :=
  { kind := kind, level := level, s1walk := n.s1walk, ad := n.ad, ia := ia, write := n.eff.writes }

/-- The compare-and-write of a whole entry (R92): none where the entry no longer holds the value that the walk read. -/
def State.updateEntry (s : State) (pa old new : Nat) : Option State :=
  if new = old then some s
  else if s.mem.readNat pa 8 = old then some { s with mem := s.mem.writeNat pa new 8 }
  else none

/-- The stage-2 walk from `table` over the levels left (R95). A table address in the scratch window, which is decoded before the
physical map (R98), is in no secure normal region. -/
def State.walk2 (s : State) (ia : Nat) (need : S2Need) (table : Nat) : List Nat → S2
  | [] => .held s (need.fault ia .invalid 2)
  | lvl :: rest =>
    let pa := table + 8 * fieldOf ia (36 - 11 * lvl) 11
    match (if inScratch pa then none else s.region pa) with
    | none => .held s (need.fault ia .devTable lvl)
    | some r =>
      if r.device || !r.secure then .held s (need.fault ia .devTable lvl)
      else
        let (s, cached) := if lvl < 2 then s.tecLookup true pa else (s, none)
        let s := if cached.isNone then s.portRead 2 true .cached pa 8 else s
        if cached.isNone && s.mem.poisoned (pa / 64) then .held s (need.fault ia .parity lvl)
        else
          let e := cached.getD (s.mem.readNat pa 8)
          if entryInvalid e lvl 3 then .held s (need.fault ia .invalid lvl)
          else if lvl < 2 then (s.tecInsert true pa e).walk2 ia need (entryOa e) rest
          else
            let l := leafOf e
            if !permits need.eff l.r l.w l.x then .held s (need.fault ia .perm 2)
            else
              let e' := markEntry e need.eff
              match s.updateEntry pa e e' with
              | none => .restart s
              | some s => .ok s (l.page * 2 ^ 14 + ia % 2 ^ 14) { leafOf e' with page := l.page } (some (pa, e'))

/-- Stage 2 (R95): the identity while it is off. -/
def State.stage2 (s : State) (ia : Nat) (need : S2Need) : S2 :=
  if s.xl.s2en then s.walk2 ia need (s.xl.s2root.toNat * 2 ^ 14) [0, 1, 2]
  else .ok s ia (Leaf.identity (ia / 2 ^ 14)) none

/-- Stage-1 outcome. -/
inductive S1 where
  | ok (s : State) (ia : Nat) (leaf : Leaf)
  | fault (s : State) (e : Exc)
  | held (s : State) (f : S2Fault)
  /-- The walk restarts from the root (R92). -/
  | restart (s : State)

/-- Stage-1 levels of the form in S1ROOT (R86). -/
def State.s1levels (s : State) : Nat := 3 + s.xl.levels.toNat

/-- The index of a virtual address at a stage-1 level (Table 4.1). -/
def s1index (va n lvl : Nat) : Nat :=
  let lo := 14 + 11 * (n - 1 - lvl)
  if n = 5 ∧ lvl = 0 then fieldOf va 58 6 else fieldOf va lo 11

/-- The region check of a stage-1 table address: the KIND of cause 10, if any (R96). A table may lie in the tile-store scratch window,
which R98 decodes before the map and which R96 does not name (log 161). -/
def State.tableRegion (s : State) (pa : Nat) : Option FaultKind :=
  match s.region pa with
  | none => if inScratch pa then none else some .noRegion
  | some r => if inScratch pa then none else if r.device then some .devTable else if r.secure then some .secure else none

/-- The write of a stage-1 page entry at `ea`, which stage 2 has translated to `pa` for the walk's read: it needs stage-2 W, and marks the
stage-2 entry as a write does (R92, R95). -/
def State.updateStage1 (s : State) (ea pa e e' : Nat) (l2 : Leaf) (entry : Option (Nat × Nat)) (ok : State → S1) : S1 :=
  if e' = e then ok s
  else if !l2.w then .held s { kind := .perm, level := 2, s1walk := true, ad := true, ia := ea, write := true }
  else
    let marked : Option State := match entry with
      | none => some s
      | some (pa2, e2) => s.updateEntry pa2 e2 (markEntry e2 .store)
    match marked.bind (fun s => s.updateEntry pa e e') with
    | none => .restart s
    | some s => ok s

/-- The stage-1 walk from `table` over the levels left (R95, R96). It reads what the caches and memory hold: the core's own stores that
have been performed, and not those still in the store buffer (log 162). -/
def State.walk1 (s : State) (a : Access) (n table : Nat) : List Nat → S1
  | [] => .fault s (s.faultOf a a.kind.transCause .invalid 0)
  | lvl :: rest =>
    let ea := table + 8 * s1index a.va.toNat n lvl
    let (s, cached) := if lvl + 1 < n then s.tecLookup false ea else (s, none)
    match cached with
    | some e => s.walk1 a n (entryOa e) rest
    | none =>
      match s.stage2 ea { kind := .load, s1walk := true, ad := false } with
      | .held s f => .held s f
      | .restart s => .restart s
      | .ok s pa l2 entry =>
        match s.tableRegion pa with
        | some k => .fault s (s.faultOf a 10 k lvl)
        | none =>
          let s := s.portRead 2 false .cached pa 8
          if s.mem.poisoned (pa / 64) then .fault s (s.faultOf a 11 .parity lvl)
          else
            let e := s.mem.readNat pa 8
            if entryInvalid e lvl n then .fault s (s.faultOf a a.kind.transCause .invalid lvl)
            else if lvl + 1 < n then (s.tecInsert false ea e).walk1 a n (entryOa e) rest
            else
              let l := leafOf e
              if !permits1 a.kind l.r l.w l.x l.u a.priv then .fault s (s.faultOf a a.kind.permCause .perm (n - 1))
              else
                let e' := markEntry e a.kind
                let ia := l.page * 2 ^ 14 + a.va.toNat % 2 ^ 14
                s.updateStage1 ea pa e e' l2 entry (fun s => .ok s ia (if e' = e then l else leafOf e'))

/-- The MT code of both stages together (R93); 4 where both stages are off. -/
def combineMt (s1on s2on : Bool) (m1 m2 : Nat) : Nat :=
  if !s1on && !s2on then 4
  else
    let a := if s1on then m1 else 0
    let b := if s2on then m2 else 0
    if a = 3 ∨ b = 3 then 3 else if a = 2 ∨ b = 2 then 2 else if a = 1 ∨ b = 1 then 1 else 0

/-- The memory type of an MT code at a physical address: with both stages off it is the physical map's (R93). -/
def State.typeOf (s : State) (mt pa : Nat) : MemType :=
  match mt with
  | 0 => .cached
  | 1 => .uncached
  | 2 => .scratch
  | 3 => .device
  | _ => if inScratch pa then .scratch
         else match s.region pa with
           | some r => if r.device then .device else .cached
           | none => .cached

/-- The checks after the walk: the region of R98, then the attributes of R81. -/
def State.checkPhys (s : State) (a : Access) (pa mt : Nat) : Xl :=
  let bad : Option FaultKind :=
    if inScratch pa then none
    else match s.region pa with
      | none => some .noRegion
      | some r => if r.secure then some .secure else none
  match bad with
  | some k => .fault s (s.faultOf a a.kind.permCause k 7)
  | none =>
    let ty := s.typeOf mt pa
    if inScratch pa != decide (ty = .scratch) then .fault s (s.attrFault a) else .ok s (.phys pa ty)

/-! ### The TLBs (R104) -/

/-- The slot translates the page for the current ASID. -/
def TlbSlot.covers (t : TlbSlot) (va : Word) (asid : BitVec 16) : Bool :=
  decide (t.vpage ≤ va.toNat / 2 ^ 14) && decide (va.toNat / 2 ^ 14 < t.vpage + t.span) && (t.g || t.asid == asid)

/-- The physical address that a slot gives an address it covers. -/
def TlbSlot.physical (t : TlbSlot) (va : Word) : Nat := (t.ppage + (va.toNat / 2 ^ 14 - t.vpage)) * 2 ^ 14 + va.toNat % 2 ^ 14

/-- The slot serves the access without another walk: it permits it and holds the D state it needs (R92, R106). -/
def TlbSlot.serves (t : TlbSlot) (a : Access) : Bool :=
  permits a.kind t.r t.w t.x && (!t.s1 || permits1 a.kind t.r t.w t.x t.u a.priv) && (t.d || !a.kind.dirties)

/-- The slot made by a walk: the smaller group of both stages, and the intersection of their permissions (R94, R104). -/
def State.makeSlot (s : State) (a : Access) (ia pa : Nat) (l1 l2 : Leaf) (mt : Nat) : TlbSlot :=
  let span := Nat.min l1.span l2.span
  let vp := a.va.toNat / 2 ^ 14
  let k := vp % span
  -- a group is held whole only where both sides are aligned alike; otherwise the one page is held
  let aligned := k = ia / 2 ^ 14 % span ∧ k = pa / 2 ^ 14 % span
  let k := if aligned then k else 0
  { vpage := vp - k, span := if aligned then span else 1, asid := s.xl.asid, g := s.xl.s1en && l1.g,
    ipage := ia / 2 ^ 14 - k, ppage := pa / 2 ^ 14 - k, r := l1.r && l2.r, w := l1.w && l2.w, x := l1.x && l2.x,
    u := l1.u, s1 := s.xl.s1en, mt := BitVec.ofNat 3 mt, d := l1.d && l2.d }

/-- A slot enters a fully associative TLB of `cap` slots, in the place of the slot that the draw picks where it is full. -/
def putSlot (cap k : Nat) (t : TlbSlot) (l : List TlbSlot) : List TlbSlot :=
  if cap ≤ l.length then t :: l.eraseIdx (k % l.length) else t :: l

/-- The set of the L2 TLB that a slot lies in: 512 sets, by its page or group number (log 9). -/
def TlbSlot.set (t : TlbSlot) : Nat := t.vpage / t.span % 512

/-- A slot enters its set of 6 ways of the L2 TLB. -/
def putL2 (k : Nat) (t : TlbSlot) (l : List TlbSlot) : List TlbSlot :=
  let ways := l.filter (fun x => x.set == t.set)
  if 6 ≤ ways.length then t :: l.erase (ways.getD (k % ways.length) t) else t :: l

/-- A slot enters the L1 TLB of its side, which only SPLIT has. -/
def Xlat.putL1 (x : Xlat) (fetch : Bool) (k : Nat) (t : TlbSlot) : Xlat :=
  if fetch then { x with itlb := putSlot 32 k t x.itlb } else { x with dtlb := putSlot 64 k t x.dtlb }

/-- A walk's translation enters the TLB: by the organisation, that of FLAT, or the L2 TLB and the L1 TLB of the access's side (R104). -/
def State.insertSlot (s : State) (fetch : Bool) (t : TlbSlot) : State :=
  let k := Config.tlbVictim s.free
  { s.drawn with xl :=
      if s.build.flatTlb then { s.xl with tlb := putSlot 512 k t s.xl.tlb }
      else ({ s.xl with tlb := putL2 k t s.xl.tlb } : Xlat).putL1 fetch k t }

/-- A walk of the tram engine enters the TLB that it shares with the core: FLAT's, or the L2 TLB (R104, log 122). -/
def State.insertShared (s : State) (t : TlbSlot) : State :=
  let k := Config.tlbVictim s.free
  { s.drawn with xl := { s.xl with tlb := if s.build.flatTlb then putSlot 512 k t s.xl.tlb else putL2 k t s.xl.tlb } }

/-- A slot of the L2 TLB, or of FLAT's, for an address, where the draw says that it is still resident. -/
def State.lookL2 (s : State) (va : Word) : State × Option TlbSlot :=
  match s.xl.tlb.find? (fun t => t.covers va s.xl.asid) with
  | none => (s, none)
  | some t => if Config.tlbHit s.free then (s.drawn, some t) else ({ s.drawn with xl := { s.xl with tlb := s.xl.tlb.erase t } }, none)

/-- A slot for an address: of the L1 TLB of the access's side, then of the L2 TLB, from which the L1 is filled. -/
def State.lookTlb (s : State) (fetch : Bool) (va : Word) : State × Option TlbSlot :=
  let l1 := if s.build.flatTlb then [] else if fetch then s.xl.itlb else s.xl.dtlb
  let below (s : State) : State × Option TlbSlot :=
    match s.lookL2 va with
    | (s, some t) =>
      (if s.build.flatTlb then s else { s.drawn with xl := s.xl.putL1 fetch (Config.tlbVictim s.free) t }, some t)
    | r => r
  match l1.find? (fun t => t.covers va s.xl.asid) with
  | none => below s
  | some t =>
    if Config.tlbHit s.free then (s.drawn, some t)
    else below { s.drawn with xl := if fetch then { s.xl with itlb := s.xl.itlb.erase t } else { s.xl with dtlb := s.xl.dtlb.erase t } }

/-- The slots that `keep` names stay in every TLB, and no others. -/
def Xlat.keepSlots (x : Xlat) (keep : TlbSlot → Bool) : Xlat :=
  { x with itlb := x.itlb.filter keep, dtlb := x.dtlb.filter keep, tlb := x.tlb.filter keep }

/-- The outcome of the walk of both stages. -/
inductive Walk where
  /-- The intermediate and the physical address, and what each stage gives. -/
  | ok (s : State) (ia pa : Nat) (l1 l2 : Leaf)
  | fault (s : State) (e : Exc)
  | held (s : State) (f : S2Fault)
  | restart (s : State)

/-- The walk of both stages for an access (R95). -/
def State.walkStages (s : State) (a : Access) : Walk :=
  let first : S1 :=
    if s.xl.s1en then
      s.walk1 a s.s1levels (s.xl.s1root.toNat * 2 ^ 14) (List.range s.s1levels)
    else .ok s (a.va.toNat % 2 ^ 47) (Leaf.identity (a.va.toNat % 2 ^ 47 / 2 ^ 14))
  match first with
  | .fault s e => .fault s e
  | .held s f => .held s f
  | .restart s => .restart s
  | .ok s ia l1 =>
    match s.stage2 ia { kind := a.kind, s1walk := false, ad := false } with
    | .held s f => .held s f
    | .restart s => .restart s
    | .ok s pa l2 _ => .ok s ia pa l1 l2

/-- A TLB fill whose walk went through stage 2 is a FILL event of the heat table (12 R262). -/
def State.heatFill (s : State) (ia : Nat) : State :=
  if s.xl.s2en then s.heatPush false (BitVec.ofNat 33 (ia / 2 ^ 14)) else s

/-- Walk both stages and enter the translation into the TLB (R95). A walk that is to restart does so when the access is next
attempted (R92, log 7). -/
def State.walkBoth (s : State) (a : Access) (req : Nat) : Xl :=
  let fetch := decide (a.kind = .fetch)
  match s.walkStages a with
  | .fault s e => .fault s e
  | .held s f => .hold (s.holdFault f a.va req fetch (coreWaiter s a f))
  | .restart s => .hold s
  | .ok s ia pa l1 l2 =>
    let mt := combineMt s.xl.s1en s.xl.s2en l1.mt l2.mt
    let slot := s.makeSlot a ia pa l1 l2 mt
    match s.checkPhys a pa mt with
    | .ok s loc => .ok ((s.insertSlot fetch slot).heatFill ia) loc
    | r => r

/-- The width of a canonical virtual address (R87), 64 for the 5-level form. -/
def State.vaWidth (s : State) : Nat := match s.xl.levels.toNat with | 0 => 47 | 1 => 58 | _ => 64

/-- The address is of a size that the stage-1 form admits (R87, R88). -/
def State.vaSizeOk (s : State) (va : Word) : Bool :=
  if s.xl.s1en then
    let w := s.vaWidth
    let top := va.toNat / 2 ^ (w - 1)
    top == 0 || top == 2 ^ (65 - w) - 1
  else va.toNat / 2 ^ 47 == 0

/-- The checks of on-core memory (05 R133). -/
def State.checkOnCore (s : State) (a : Access) : Xl :=
  if a.tile then .fault s (s.attrFault a)
  else if !a.priv || (a.kind.writes && !s.bank.vswe) then .fault s (s.faultOf a a.kind.permCause .perm 7)
  else .ok s (.onCore (a.va.toNat - onCoreBase))

/-- Translate and check one access (04 R95, R99): on-core memory, the address size, a resident TLB slot, or the walk.
`req` is the REQ code of a held record. -/
def State.translate (s : State) (a : Access) (req : Nat := 0) : Xl :=
  if onCoreBase ≤ a.va.toNat then s.checkOnCore a
  else if !s.vaSizeOk a.va then .fault s (s.faultOf a a.kind.transCause .addrSize 0)
  else
    match s.lookTlb (decide (a.kind = .fetch)) a.va with
    | (s, none) => s.walkBoth a req
    | (s, some t) => if t.serves a then s.checkPhys a (t.physical a.va) t.mt.toNat else s.walkBoth a req

end Sys2Proof.Machine
end

