-- ==== Sys2Proof/Machine/MemAccess.lean ====
section
/-! DEFINITION. Scalar memory accesses (03 R64, R65, R73 to R75, R80, R81; 02 R41; 16 R353): one access of up to 8 bytes
by the core, split at a 64-byte line, against the store buffer, with its faults. -/

namespace Sys2Proof.Machine

/-- Usable tile-store banks: TSCAP.USABLE (03 Table 3.8). -/
def State.tsUsable (s : State) : Nat := (if s.build.twoDies then 384 else 192) - s.res.fills[1].retired.length

/-- TSCAP.STEPS: whole 16 MB steps of 32 banks (03 R79). -/
def State.tsSteps (s : State) : Nat := s.tsUsable / 32

/-- The window address lies at or beyond the scratch that is backed (03 R81). -/
def State.unbacked (s : State) (pa : Nat) : Bool :=
  inScratch pa && decide ((s.tsSteps - s.ts.cache16.toNat) * 2 ^ 24 ≤ pa - scratchBase)

/-- Note an unbacked window access: UNB, UNBCNT, and the captured address while none is held (03 R81). -/
def State.noteUnbacked (s : State) (pa : Nat) : State :=
  let t := { s.ts with unb := true, unbcnt := satInc s.ts.unbcnt }
  { s with ts := if t.unValid then t
                 else { t with unValid := true, unSeq := t.unSeq + 1, unAddr := BitVec.ofNat 47 pa } }

/-- The access waits for the zero-fill of a scratch step that was cache; an address that is not backed does not (03 R81, R82). -/
def State.waitsForFill (s : State) (pa : Nat) : Bool :=
  s.ts.busy && inScratch pa && decide (s.ts.kept * 2 ^ 24 ≤ pa - scratchBase) && !s.unbacked pa

/-- The parts of an access: one, or two where it crosses a 64-byte line (03 R74). -/
def accessParts (va : Word) (n : Nat) : List (Word × Nat) :=
  let k := 64 - va.toNat % 64
  if n ≤ k then [(va, n)] else [(va, k), (va + wd k, n - k)]

/-- The outcome of checking the parts of an access. -/
inductive Parts where
  | ok (s : State) (parts : List (Loc × Nat))
  | exc (s : State) (e : Exc)
  | wait (s : State)

/-- Translate and check one part; on a side-effect page only a single aligned access is permitted (R64, R74). -/
def State.checkPart (s : State) (a : Access) (aligned : Bool) : Xl :=
  match s.translate a with
  | .ok s (.phys pa .device) => if aligned then .ok s (.phys pa .device) else .fault s (s.attrFault a)
  | r => r

/-- Translate and check every part before any is performed (R74). -/
def State.checkParts (s : State) (kind : AccKind) (va : Word) (n : Nat) : Parts :=
  let a : Access := { kind := kind, va := va, eaddr := va, priv := s.super }
  let aligned := decide (va.toNat % n = 0)
  match accessParts va n with
  | [(_, k)] =>
    match s.checkPart a aligned with
    | .fault s e => .exc s e
    | .hold s => .wait s
    | .ok s loc => .ok s [(loc, k)]
  | [(_, k), (va2, k2)] =>
    match s.checkPart a aligned with
    | .fault s e => .exc s e
    | .hold s => .wait s
    | .ok s loc =>
      match s.checkPart { a with va := va2, eaddr := va2, part2 := true } false with
      | .fault s e => .exc s e
      | .hold s => .wait s
      | .ok s loc2 => .ok s [(loc, k), (loc2, k2)]
  | _ => .wait s

/-- A part waits for a zero-fill (03 R82). -/
def State.partWaits (s : State) : Loc × Nat → Bool
  | (.onCore _, _) => false
  | (.phys pa _, _) => s.waitsForFill pa

/-- Read one part at `va`: its value, and whether it is poisoned. -/
def State.readPart (s : State) (va : Word) : Loc × Nat → State × Nat × Bool
  | (.onCore off, n) =>
    (s, s.mem.onCoreNat off n, nsMem (off / 64) s.mem.onCorePoison || nsMem ((off + n - 1) / 64) s.mem.onCorePoison)
  | (.phys pa ty, n) =>
    if s.unbacked pa then (s.noteUnbacked pa, 0, false)
    else
      let s := s.l1Load va ty pa n
      let (m, v, p) := s.mem.loadThrough ty pa n
      ({ s with mem := m }, v, p)

/-- Write one part: into the store buffer, at once on-core, nowhere where unbacked. -/
def State.writePart (s : State) (release : Bool) (v : Nat) : Loc × Nat → State
  | (.onCore off, n) => { s with mem := s.mem.setOnCoreNat off v n }
  | (.phys pa ty, n) =>
    if s.unbacked pa then s.noteUnbacked pa
    else
      let e : StoreEntry :=
        { pa := pa, size := n, data := wd (v % 2 ^ (8 * n)), ty := ty, release := release, poison := false }
      { s with mem := s.mem.pushStore e }

/-- The outcome of a load. -/
inductive Ld where
  | ok (s : State) (v : Nat)
  /-- A device read is to be issued at this physical address (R65). -/
  | device (s : State) (pa : Nat)
  | exc (s : State) (e : Exc)
  | wait (s : State)

/-- The cause 25 of a load that meets poison (16 R353). -/
def poisonExc (va : Word) : Exc := { cause := 25, eaddr := va }

/-- A scalar load of `n` bytes at `va` (03 R74, R75), an acquire load where `acq` (R69). Earlier device stores are performed before a
device read (R65, Table 3.3). -/
def State.load (s : State) (va : Word) (n : Nat) (acq : Bool := false) : Ld :=
  match s.checkParts .load va n with
  | .exc s e => .exc s e
  | .wait s => .wait s
  | .ok s parts =>
    if parts.any s.partWaits then .wait s
    else
      let s := if acq then { s with mem := s.mem.acquire } else s
      match parts with
      | [(.phys pa .device, _)] => .device { s with mem := s.mem.drain } pa
      | [p] =>
        let (t, v, bad) := s.readPart va p
        if bad then .exc s (poisonExc va) else .ok t v
      | [p, q] =>
        let (t, v, bad) := s.readPart va p
        let (t, w, bad') := t.readPart (va + wd p.2) q
        if bad || bad' then .exc s (poisonExc va) else .ok t (v + 2 ^ (8 * p.2) * w)
      | _ => .wait s

/-- A device read is issued, and its instruction waits for the answer (03 R65, 17 Table 17.4). -/
def State.issueDevice (s : State) (dest : DevDest) (pa n : Nat) (va : Word) : State :=
  let t := s.portRead 0 false .device pa n
  { t with core := { t.core with devLoads := t.core.devLoads ++
      [{ level := t.lvl, dest := dest, pa := pa, va := va, background := false, tries := 0 }] } }

/-- The outcome of a store. -/
inductive St where
  | ok (s : State)
  | exc (s : State) (e : Exc)
  | wait (s : State)

/-- A scalar store of the low `n` bytes of `v` at `va` (03 R74). -/
def State.store (s : State) (va : Word) (n : Nat) (v : Word) (release : Bool) : St :=
  match s.checkParts .store va n with
  | .exc s e => .exc s e
  | .wait s => .wait s
  | .ok s parts =>
    if parts.any s.partWaits then .wait s
    else
      match parts with
      | [p] => .ok (s.writePart release v.toNat p)
      | [p, q] => .ok ((s.writePart release v.toNat p).writePart release (v.toNat / 2 ^ (8 * p.2)) q)
      | _ => .wait s

/-- The request of an atomic on normal uncached memory (17 Table 17.2, AOP). -/
def atomicReq (op pa : Nat) : PortReq :=
  { pa := pa, src := 0, dev := false, sec := false, size := 0, aop := BitVec.ofNat 4 (op + 1) }

/-- An atomic read and write of `n` bytes at `va`, the new value computed from the old (02 R41, 03 R67); `op` is its code. Buffered
stores, releases among them, are performed first. -/
def State.atomic (s : State) (op : Nat) (va : Word) (n : Nat) (f : Nat → Nat) : Ld :=
  let a : Access := { kind := .atomic, va := va, eaddr := va, priv := s.super }
  if va.toNat % n ≠ 0 then .exc s (s.attrFault a)
  else
    match s.translate a with
    | .fault s e => .exc s e
    | .hold s => .wait s
    | .ok s (.phys _ .device) => .exc s (s.attrFault a)
    | .ok s loc =>
      if s.partWaits (loc, n) then .wait s
      else
        let t := { s with mem := s.mem.drain }
        let (t, v, bad) := t.readPart va (loc, n)
        if bad then .exc s (poisonExc va)
        else
          let t := match loc with
            | .onCore off => { t with mem := t.mem.setOnCoreNat off (f v) n }
            | .phys pa ty =>
              if t.unbacked pa then t
              else if ty = .uncached then { t with mem := (t.mem.setBackNat pa (f v) n).offerWrite (atomicReq op pa) }
              else { t with mem := t.mem.writeTy ty pa n (f v) }
          .ok t v

end Sys2Proof.Machine
end

