-- ==== Sys2Proof/Machine/Issue.lean ====
section
/-! DEFINITION. Around every instruction of the scalar core: whether the core issues one at all, what is raised before it
executes (deferred faults, breakpoints, the fetch's own faults), and what its completion does (the hardware loop, INSTRET,
single step). -/

namespace Sys2Proof.Machine

/-- What an instruction does in the state it issues in. -/
inductive IRes where
  /-- Completed; the next instruction follows, or the hardware loop decides (02 R47). -/
  | done (s : State)
  /-- Completed with a transfer of control. -/
  | jump (s : State) (target : Word)
  /-- Completed with PC and level already set (ERET, a task switch). -/
  | moved (s : State)
  /-- Raises a synchronous exception. -/
  | exc (s : State) (e : Exc)
  /-- Waits: nothing of the instruction has happened, and it is to be issued again (log 7). -/
  | wait (s : State)

/-- Cause 1 for a word with a reserved field set (02 R26): EADDR holds the word. -/
def undefinedWord (w : Word) : Exc := { cause := 1, eaddr := w }

/-- Cause 2 for a Supervisor instruction at User privilege (02 R54): EADDR holds the word. -/
def privilegedWord (w : Word) : Exc := { cause := 2, eaddr := w }

/-- An access of the core waits on a held stage-2 fault (04 R101). -/
def State.coreHeld (s : State) : Bool :=
  s.xl.held.toList.any (fun r => r.valid && r.waiters.any (fun w => match w with | .core _ _ _ => true | .tram _ _ => false))

/-- The core runs instructions: its clock and reset let it, no SLEEP, and a task at level 0 (05 R123, R124, 17 R397). -/
def State.coreRuns (s : State) : Bool :=
  (decide (s.core.mode = .run) || (decide (s.core.mode = .halted) && s.core.stepGrant)) && !s.core.sleeping
    && (decide (s.lvl ≠ 0) || s.core.taskRunning)

/-- Whether the core issues an instruction: it runs, no access of its own is held, and no device load or winze request of its own is
still unanswered (02 R59, 03 R65, 04 R101). -/
def State.canIssue (s : State) : Bool :=
  s.coreRuns && s.core.devLoads.all (fun d => decide (d.level ≠ s.lvl)) && s.wz.req.isNone && !s.coreHeld

/-- A deferred fault that the level raises before it executes anything: a winze fault first (02 R62), then a poisoned
device load (03 R77), then the misaligned return address of a RET (02 R44, log 157). -/
def State.deferredFault (s : State) : Option (State × Exc) :=
  let d := s.core.deferred[s.lvl]
  if d.wzPend then
    some ({ s with core := { s.core with deferred := s.core.deferred.set s.lvl { d with wzPend := false } } },
      { cause := if d.wzKind then 1 else 20, eaddr := d.wzEaddr, einfo := d.wzEinfo })
  else if d.devPend then
    some ({ s with core := { s.core with deferred := s.core.deferred.set s.lvl { d with devPend := false } } },
      { cause := 25, eaddr := s.bank.eaddr, einfo := 1 })
  else match d.retBad with
    | some t => some ({ s with core := { s.core with deferred := s.core.deferred.set s.lvl { d with retBad := none } } },
        { cause := 3, eaddr := t })
    | none => none

/-- An enabled comparator matches the fetch address (17 R398). -/
def State.breakpointHit (s : State) : Bool :=
  s.core.dbgBp.toList.any (fun b => b.getLsbD 0 && b >>> 2 == s.bank.pc >>> 2)

/-- A bank image marked poisoned by a failed class-3 fill: at the entry to or run of its level, escalation with original
cause 25, EINFO[2] = 1 and EADDR = 0 (16 Table 16.5). -/
def State.checkBankPoison (s : State) : State :=
  if s.res.bankPoison[s.lvl] then
    let s := { s with res := { s.res with bankPoison := s.res.bankPoison.set s.lvl false } }
    s.escalate 25 0 4 s.bank.pc
  else s

/-- What comes before an instruction executes. -/
inductive Pre where
  /-- Nothing executes: the state stays, or an exception has been taken. -/
  | stay (s : State)
  /-- The instruction executes in this state. -/
  | go (s : State)

/-- The access that fetches the current instruction. -/
def State.fetchAccess (s : State) : Access :=
  { kind := .fetch, va := s.bank.pc, eaddr := s.bank.pc, priv := s.super }

/-- The granule fetched from is poisoned (16 R353, Table 16.1 class 6). -/
def State.fetchPoisoned (s : State) : Loc → Bool
  | .onCore off => nsMem (off / 64) s.mem.onCorePoison
  | .phys pa ty => s.mem.poisonedTy ty pa

/-- The fetch goes to memory where no cache serves it (17 Table 17.3, SRC 1). -/
def State.offerFetch (s : State) : Loc → State
  | .onCore _ => s
  | .phys pa ty => s.portRead 1 false ty pa 4

/-- Everything before execution: a poisoned bank, deferred faults, breakpoint, then the fetch. -/
def State.preIssue (s : State) : Pre :=
  if !s.canIssue then .stay s
  else if s.res.bankPoison[s.lvl] then .stay s.checkBankPoison
  else
    match s.deferredFault with
    | some (t, e) => .stay (t.takeException e)
    | none =>
      if s.breakpointHit then .stay (s.takeException { cause := 24, eaddr := s.bank.pc, einfo := 1 })
      else
        match s.translate s.fetchAccess with
        | .hold t => .stay t
        | .fault t e => .stay (t.takeException e)
        | .ok t loc =>
          let t := t.offerFetch loc
          if t.fetchPoisoned loc then .stay (t.takeException { cause := 25, eaddr := t.bank.pc, einfo := 2 })
          else .go t

/-- The next PC after a completed instruction that does not transfer control: the loop-end decision (02 R47), taken on
the loop registers as the instruction leaves them (log 11). -/
def State.advancePc (s : State) : State :=
  let b := s.bank
  if b.lc ≠ 0 ∧ b.pc = b.le then
    s.setBank { b with lc := b.lc - 1, pc := if b.lc - 1 ≠ 0 then b.lb else b.le + 4 }
  else s.setPc (b.pc + 4)

/-- A completed instruction is counted (02 Table 2.13). After an ERET it is the one that R129 lets execute first: one that faults before it
completes leaves the shadow, and the first instruction of its handler ends it (log 168). -/
def State.counted (s : State) : State := { s with core := { s.core with instret := s.core.instret + 1, eretShadow := false } }

/-- The debug step is used up: the core halts (17 R397). -/
def State.halted (s : State) : State := { s with core := { s.core with stepGrant := false, mode := .halted } }

/-- A completed instruction is counted; the debug step (17 R397) and single step (R398) follow. -/
def State.retire (s : State) : State :=
  let s := s.counted
  let s := if s.core.stepGrant then s.halted else s
  if s.core.dbgStep.getLsbD s.lvl.val && !s.bank.excm then s.takeException { cause := 26, eaddr := s.bank.pc } else s

/-- The end of an instruction. -/
def IRes.finish : IRes → State
  | .done s => s.advancePc.retire
  | .jump s t => (s.setPc t).retire
  | .moved s => s
  | .exc s e => s.takeException e
  | .wait s => s

/-- One instruction of the scalar core. -/
def State.issue (s : State) (body : State → IRes) : Host.Outcome State Fault Refusal :=
  answer s (match s.preIssue with
    | .stay t => t
    | .go t => (body t).finish)

/-- An instruction whose word has reserved fields: cause 1 where one is set (02 R26). -/
def guardRsv (ok : Bool) (w : Word) (s : State) (r : IRes) : IRes := if ok then r else .exc s (undefinedWord w)

/-- A Supervisor instruction: cause 2 at User privilege (02 R54). -/
def guardPriv (w : Word) (s : State) (r : IRes) : IRes := if s.super then r else .exc s (privilegedWord w)

end Sys2Proof.Machine
end

