-- ==== Sys2Proof/Machine/Alu.lean ====
section
/-! DEFINITION. Integer instructions (02 R32, R33, R35): the register ALU group, the immediates, multiply and divide. -/

namespace Sys2Proof.Machine

/-- rd := result with its flags. -/
def State.putResult (s : State) (rd : RegIx) (r : Word × Flags) : IRes := .done ((s.writeG rd r.1).setFl r.2)

/-- A register ALU operation of Table 2.6 on ra and rb. -/
def aluOp (w : Word) (rd ra rb rsv : RegIx) (f : Flags → Word → Word → Word × Flags) (s : State) :
    Host.Outcome State Fault Refusal :=
  s.issue fun s => guardRsv (rsv == 0) w s (s.putResult rd (f s.bank.fl (s.readG ra) (s.readG rb)))

/-- A register ALU operation of Table 2.6 on ra alone; the rb field is reserved (R32). -/
def aluUnary (w : Word) (rd ra rb rsv : RegIx) (f : Word → Word × Flags) (s : State) :
    Host.Outcome State Fault Refusal :=
  s.issue fun s => guardRsv (rsv == 0 && rb == 0) w s (s.putResult rd (f (s.readG ra)))

/-- An immediate operation on ra (R33). -/
def aluImm (rd ra : RegIx) (f : Word → Word × Flags) (s : State) : Host.Outcome State Fault Refusal :=
  s.issue fun s => s.putResult rd (f (s.readG ra))

/-- A result with the logic flags. -/
def logicOf (r : Word) : Word × Flags := (r, logicFlags r)

/-- Leading zeros of the low `k` bits of a value, from bit `k − 1` down. -/
def clzFrom (a : Word) : Nat → Nat
  | 0 => 0
  | k + 1 => if a.getLsbD k then 0 else 1 + clzFrom a k

/-- Trailing zeros among the top `k` bits of a value, from bit `64 − k` up. -/
def ctzFrom (a : Word) : Nat → Nat
  | 0 => 0
  | k + 1 => if a.getLsbD (63 - k) then 0 else 1 + ctzFrom a k

/-- Set bits among the low `k` bits. -/
def popFrom (a : Word) : Nat → Nat
  | 0 => 0
  | k + 1 => bit (a.getLsbD k) + popFrom a k

/-- A count with the flags of CLZ, CTZ and POPC (Table 2.6). -/
def countOf (a : Word) (n : Nat) : Word × Flags := (wd n, carryFlags (wd n) (a == 0))

/-- A multiply or divide operation (R35). -/
def mulDivOp (w : Word) (rd ra rb : RegIx) (rsv : BitVec 9) (f : Word → Word → Word × Bool) (s : State) :
    Host.Outcome State Fault Refusal :=
  s.issue fun s => guardRsv (rsv == 0) w s
    (let r := f (s.readG ra) (s.readG rb); s.putResult rd (r.1, mulDivFlags r.1 r.2))

/-- MUL: the low half, V where the signed product does not fit (R35). -/
def mulLow (a b : Word) : Word × Bool :=
  let p := a.toInt * b.toInt
  (a * b, decide (p < -(2 ^ 63)) || decide (2 ^ 63 ≤ p))

/-- MULH: the high half of the signed product (R35). -/
def mulHighSS (a b : Word) : Word × Bool := (BitVec.ofInt 64 (a.toInt * b.toInt / 2 ^ 64), false)

/-- MULHU: the high half of the unsigned product (R35). -/
def mulHighUU (a b : Word) : Word × Bool := (wd (a.toNat * b.toNat / 2 ^ 64), false)

/-- MULHSU: the high half of signed ra times unsigned rb (R35). -/
def mulHighSU (a b : Word) : Word × Bool := (BitVec.ofInt 64 (a.toInt * b.toNat / 2 ^ 64), false)

/-- Signed overflow of a division: −2^63 by −1 (R35). -/
def divOverflows (a b : Word) : Bool := a == BitVec.intMin 64 && b == BitVec.allOnes 64

/-- DIV: rounded toward zero; all ones for a zero divisor, −2^63 on overflow (R35). -/
def divSigned (a b : Word) : Word × Bool :=
  if b = 0 then (BitVec.allOnes 64, true) else if divOverflows a b then (a, true)
  else (BitVec.ofInt 64 (a.toInt.tdiv b.toInt), false)

/-- DIVU: all ones for a zero divisor (R35). -/
def divUnsigned (a b : Word) : Word × Bool :=
  if b = 0 then (BitVec.allOnes 64, true) else (wd (a.toNat / b.toNat), false)

/-- REM: the dividend's sign; the dividend for a zero divisor, 0 on overflow (R35). -/
def remSigned (a b : Word) : Word × Bool :=
  if b = 0 then (a, true) else if divOverflows a b then (0, true)
  else (BitVec.ofInt 64 (a.toInt.tmod b.toInt), false)

/-- REMU: the dividend for a zero divisor (R35). -/
def remUnsigned (a b : Word) : Word × Bool := if b = 0 then (a, true) else (wd (a.toNat % b.toNat), false)

/-- ADD: ra + rb, flags by R30. -/
def execAdd (rd ra rb rsv : RegIx) (s : State) : Host.Outcome State Fault Refusal :=
  aluOp (encR6 0x00 rd ra rb 0x01 rsv) rd ra rb rsv (fun _ a b => addc a b false) s

/-- SUB: ra − rb; C is 1 where ra ≥ rb unsigned (R30). -/
def execSub (rd ra rb rsv : RegIx) (s : State) : Host.Outcome State Fault Refusal :=
  aluOp (encR6 0x00 rd ra rb 0x02 rsv) rd ra rb rsv (fun _ a b => addc a (~~~b) true) s

/-- ADC: ra + rb + C (R30). -/
def execAdc (rd ra rb rsv : RegIx) (s : State) : Host.Outcome State Fault Refusal :=
  aluOp (encR6 0x00 rd ra rb 0x03 rsv) rd ra rb rsv (fun f a b => addc a b f.c) s

/-- SBC: ra − rb − (1 − C) (R30). -/
def execSbc (rd ra rb rsv : RegIx) (s : State) : Host.Outcome State Fault Refusal :=
  aluOp (encR6 0x00 rd ra rb 0x04 rsv) rd ra rb rsv (fun f a b => addc a (~~~b) f.c) s

/-- AND. -/
def execAnd (rd ra rb rsv : RegIx) (s : State) : Host.Outcome State Fault Refusal :=
  aluOp (encR6 0x00 rd ra rb 0x05 rsv) rd ra rb rsv (fun _ a b => logicOf (a &&& b)) s

/-- OR. -/
def execOr (rd ra rb rsv : RegIx) (s : State) : Host.Outcome State Fault Refusal :=
  aluOp (encR6 0x00 rd ra rb 0x06 rsv) rd ra rb rsv (fun _ a b => logicOf (a ||| b)) s

/-- XOR. -/
def execXor (rd ra rb rsv : RegIx) (s : State) : Host.Outcome State Fault Refusal :=
  aluOp (encR6 0x00 rd ra rb 0x07 rsv) rd ra rb rsv (fun _ a b => logicOf (a ^^^ b)) s

/-- ANDN: ra and not rb. -/
def execAndn (rd ra rb rsv : RegIx) (s : State) : Host.Outcome State Fault Refusal :=
  aluOp (encR6 0x00 rd ra rb 0x08 rsv) rd ra rb rsv (fun _ a b => logicOf (a &&& ~~~b)) s

/-- SHL by rb[5:0]. -/
def execShl (rd ra rb rsv : RegIx) (s : State) : Host.Outcome State Fault Refusal :=
  aluOp (encR6 0x00 rd ra rb 0x09 rsv) rd ra rb rsv (fun _ a b => shiftLeft a (b.toNat % 64)) s

/-- SHR by rb[5:0]. -/
def execShr (rd ra rb rsv : RegIx) (s : State) : Host.Outcome State Fault Refusal :=
  aluOp (encR6 0x00 rd ra rb 0x0A rsv) rd ra rb rsv (fun _ a b => shiftRight a (b.toNat % 64)) s

/-- SAR by rb[5:0]. -/
def execSar (rd ra rb rsv : RegIx) (s : State) : Host.Outcome State Fault Refusal :=
  aluOp (encR6 0x00 rd ra rb 0x0B rsv) rd ra rb rsv (fun _ a b => shiftArith a (b.toNat % 64)) s

/-- ROR by rb[5:0]. -/
def execRor (rd ra rb rsv : RegIx) (s : State) : Host.Outcome State Fault Refusal :=
  aluOp (encR6 0x00 rd ra rb 0x0C rsv) rd ra rb rsv (fun _ a b => rotateRight a (b.toNat % 64)) s

/-- MIN, signed. -/
def execMin (rd ra rb rsv : RegIx) (s : State) : Host.Outcome State Fault Refusal :=
  aluOp (encR6 0x00 rd ra rb 0x0D rsv) rd ra rb rsv (fun _ a b => logicOf (if a.toInt ≤ b.toInt then a else b)) s

/-- MAX, signed. -/
def execMax (rd ra rb rsv : RegIx) (s : State) : Host.Outcome State Fault Refusal :=
  aluOp (encR6 0x00 rd ra rb 0x0E rsv) rd ra rb rsv (fun _ a b => logicOf (if a.toInt ≤ b.toInt then b else a)) s

/-- MINU. -/
def execMinu (rd ra rb rsv : RegIx) (s : State) : Host.Outcome State Fault Refusal :=
  aluOp (encR6 0x00 rd ra rb 0x0F rsv) rd ra rb rsv (fun _ a b => logicOf (if a.toNat ≤ b.toNat then a else b)) s

/-- MAXU. -/
def execMaxu (rd ra rb rsv : RegIx) (s : State) : Host.Outcome State Fault Refusal :=
  aluOp (encR6 0x00 rd ra rb 0x10 rsv) rd ra rb rsv (fun _ a b => logicOf (if a.toNat ≤ b.toNat then b else a)) s

/-- CLZ: leading zeros, 0 to 64. -/
def execClz (rd ra rb rsv : RegIx) (s : State) : Host.Outcome State Fault Refusal :=
  aluUnary (encR6 0x00 rd ra rb 0x11 rsv) rd ra rb rsv (fun a => countOf a (clzFrom a 64)) s

/-- CTZ: trailing zeros, 0 to 64. -/
def execCtz (rd ra rb rsv : RegIx) (s : State) : Host.Outcome State Fault Refusal :=
  aluUnary (encR6 0x00 rd ra rb 0x12 rsv) rd ra rb rsv (fun a => countOf a (ctzFrom a 64)) s

/-- POPC: set bits. -/
def execPopc (rd ra rb rsv : RegIx) (s : State) : Host.Outcome State Fault Refusal :=
  aluUnary (encR6 0x00 rd ra rb 0x13 rsv) rd ra rb rsv (fun a => countOf a (popFrom a 64)) s

/-- SEXTB: ra[7:0] sign-extended. -/
def execSextb (rd ra rb rsv : RegIx) (s : State) : Host.Outcome State Fault Refusal :=
  aluUnary (encR6 0x00 rd ra rb 0x14 rsv) rd ra rb rsv (fun a => logicOf ((a.setWidth 8).signExtend 64)) s

/-- SEXTH: ra[15:0] sign-extended. -/
def execSexth (rd ra rb rsv : RegIx) (s : State) : Host.Outcome State Fault Refusal :=
  aluUnary (encR6 0x00 rd ra rb 0x15 rsv) rd ra rb rsv (fun a => logicOf ((a.setWidth 16).signExtend 64)) s

/-- SEXTW: ra[31:0] sign-extended. -/
def execSextw (rd ra rb rsv : RegIx) (s : State) : Host.Outcome State Fault Refusal :=
  aluUnary (encR6 0x00 rd ra rb 0x16 rsv) rd ra rb rsv (fun a => logicOf ((a.setWidth 32).signExtend 64)) s

/-- ZEXTB: ra[7:0] zero-extended. -/
def execZextb (rd ra rb rsv : RegIx) (s : State) : Host.Outcome State Fault Refusal :=
  aluUnary (encR6 0x00 rd ra rb 0x17 rsv) rd ra rb rsv (fun a => logicOf ((a.setWidth 8).setWidth 64)) s

/-- ZEXTH: ra[15:0] zero-extended. -/
def execZexth (rd ra rb rsv : RegIx) (s : State) : Host.Outcome State Fault Refusal :=
  aluUnary (encR6 0x00 rd ra rb 0x18 rsv) rd ra rb rsv (fun a => logicOf ((a.setWidth 16).setWidth 64)) s

/-- ZEXTW: ra[31:0] zero-extended. -/
def execZextw (rd ra rb rsv : RegIx) (s : State) : Host.Outcome State Fault Refusal :=
  aluUnary (encR6 0x00 rd ra rb 0x19 rsv) rd ra rb rsv (fun a => logicOf ((a.setWidth 32).setWidth 64)) s

/-- ADDI: ra + sext(imm16) (R33). -/
def execAddi (rd ra : RegIx) (imm : BitVec 16) (s : State) : Host.Outcome State Fault Refusal := aluImm rd ra (fun a => addc a (sext16 imm) false) s

/-- SUBI: ra − sext(imm16) (R33). -/
def execSubi (rd ra : RegIx) (imm : BitVec 16) (s : State) : Host.Outcome State Fault Refusal := aluImm rd ra (fun a => addc a (~~~(sext16 imm)) true) s

/-- ANDI (R33). -/
def execAndi (rd ra : RegIx) (imm : BitVec 16) (s : State) : Host.Outcome State Fault Refusal := aluImm rd ra (fun a => logicOf (a &&& zext16 imm)) s

/-- ORI (R33). -/
def execOri (rd ra : RegIx) (imm : BitVec 16) (s : State) : Host.Outcome State Fault Refusal := aluImm rd ra (fun a => logicOf (a ||| zext16 imm)) s

/-- XORI (R33). -/
def execXori (rd ra : RegIx) (imm : BitVec 16) (s : State) : Host.Outcome State Fault Refusal := aluImm rd ra (fun a => logicOf (a ^^^ zext16 imm)) s

/-- The shift of SHI by kind imm16[7:6] and amount imm16[5:0] (R33). -/
def shiftImm (imm : BitVec 16) (a : Word) : Word × Flags :=
  let n := imm.toNat % 64
  match imm.toNat / 64 % 4 with
  | 0 => shiftLeft a n
  | 1 => shiftRight a n
  | 2 => shiftArith a n
  | _ => rotateRight a n

/-- SHI: imm16[15:8] is reserved (Table 2.4). -/
def execShi (rd ra : RegIx) (imm : BitVec 16) (s : State) : Host.Outcome State Fault Refusal :=
  s.issue fun s => guardRsv (imm.toNat / 256 == 0) (encI 0x06 rd ra imm) s (s.putResult rd (shiftImm imm (s.readG ra)))

/-- ADDSP: SP := SP + sext(imm16); the rd and ra fields are reserved (R33, Table 2.4). -/
def execAddsp (rd ra : RegIx) (imm : BitVec 16) (s : State) : Host.Outcome State Fault Refusal :=
  s.issue fun s => guardRsv (rd == 0 && ra == 0) (encI 0x07 rd ra imm) s
    (let r := addc s.bank.sp (sext16 imm) false
     .done ((s.setSp r.1).setFl r.2))

/-- MUL. -/
def execMul (rd ra rb : RegIx) (rsv : BitVec 9) (s : State) : Host.Outcome State Fault Refusal :=
  mulDivOp (encR2 0x10 rd ra rb 0 rsv) rd ra rb rsv mulLow s

/-- MULH. -/
def execMulh (rd ra rb : RegIx) (rsv : BitVec 9) (s : State) : Host.Outcome State Fault Refusal :=
  mulDivOp (encR2 0x10 rd ra rb 1 rsv) rd ra rb rsv mulHighSS s

/-- MULHU. -/
def execMulhu (rd ra rb : RegIx) (rsv : BitVec 9) (s : State) : Host.Outcome State Fault Refusal :=
  mulDivOp (encR2 0x10 rd ra rb 2 rsv) rd ra rb rsv mulHighUU s

/-- MULHSU. -/
def execMulhsu (rd ra rb : RegIx) (rsv : BitVec 9) (s : State) : Host.Outcome State Fault Refusal :=
  mulDivOp (encR2 0x10 rd ra rb 3 rsv) rd ra rb rsv mulHighSU s

/-- DIV. -/
def execDiv (rd ra rb : RegIx) (rsv : BitVec 9) (s : State) : Host.Outcome State Fault Refusal :=
  mulDivOp (encR2 0x11 rd ra rb 0 rsv) rd ra rb rsv divSigned s

/-- DIVU. -/
def execDivu (rd ra rb : RegIx) (rsv : BitVec 9) (s : State) : Host.Outcome State Fault Refusal :=
  mulDivOp (encR2 0x11 rd ra rb 1 rsv) rd ra rb rsv divUnsigned s

/-- REM. -/
def execRem (rd ra rb : RegIx) (rsv : BitVec 9) (s : State) : Host.Outcome State Fault Refusal :=
  mulDivOp (encR2 0x11 rd ra rb 2 rsv) rd ra rb rsv remSigned s

/-- REMU. -/
def execRemu (rd ra rb : RegIx) (rsv : BitVec 9) (s : State) : Host.Outcome State Fault Refusal :=
  mulDivOp (encR2 0x11 rd ra rb 3 rsv) rd ra rb rsv remUnsigned s

end Sys2Proof.Machine
end

