-- ==== Sys2Proof/Machine/Philox.lean ====
section
/-! DEFINITION. The Philox4x32-10 generator and the composition of its counters (10 R231, R232, R234). -/

namespace Sys2Proof.Machine

/-- The four 32-bit words of a counter or a result. -/
structure Quad where
  x0 : Nat
  x1 : Nat
  x2 : Nat
  x3 : Nat
  deriving DecidableEq, Repr

/-- One round (R231). -/
def philoxRound (c : Quad) (k0 k1 : Nat) : Quad :=
  let p := 0xD2511F53 * c.x0
  let q := 0xCD9E8D57 * c.x2
  { x0 := (q / 2 ^ 32) ^^^ c.x1 ^^^ k0, x1 := q % 2 ^ 32, x2 := (p / 2 ^ 32) ^^^ c.x3 ^^^ k1, x3 := p % 2 ^ 32 }

/-- The rounds left, the key being advanced after each (R231). -/
def philoxRounds : Nat → Quad → Nat → Nat → Quad
  | 0, c, _, _ => c
  | n + 1, c, k0, k1 =>
    philoxRounds n (philoxRound c k0 k1) ((k0 + 0x9E3779B9) % 2 ^ 32) ((k1 + 0xBB67AE85) % 2 ^ 32)

/-- One call: the upper and lower 64 bits of the counter, and the key (R231). -/
def philox (hi lo key : Nat) : Quad :=
  philoxRounds 10 { x0 := lo % 2 ^ 32, x1 := lo / 2 ^ 32 % 2 ^ 32, x2 := hi % 2 ^ 32, x3 := hi / 2 ^ 32 % 2 ^ 32 }
    (key % 2 ^ 32) (key / 2 ^ 32 % 2 ^ 32)

/-- Word `i` of a stream record (Table 10.1). -/
def qWord (r : BitVec 256) (i : Nat) : Nat := r.toNat / 2 ^ (64 * i) % 2 ^ 64

/-- A record with word `i` replaced. -/
def qPut (r : BitVec 256) (i v : Nat) : BitVec 256 :=
  BitVec.ofNat 256 (r.toNat - qWord r i * 2 ^ (64 * i) + v % 2 ^ 64 * 2 ^ (64 * i))

/-- CURSOR (Table 10.1). -/
def qCursor (r : BitVec 256) : Nat := qWord r 2 % 2 ^ 48
/-- ARMED (Table 10.1). -/
def qArmed (r : BitVec 256) : Bool := bitOf (qWord r 2) 63
/-- TAG (Table 10.1). -/
def qTag (r : BitVec 256) : Nat := qWord r 3

/-- HI of a position-derived domain (R234). -/
def qHi (r : BitVec 256) (stepcnt mbatch : Word) : Nat :=
  (qWord r 1 + stepcnt.toNat * 2 ^ 20 + mbatch.toNat) % 2 ^ 64

/-- A sequential call on a stream: the result, and the record with CURSOR advanced (R234). -/
def qDraw (r : BitVec 256) : Quad × BitVec 256 :=
  let c := qCursor r
  let w := qWord r 2
  (philox (qWord r 1) c (qWord r 0), qPut r 2 (w - c + (c + 1) % 2 ^ 48))

/-- The 16-bit chunk of a stochastic promotion at (i, j) with end index `dend` (07 R186, Table 10.2). -/
def promotionChunk (r : BitVec 256) (stepcnt mbatch : Word) (tcoord i j dend : Nat) : Nat :=
  let lo := 2 ^ 60 + tcoord % 2 ^ 16 * 2 ^ 44 + i * 2 ^ 37 + j / 8 * 2 ^ 33 + dend % 2 ^ 32
  let x := philox (qHi r stepcnt mbatch) lo (qWord r 0)
  let n := j % 8
  let w := match n / 2 with | 0 => x.x0 | 1 => x.x1 | 2 => x.x2 | _ => x.x3
  w / 2 ^ (16 * (n % 2)) % 2 ^ 16

end Sys2Proof.Machine
end

