-- ==== Sys2Proof/Machine/Float.lean ====
section
/-! DEFINITION. Binary floating point (02 R36 to R39; IEEE 754-2019): F64, F32 and BF16 values taken apart exactly, and one
rounding of an exact value into a format. Also used by the tile formats, whose values are exact dyadic numbers too. -/

namespace Sys2Proof.Machine

/-- A rounding mode (02 Table 2.15). -/
inductive Rounding where
  /-- To nearest, ties to even. -/
  | nearest
  /-- Toward zero. -/
  | zero
  /-- Toward minus infinity. -/
  | down
  /-- Toward plus infinity. -/
  | up
  deriving DecidableEq, Repr

/-- FPCTL.RM (02 Table 2.15). -/
def roundingOf (b : BitVec 2) : Rounding :=
  match b.toNat with
  | 0 => .nearest
  | 1 => .zero
  | 2 => .down
  | _ => .up

/-- The parameters of a binary format: precision with the hidden bit, width of the exponent field, and bias. -/
structure FpParams where
  /-- Significand precision, hidden bit included. -/
  prec : Nat
  /-- Exponent field width. -/
  ew : Nat
  deriving DecidableEq, Repr

/-- The bias. -/
def FpParams.bias (p : FpParams) : Nat := 2 ^ (p.ew - 1) - 1

/-- The smallest exponent of a normal number. -/
def FpParams.emin (p : FpParams) : Int := 1 - p.bias

/-- The width of the encoding. -/
def FpParams.width (p : FpParams) : Nat := p.prec + p.ew

/-- The parameters of the scalar formats (02 R36). -/
def fpParams : FpFormat → FpParams
  | .f64 => { prec := 53, ew := 11 }
  | .f32 => { prec := 24, ew := 8 }
  | .bf16 => { prec := 8, ew := 8 }

/-- A floating-point datum: a NaN, an infinity, or the exact value (−1)^s · m · 2^e. -/
inductive Fp where
  | nan (signalling : Bool)
  | inf (neg : Bool)
  | fin (neg : Bool) (m : Nat) (e : Int)
  deriving DecidableEq, Repr

/-- Take an encoding apart. -/
def fpDecode (p : FpParams) (bits : Nat) : Fp :=
  let frac := bits % 2 ^ (p.prec - 1)
  let ex := bits / 2 ^ (p.prec - 1) % 2 ^ p.ew
  let neg := bitOf bits (p.width - 1)
  if ex = 2 ^ p.ew - 1 then
    if frac = 0 then .inf neg else .nan (!bitOf frac (p.prec - 2))
  else if ex = 0 then .fin neg frac (p.emin - (p.prec - 1 : Nat))
  else .fin neg (frac + 2 ^ (p.prec - 1)) ((ex : Int) - p.bias - (p.prec - 1 : Nat))

/-- The canonical quiet NaN of a format (02 R36). -/
def fpNan (p : FpParams) : Nat := (2 ^ p.ew - 1) * 2 ^ (p.prec - 1) + 2 ^ (p.prec - 2)

/-- An infinity of a format. -/
def fpInf (p : FpParams) (neg : Bool) : Nat := bit neg * 2 ^ (p.width - 1) + (2 ^ p.ew - 1) * 2 ^ (p.prec - 1)

/-- A zero of a format. -/
def fpZero (p : FpParams) (neg : Bool) : Nat := bit neg * 2 ^ (p.width - 1)

/-- The largest finite magnitude of a format, with a sign. -/
def fpMax (p : FpParams) (neg : Bool) : Nat := fpInf p neg - 1

/-- The IEEE exceptions that one operation raises (02 Table 2.16). -/
structure FpExc where
  /-- Invalid. -/
  nv : Bool := false
  /-- Division by zero. -/
  dz : Bool := false
  /-- Overflow. -/
  of : Bool := false
  /-- Underflow. -/
  uf : Bool := false
  /-- Inexact. -/
  nx : Bool := false
  deriving DecidableEq, Repr

/-- The exceptions as the bits of FPSTAT. -/
def FpExc.bits (x : FpExc) : BitVec 5 :=
  BitVec.ofNat 5 (16 * bit x.nv + 8 * bit x.dz + 4 * bit x.of + 2 * bit x.uf + bit x.nx)

/-- A result's bits with the exceptions it raised. -/
structure FpResult where
  bits : Nat
  exc : FpExc := {}
  deriving DecidableEq, Repr

/-- Bits in a magnitude. -/
def bitLength (m : Nat) : Nat := if m = 0 then 0 else Nat.log2 m + 1

/-- Divide a magnitude by 2^k, rounding to an integer in the mode given: the quotient, and whether it is inexact.
A negative value in a directed mode rounds its magnitude the other way. -/
def roundShift (rm : Rounding) (neg : Bool) (m k : Nat) : Nat × Bool :=
  let q := m / 2 ^ k
  let r := m % 2 ^ k
  let up := match rm with
    | .nearest => decide (2 ^ k < 2 * r) || (decide (2 * r = 2 ^ k) && q % 2 == 1)
    | .zero => false
    | .down => neg && r != 0
    | .up => !neg && r != 0
  (if up then q + 1 else q, r != 0)

/-- The exact value m·2^e as an integer multiple of 2^q, rounded. -/
def roundAt (rm : Rounding) (neg : Bool) (m : Nat) (e q : Int) : Nat × Bool :=
  if e ≥ q then (m * 2 ^ (e - q).toNat, false) else roundShift rm neg m (q - e).toNat

/-- Round the exact value (−1)^neg · m · 2^e (m not 0) into a format (02 R36): one rounding, tininess after rounding. -/
def fpRound (p : FpParams) (rm : Rounding) (neg : Bool) (m : Nat) (e : Int) : FpResult :=
  if m = 0 then { bits := fpZero p neg }
  else
    let top : Int := (bitLength m : Int) - 1 + e
    let qn : Int := top - (p.prec - 1 : Nat)
    let qmin : Int := p.emin - (p.prec - 1 : Nat)
    let q := max qn qmin
    let (mant, inexact) := roundAt rm neg m e q
    let (mantU, _) := roundAt rm neg m e qn
    -- tiny: rounded with an unbounded exponent, still below the smallest normal number
    let tiny := decide ((bitLength mantU : Int) - 1 + qn < p.emin)
    let big := decide (mant ≠ 0) && decide ((bitLength mant : Int) - 1 + q > p.bias)
    if big then
      let toMax := match rm with
        | .nearest => false
        | .zero => true
        | .down => !neg
        | .up => neg
      { bits := if toMax then fpMax p neg else fpInf p neg, exc := { of := true, nx := true } }
    else
      -- a significand below 2^(prec-1) is subnormal; the exponent field counts quanta above qmin
      let field : Int := q - qmin
      let body := if mant < 2 ^ (p.prec - 1) then mant else mant + field.toNat * 2 ^ (p.prec - 1)
      { bits := bit neg * 2 ^ (p.width - 1) + body, exc := { uf := tiny && inexact, nx := inexact } }

/-- The value of a datum is a NaN. -/
def Fp.isNan : Fp → Bool
  | .nan _ => true
  | _ => false

/-- The datum is a signalling NaN. -/
def Fp.isSnan : Fp → Bool
  | .nan q => q
  | _ => false

/-- The sign of a datum that is not a NaN. -/
def Fp.neg : Fp → Bool
  | .nan _ => false
  | .inf n => n
  | .fin n _ _ => n

/-- The datum with its sign inverted. -/
def Fp.flip : Fp → Fp
  | .nan q => .nan q
  | .inf n => .inf (!n)
  | .fin n m e => .fin (!n) m e

/-- A canonical NaN result; `nv` where invalid is raised. -/
def fpNanResult (p : FpParams) (nv : Bool) : FpResult := { bits := fpNan p, exc := { nv := nv } }

/-- The signed integer of a magnitude. -/
def signedOf (neg : Bool) (m : Nat) : Int := if neg then -(m : Int) else m

/-- The exact sum of two finite values, as a signed mantissa at the smaller exponent. -/
def addExact (n1 : Bool) (m1 : Nat) (e1 : Int) (n2 : Bool) (m2 : Nat) (e2 : Int) : Int × Int :=
  let e := min e1 e2
  (signedOf n1 (m1 * 2 ^ (e1 - e).toNat) + signedOf n2 (m2 * 2 ^ (e2 - e).toNat), e)

/-- The sign of an exact zero sum: that of both where they agree, else minus only when rounding down. -/
def zeroSign (rm : Rounding) (n1 n2 : Bool) : Bool := if n1 = n2 then n1 else decide (rm = .down)

/-- Addition (02 R38). -/
def fpAdd (p : FpParams) (rm : Rounding) (a b : Fp) : FpResult :=
  match a, b with
  | .nan q, y => fpNanResult p (q || y.isSnan)
  | x, .nan q => fpNanResult p (q || x.isSnan)
  | .inf n, .inf n' => if n = n' then { bits := fpInf p n } else fpNanResult p true
  | .inf n, .fin _ _ _ => { bits := fpInf p n }
  | .fin _ _ _, .inf n => { bits := fpInf p n }
  | .fin n1 m1 e1, .fin n2 m2 e2 =>
    let (v, e) := addExact n1 m1 e1 n2 m2 e2
    if v = 0 then { bits := fpZero p (zeroSign rm n1 n2) }
    else fpRound p rm (decide (v < 0)) v.natAbs e

/-- Multiplication (02 R38). -/
def fpMul (p : FpParams) (rm : Rounding) (a b : Fp) : FpResult :=
  match a, b with
  | .nan q, y => fpNanResult p (q || y.isSnan)
  | x, .nan q => fpNanResult p (q || x.isSnan)
  | .inf n, .inf n' => { bits := fpInf p (n != n') }
  | .inf n, .fin n' m _ => if m = 0 then fpNanResult p true else { bits := fpInf p (n != n') }
  | .fin n' m _, .inf n => if m = 0 then fpNanResult p true else { bits := fpInf p (n != n') }
  | .fin n1 m1 e1, .fin n2 m2 e2 => fpRound p rm (n1 != n2) (m1 * m2) (e1 + e2)

/-- Division (02 R38): the quotient to more bits than any format holds, a last bit standing for the rest. -/
def fpDiv (p : FpParams) (rm : Rounding) (a b : Fp) : FpResult :=
  match a, b with
  | .nan q, y => fpNanResult p (q || y.isSnan)
  | x, .nan q => fpNanResult p (q || x.isSnan)
  | .inf _, .inf _ => fpNanResult p true
  | .inf n, .fin n' _ _ => { bits := fpInf p (n != n') }
  | .fin n' _ _, .inf n => { bits := fpZero p (n != n') }
  | .fin n1 m1 e1, .fin n2 m2 e2 =>
    if m2 = 0 then
      if m1 = 0 then fpNanResult p true else { bits := fpInf p (n1 != n2), exc := { dz := true } }
    else
      let k := 2 * p.prec + 4 + bitLength m2
      let num := m1 * 2 ^ k
      fpRound p rm (n1 != n2) (2 * (num / m2) + bit (num % m2 != 0)) (e1 - e2 - k - 1)

/-- One digit of the integer square root: the largest root so far of the leading bits. -/
def sqrtSteps (n : Nat) : Nat → Nat → Nat
  | 0, r => r
  | k + 1, r => let t := r + 2 ^ k; sqrtSteps n k (if t * t ≤ n then t else r)

/-- The integer square root of a number below 4^k. -/
def isqrt (n k : Nat) : Nat := sqrtSteps n k 0

/-- Square root (02 R38). -/
def fpSqrt (p : FpParams) (rm : Rounding) (a : Fp) : FpResult :=
  match a with
  | .nan q => fpNanResult p q
  | .inf n => if n then fpNanResult p true else { bits := fpInf p false }
  | .fin n m e =>
    if m = 0 then { bits := fpZero p n }
    else if n then fpNanResult p true
    else
      let k : Nat := 2 * p.prec + 4
      let odd := e % 2 != 0
      let m' := (if odd then 2 * m else m) * 4 ^ k
      let e' := (if odd then e - 1 else e) / 2 - k
      let r := isqrt m' (bitLength m' / 2 + 1)
      fpRound p rm false (2 * r + bit (r * r != m')) (e' - 1)

/-- The order of two data, none where unordered (02 R37). Zeros of either sign are equal. -/
def fpCompare (a b : Fp) : Option Ordering :=
  match a, b with
  | .nan _, _ => none
  | _, .nan _ => none
  | .inf n, .inf n' => some (if n = n' then .eq else if n then .lt else .gt)
  | .inf n, .fin _ _ _ => some (if n then .lt else .gt)
  | .fin _ _ _, .inf n => some (if n then .gt else .lt)
  | .fin n1 m1 e1, .fin n2 m2 e2 =>
    let (v, _) := addExact n1 m1 e1 (!n2) m2 e2
    some (if v < 0 then .lt else if v = 0 then .eq else .gt)

/-- minimumNumber and maximumNumber of IEEE 754-2019 (02 Table 2.9), given the operands' encodings: −0 is below +0, a
NaN yields to a number, and a signalling NaN raises invalid. -/
def fpMinMax (p : FpParams) (isMax : Bool) (x y : Nat) : FpResult :=
  let a := fpDecode p x
  let b := fpDecode p y
  let nv := a.isSnan || b.isSnan
  match a.isNan, b.isNan with
  | true, true => fpNanResult p nv
  | true, false => { bits := y, exc := { nv := nv } }
  | false, true => { bits := x, exc := { nv := nv } }
  | false, false =>
    let aLess := match fpCompare a b with
      | some .lt => true
      | some .eq => a.neg && !b.neg
      | _ => false
    { bits := if aLess != isMax then x else y, exc := { nv := nv } }

/-- Fused multiply-add of three data, the signs already applied (02 R39): an infinity times zero is invalid even where
the addend is a quiet NaN. -/
def fpFma (p : FpParams) (rm : Rounding) (a b c : Fp) : FpResult :=
  let snan := a.isSnan || b.isSnan || c.isSnan
  let infZero := match a, b with
    | .inf _, .fin _ m _ => m == 0
    | .fin _ m _, .inf _ => m == 0
    | _, _ => false
  if a.isNan || b.isNan || c.isNan || infZero then fpNanResult p (snan || infZero)
  else
    match a, b, c with
    | .fin n1 m1 e1, .fin n2 m2 e2, .fin n3 m3 e3 =>
      let np := n1 != n2
      let (v, e) := addExact np (m1 * m2) (e1 + e2) n3 m3 e3
      if v = 0 then { bits := fpZero p (zeroSign rm np n3) }
      else fpRound p rm (decide (v < 0)) v.natAbs e
    | .fin _ _ _, .fin _ _ _, .inf n => { bits := fpInf p n }
    | x, y, .inf n =>
      if (x.neg != y.neg) = n then { bits := fpInf p n } else fpNanResult p true
    | x, y, _ => { bits := fpInf p (x.neg != y.neg) }

/-- Conversion of a datum to a format (02 Table 2.9). -/
def fpConvert (p : FpParams) (rm : Rounding) (a : Fp) : FpResult :=
  match a with
  | .nan q => fpNanResult p q
  | .inf n => { bits := fpInf p n }
  | .fin n m e => if m = 0 then { bits := fpZero p n } else fpRound p rm n m e

/-- Conversion to an integer within `lo` and `hi` (02 R38): the integer, invalid, and inexact. An out-of-range input
saturates to the limit of its sign and a NaN gives 0, both invalid. -/
def fpToInt (rm : Rounding) (lo hi : Int) (a : Fp) : Int × Bool × Bool :=
  match a with
  | .nan _ => (0, true, false)
  | .inf n => (if n then lo else hi, true, false)
  | .fin n m e =>
    let (q, inexact) := roundAt rm n m e 0
    let v := signedOf n q
    if v < lo then (lo, true, false) else if hi < v then (hi, true, false) else (v, false, inexact)

/-- Conversion of an integer to a format (02 Table 2.9). -/
def fpOfInt (p : FpParams) (rm : Rounding) (v : Int) : FpResult :=
  if v = 0 then { bits := fpZero p false } else fpRound p rm (decide (v < 0)) v.natAbs 0

/-- The flags of a floating-point result (02 R37). -/
def fpFlags (p : FpParams) (bits : Nat) (inexact : Bool) : Flags :=
  match fpDecode p bits with
  | .nan _ => { n := false, z := false, c := inexact, v := true }
  | .inf n => { n := n, z := false, c := inexact, v := false }
  | .fin n m _ => { n := n, z := m == 0, c := inexact, v := false }

end Sys2Proof.Machine
end

