-- ==== Sys2Proof/Machine/TileFmt.lean ====
section
/-! DEFINITION. Narrow formats, the quantiser, scale-slot records and their update (08; element widths of 06 Table 6.2). -/

namespace Sys2Proof.Machine

/-! ### Formats (08 Table 8.1, 06 Table 6.2) -/

/-- The element width in bits of a format code. -/
def fmtWidth (f : Nat) : Nat :=
  match f with
  | 0 | 1 => 4
  | 2 | 3 => 2
  | 4 | 5 | 6 => 8
  | _ => 16

/-- The element width in bits of a width code W (06 Table 6.2). -/
def widthOfCode (w : Nat) : Nat := 2 ^ (w + 1)

/-- The depth of a tile whose elements have `w` bits (06 Table 6.2). -/
def tileDepth (w : Nat) : Nat := 1024 / w

/-- G, depth elements in a depth unit, by element width (06 Table 6.2). -/
def groupSize (w : Nat) : Nat := if w ≤ 4 then 16 else if w = 8 then 8 else 4

/-- Depth units of a tile (06 Table 6.2). -/
def tileUnits (w : Nat) : Nat := tileDepth w / groupSize w

/-- The format is INT4, INT2, ternary or INT8. -/
def fmtIsInt (f : Nat) : Bool := f == 1 || f == 2 || f == 3 || f == 6

/-- The format is floating-coded in the stope (07 Table 7.1): FP8 or BF16. -/
def fmtIsFloat (f : Nat) : Bool := f == 4 || f == 5 || f == 7

/-- The format has a per-block form (08 Table 8.1). -/
def fmtHasBlock (f : Nat) : Bool := f == 0 || f == 4 || f == 5 || f == 6

/-- emax of the per-block form (08 Table 8.1). -/
def fmtEmax (f : Nat) : Int :=
  match f with
  | 0 => 2
  | 4 => 8
  | 5 => 15
  | _ => 0

/-- The factor f of R182 and R211: −6 for INT8, 0 for the floating formats. -/
def blockFactor (f : Nat) : Int := if f = 6 then -6 else 0

/-- fmax as mantissa and exponent (08 Table 8.1). -/
def fmtMax (f : Nat) : Nat × Int :=
  match f with
  | 0 => (6, 0)
  | 1 => (7, 0)
  | 2 => (1, 0)
  | 3 => (1, 0)
  | 4 => (448, 0)
  | 5 => (57344, 0)
  | 6 => (127, 0)
  | _ => (255, 120)

/-- Precision and exponent of the smallest normal number of a floating format (08 Table 8.3, R198). -/
def fmtFloat (f : Nat) : Nat × Int :=
  match f with
  | 0 => (2, 0)
  | 4 => (4, -6)
  | 5 => (3, -14)
  | _ => (8, -126)

/-- A two's-complement field of `w` bits. -/
def signedField (c w : Nat) : Int := if c < 2 ^ (w - 1) then c else (c : Int) - 2 ^ w

/-- A finite number with the sign of an integer. -/
def fpOfSigned (v : Int) (e : Int) : Fp := .fin (decide (v < 0)) v.natAbs e

/-- The exact value of an element code (08 R198 to R200; a reserved ternary code counts as 0). -/
def elemValue (f c : Nat) : Fp :=
  match f with
  | 0 =>
    let m := match c % 8 with
      | 0 => 0 | 1 => 1 | 2 => 2 | 3 => 3 | 4 => 4 | 5 => 6 | 6 => 8 | _ => 12
    .fin (decide (8 ≤ c)) m (-1)
  | 1 => fpOfSigned (signedField c 4) 0
  | 2 => fpOfSigned (signedField c 2) 0
  | 3 => fpOfSigned (match c with | 1 => 1 | 3 => -1 | _ => 0) 0
  | 4 =>
    if c % 128 = 127 then .nan false
    else
      let ex := c / 8 % 16
      if ex = 0 then .fin (decide (128 ≤ c)) (c % 8) (-9) else .fin (decide (128 ≤ c)) (8 + c % 8) ((ex : Int) - 10)
  | 5 => fpDecode { prec := 3, ew := 5 } c
  | 6 => fpOfSigned (signedField c 8) 0
  | _ => fpDecode (fpParams .bf16) c

/-- Element `k` of a lane or row whose elements have `w` bits (06 R143). -/
def elemAt (data w k : Nat) : Nat := data / 2 ^ (w * k) % 2 ^ w

/-- Elements of `w` bits packed from bit 0 upward (06 R143). -/
def packElems (w : Nat) (l : List Nat) : Nat := l.foldr (fun x acc => x % 2 ^ w + 2 ^ w * acc) 0

/-! ### The quantiser (08 R202) -/

/-- The statistics that quantising writes gather for a slot (08 R202, R208). -/
structure QStat where
  /-- AMAXCUR. -/
  amax : Nat := 0
  ovf : Bool := false
  nanin : Bool := false
  /-- Elements saturated. -/
  sat : Nat := 0
  deriving DecidableEq, Repr

/-- Merging of statistics: maximum, or, sum (08 R208). -/
def QStat.merge (a b : QStat) : QStat :=
  { amax := max a.amax b.amax, ovf := a.ovf || b.ovf, nanin := a.nanin || b.nanin, sat := a.sat + b.sat }

/-- up16: the smallest BF16 magnitude not less than a value, at most 0x7F7F (08 R202). -/
def up16 (m : Nat) (e : Int) : Nat :=
  if m = 0 then 0 else min 0x7F7F (fpRound (fpParams .bf16) .up false m e).bits

/-- Compare m1·2^e1 with m2·2^e2: strictly greater. -/
def dyadicGt (m1 : Nat) (e1 : Int) (m2 : Nat) (e2 : Int) : Bool :=
  let e := min e1 e2
  decide (m2 * 2 ^ (e2 - e).toNat < m1 * 2 ^ (e1 - e).toNat)

/-- The code of a signed value mant·2^q that a format represents; integers and ternary have one zero (08 R202). -/
def encodeElem (f : Nat) (neg : Bool) (mant : Nat) (q : Int) : Nat :=
  let w := fmtWidth f
  if fmtIsInt f then
    let v := mant * 2 ^ q.toNat
    if neg then (2 ^ w - v) % 2 ^ w else v
  else
    let (prec, emin) := fmtFloat f
    let qmin := emin - (prec - 1 : Nat)
    -- bring mant·2^q to a significand of the format
    let e := max ((bitLength mant : Int) - prec + q) qmin
    let m := if q ≥ e then mant * 2 ^ (q - e).toNat else mant / 2 ^ (e - q).toNat
    let body := if m < 2 ^ (prec - 1) then m else m + (e - qmin).toNat * 2 ^ (prec - 1)
    bit neg * 2 ^ (w - 1) + body

/-- Round y = m·2^e to a format with no upper bound, ties to even (08 R202). -/
def rneElem (f : Nat) (m : Nat) (e : Int) : Nat × Int :=
  if fmtIsInt f then ((roundAt .nearest false m e 0).1, 0)
  else
    let (prec, emin) := fmtFloat f
    let q := max ((bitLength m : Int) - prec + e) (emin - (prec - 1 : Nat))
    ((roundAt .nearest false m e q).1, q)

/-- quantise(x, fmt, s, e) (08 R202): the code written, and its statistics. -/
def quantise (x : Fp) (f : Nat) (e : Int) : Nat × QStat :=
  let (fm, fe) := fmtMax f
  match x with
  | .nan _ => (encodeElem f false fm fe, { nanin := true })
  | .inf n => (encodeElem f n fm fe, { nanin := true })
  | .fin n m ex =>
    let (r, q) := rneElem f m (ex - e)
    if dyadicGt r q fm fe then (encodeElem f n fm fe, { amax := up16 m ex, ovf := true, sat := 1 })
    else (encodeElem f n r q, { amax := up16 m ex })

/-- The quantiser on a NaN whose sign bit is set (08 R202: the sign bit of x). -/
def quantiseSigned (signBit : Bool) (x : Fp) (f : Nat) (e : Int) : Nat × QStat :=
  match x with
  | .nan _ => let (fm, fe) := fmtMax f; (encodeElem f signBit fm fe, { nanin := true })
  | _ => quantise x f e

/-- One element converted to BF16 times 2^e (08 R204): the bits, and its statistics. -/
def unquantise (f c : Nat) (e : Int) : Nat × QStat :=
  let p := fpParams .bf16
  match elemValue f c with
  | .nan _ => (0x7FC0, {})
  | .inf n => (fpInf p n, {})
  | .fin n m ex =>
    if m = 0 then (fpZero p n, {})
    else
      let r := fpRound p .nearest n m (ex + e)
      if r.exc.of then (fpMax p n, { ovf := true, sat := 1 }) else (r.bits, {})

/-- floor(log2(m·2^e)) for m not 0. -/
def floorLog2 (m : Nat) (e : Int) : Int := (Nat.log2 m : Int) + e

/-- The scale byte of a block whose largest finite magnitude is m·2^e (08 R211). -/
def blockByte (f : Nat) (m : Nat) (e : Int) : Nat :=
  if m = 0 then 0 else (max (-127) (min 127 (floorLog2 m e - fmtEmax f)) + 127).toNat

/-- The larger of two magnitudes. -/
def dyadicMax (a b : Nat × Int) : Nat × Int := if dyadicGt b.1 b.2 a.1 a.2 then b else a

/-- The largest finite magnitude of a list of sources, poisoned and special ones apart (08 R211). -/
def blockAmax (l : List (Fp × Bool)) : Nat × Int :=
  l.foldl (fun acc x => match x with
    | (.fin _ m e, false) => dyadicMax acc (m, e)
    | _ => acc) (0, 0)

/-! ### Scale-slot records (08 R205) -/

/-- Word `sel` of a record. -/
def ssWord (r : BitVec 512) (sel : Nat) : Nat := r.toNat / 2 ^ (64 * sel) % 2 ^ 64

/-- A record with word `sel` replaced. -/
def ssPut (r : BitVec 512) (sel v : Nat) : BitVec 512 :=
  BitVec.ofNat 512 (r.toNat - ssWord r sel * 2 ^ (64 * sel) + v % 2 ^ 64 * 2 ^ (64 * sel))

/-- EXP, signed (Table 8.6). -/
def ssExp (r : BitVec 512) : Int := signedField (fieldOf (ssWord r 0) 32 8) 8
/-- AUTO (Table 8.6). -/
def ssAuto (r : BitVec 512) : Bool := bitOf (ssWord r 0) 16
/-- HEAD (Table 8.6). -/
def ssHead (r : BitVec 512) : Nat := fieldOf (ssWord r 0) 12 3
/-- VBASE (Table 8.6). -/
def ssVbase (r : BitVec 512) : Nat := fieldOf (ssWord r 0) 8 3
/-- BLK as a number of elements (Table 8.6). -/
def ssBlk (r : BitVec 512) : Nat := 16 * 2 ^ fieldOf (ssWord r 0) 5 2
/-- MODE, per-block (Table 8.6). -/
def ssBlock (r : BitVec 512) : Bool := bitOf (ssWord r 0) 4
/-- FMT (Table 8.6). -/
def ssFmt (r : BitVec 512) : Nat := fieldOf (ssWord r 0) 0 3
/-- AMAXCUR (Table 8.8). -/
def ssAmax (r : BitVec 512) : Nat := fieldOf (ssWord r 2) 0 15
/-- History entry `i` (Table 8.10). -/
def ssHist (r : BitVec 512) (i : Nat) : Nat := fieldOf (ssWord r (4 + i / 4)) (16 * (i % 4)) 15

/-- The bits of each word that hold fields (Tables 8.6 to 8.10). -/
def ssMask (sel : Nat) : Nat :=
  match sel with
  | 0 => 0xFF00017777
  | 1 => 0xFFFFFFFF000000F7
  | 2 => 0x1F0F007FFF
  | 3 => 0xFFFFFFFF000000FF
  | _ => 0x7FFF7FFF7FFF7FFF

/-- A BF16 magnitude as a record stores it: at most 0x7F7F (R205). -/
def capMag (v : Nat) : Nat := min v 0x7F7F

/-- The value that SCALE.SET of a word stores: reserved bits zero, magnitudes capped (R205); an HCNT above 16 is a reserved
encoding and keeps the old one (00 R13). -/
def ssStored (old : BitVec 512) (sel v : Nat) : Nat :=
  let m := v &&& ssMask sel
  match sel with
  | 2 =>
    let h := fieldOf m 32 5
    let h := if 16 < h then fieldOf (ssWord old 2) 32 5 else h
    h * 2 ^ 32 + fieldOf m 24 4 * 2 ^ 24 + capMag (fieldOf m 0 15)
  | 0 | 1 | 3 => m
  | _ => (List.range 4).foldr (fun q acc => acc + capMag (fieldOf m (16 * q) 15) * 2 ^ (16 * q)) 0

/-- SCALE.SET on a record (08 R206): word 0 also sets words 1 to 7 to zero. -/
def ssSet (r : BitVec 512) (sel v : Nat) : BitVec 512 :=
  if sel = 0 then BitVec.ofNat 512 (ssStored r 0 v) else ssPut r sel (ssStored r sel v)

/-- A record as bytes from memory or the debug ring give it over an older one: every word as SCALE.SET stores it (R205, 00 R12, R13,
log 173). -/
def ssLoad (old new : BitVec 512) : BitVec 512 :=
  (List.range 8).foldl (fun r sel => ssPut r sel (ssStored old sel (ssWord new sel))) 0

/-- A record with the statistics of quantising writes merged in (08 R202, R208). -/
def ssMerge (r : BitVec 512) (st : QStat) : BitVec 512 :=
  let w1 := ssWord r 1
  let sat := min (2 ^ 32 - 1) (fieldOf w1 32 32 + st.sat)
  let w1' := sat * 2 ^ 32 + fieldOf w1 4 4 * 16 + bit (bitOf w1 2) * 4 + bit (bitOf w1 1 || st.nanin) * 2
    + bit (bitOf w1 0 || st.ovf)
  let w2 := ssWord r 2
  let w2' := w2 - ssAmax r + max (ssAmax r) st.amax
  ssPut (ssPut r 1 w1') 2 w2'

/-- A record with BADCODE set (08 R200). -/
def ssBadcode (r : BitVec 512) : BitVec 512 := ssPut r 1 (ssWord r 1 ||| 4)

/-- The smallest integer k with m·2^e ≤ fm·2^fe·2^k, for m and fm not 0 (08 R209). -/
def ceilLogRatio (m : Nat) (e : Int) (fm : Nat) (fe : Int) : Int :=
  let k := floorLog2 m e - floorLog2 fm fe
  if dyadicGt m e fm (fe + k) then k + 1 else k

/-- A BF16 magnitude as mantissa and exponent. -/
def bf16Mag (v : Nat) : Nat × Int :=
  match fpDecode (fpParams .bf16) v with
  | .fin _ m e => (m, e)
  | _ => (0, 0)

/-- scale_update (08 R209) on a record that is not poisoned. -/
def ssUpdate (r : BitVec 512) : BitVec 512 :=
  let (fm, fe) := fmtMax (ssFmt r)
  let w2 := ssWord r 2
  let hpos := fieldOf w2 24 4
  let hcnt := fieldOf w2 32 5
  let cur := ssAmax r
  let sel := 4 + hpos / 4
  let old := ssHist r hpos
  let r1 := ssPut r sel (ssWord r sel - old * 2 ^ (16 * (hpos % 4)) + cur * 2 ^ (16 * (hpos % 4)))
  let m := (List.range 16).foldl (fun acc i => max acc (ssHist r1 i)) 0
  let w1 := ssWord r 1
  let expo := ssExp r
  let cm := bf16Mag cur
  let margin : Nat :=
    if m ≠ 0 ∧ bitOf w1 0 = true ∧ cur ≠ 0 then min 15 (ceilLogRatio cm.1 cm.2 fm (fe + expo)).toNat else 0
  let e : Int :=
    if m = 0 then expo
    else let mm := bf16Mag m; ceilLogRatio mm.1 mm.2 fm fe + ssHead r + margin
  let e := max (-128) (min 127 e)
  let expBits := (e % 256).toNat
  let w0 := ssWord r 0
  let w0' := w0 - fieldOf w0 32 8 * 2 ^ 32 + expBits * 2 ^ 32
  let w1' := fieldOf w1 32 32 * 2 ^ 32 + margin * 16 + fieldOf w1 1 2 * 2
  let w2' := min (hcnt + 1) 16 * 2 ^ 32 + (hpos + 1) % 16 * 2 ^ 24
  let w3 := ssWord r 3
  let w3' := (fieldOf w3 32 32 + 1) % 2 ^ 32 * 2 ^ 32 + fieldOf w0 32 8
  ssPut (ssPut (ssPut (ssPut r1 0 w0') 1 w1') 2 w2') 3 w3'

/-- Lane vectors that the block scales of a lane of `d` values occupy (08 R211). -/
def blockVectors (d blk : Nat) : Nat := (d / blk + 3) / 4

end Sys2Proof.Machine
end

