-- ==== Sys2Proof/Machine/Stope.lean ====
section
/-! DEFINITION. The stope's arithmetic: the reference order of OPA (07 R174 to R189) and the model of OPMAX and OPMIN
(R191), element by element. -/

namespace Sys2Proof.Machine

/-- Canonical NaN of FP32 (07 R188). -/
def nan32 : Nat := 0x7FC00000
/-- Poison NaN of FP32 (07 R188). -/
def poison32 : Nat := 0x7FC00001
/-- The infinity marker of an INT32 accumulator (07 R183). -/
def marker32 : Nat := 0x80000000

/-- The FP32 datum of an encoding. -/
def dec32 (b : Nat) : Fp := fpDecode (fpParams .f32) b

/-- The NaN that two operands of which one is a NaN give: poison prevails (07 R188). -/
def nanOf (a b : Nat) : Nat := if a = poison32 ∨ b = poison32 then poison32 else nan32

/-- FP32 addition to nearest-even, with the NaN rule of R188 (R181). -/
def add32 (a b : Nat) : Nat :=
  if (dec32 a).isNan || (dec32 b).isNan then nanOf a b else (fpAdd (fpParams .f32) .nearest (dec32 a) (dec32 b)).bits

/-- The parameters of F20 (R180). -/
def f20 : FpParams := { prec := 12, ew := 8 }

/-- An F20 word as the FP32 value it denotes (R180). -/
def f20to32 (w : Nat) : Nat :=
  if (fpDecode f20 w).isNan then (if w = 0x7FC01 then poison32 else nan32) else w * 2 ^ 12

/-! ### The control word (06 Table 6.6) -/

/-- DS. -/
def ctlDs (c : Word) : Nat := fieldOf c.toNat 0 5
/-- DL. -/
def ctlDl (c : Word) : Nat := fieldOf c.toNat 5 5
/-- MX. -/
def ctlMx (c : Word) : Bool := bitOf c.toNat 14
/-- BLK as a number of elements. -/
def ctlBlk (c : Word) : Nat := 16 * 2 ^ fieldOf c.toNat 15 2
/-- VA. -/
def ctlVa (c : Word) : Nat := fieldOf c.toNat 17 3
/-- VB. -/
def ctlVb (c : Word) : Nat := fieldOf c.toNat 20 3
/-- SSA. -/
def ctlSsa (c : Word) : Fin 64 := Fin.ofNat 64 (fieldOf c.toNat 23 6)
/-- SSB. -/
def ctlSsb (c : Word) : Fin 64 := Fin.ofNat 64 (fieldOf c.toNat 29 6)
/-- QS. -/
def ctlQs (c : Word) : Fin 16 := Fin.ofNat 16 (fieldOf c.toNat 35 4)
/-- SR. -/
def ctlSr (c : Word) : Bool := bitOf c.toNat 39
/-- LTAG. -/
def ctlLtag (c : Word) : Nat := fieldOf c.toNat 40 8
/-- TCOORD. -/
def ctlTcoord (c : Word) : Nat := fieldOf c.toNat 48 16

/-! ### Groups (R175 to R179) -/

/-- The integer c of an integer-coded element (Table 7.1): FP4 counts half units. -/
def elemInt (f c : Nat) : Int :=
  match elemValue f c with
  | .fin n m _ => signedOf n m
  | _ => 0

/-- The unit exponent of Table 7.1. -/
def elemUnit (f : Nat) : Int := if f = 0 then -1 else 0

/-- The pair is integer-coded (R175). -/
def intPair (fa fb : Nat) : Bool := !fmtIsFloat fa && !fmtIsFloat fb

/-- An exact product. -/
inductive Prod where
  | nan
  | inf (neg : Bool)
  | fin (neg : Bool) (m : Nat) (e : Int)
  deriving DecidableEq, Repr

/-- The exact product of two elements (R176, Table 7.3). -/
def prodOf (a b : Fp) : Prod :=
  match a, b with
  | .nan _, _ => .nan
  | _, .nan _ => .nan
  | .inf n, .inf n' => .inf (n != n')
  | .inf n, .fin n' m _ => if m = 0 then .nan else .inf (n != n')
  | .fin n' m _, .inf n => if m = 0 then .nan else .inf (n != n')
  | .fin n m e, .fin n' m' e' => .fin (n != n') (m * m') (e + e')

/-- The special outcome of a group, if any (Table 7.3): the F20 word. -/
def groupSpecial (ps : List Prod) : Option Nat :=
  let pos := ps.any (fun p => p == .inf false)
  let neg := ps.any (fun p => p == .inf true)
  if ps.any (fun p => p == .nan) || (pos && neg) then some 0x7FC00
  else if pos then some (fpInf f20 false)
  else if neg then some (fpInf f20 true)
  else none

/-- The exact sum of finite products as mantissa and exponent. -/
def sumProds (ps : List Prod) : Int × Int :=
  ps.foldl (fun acc p => match p with
    | .fin n m e =>
      if m = 0 then acc
      else
        let lo := if acc.1 = 0 then e else min acc.2 e
        (acc.1 * 2 ^ (acc.2 - lo).toNat + signedOf n (m * 2 ^ (e - lo).toNat), lo)
    | _ => acc) (0, 0)

/-- Every product is −0 (R180). -/
def allNegZero (ps : List Prod) : Bool := ps.all (fun p => match p with
  | .fin n m _ => n && m == 0
  | _ => false)

/-- The F20 partial of a floating group from its exact sum (R178, R180). -/
def groupExact (ps : List Prod) : Nat :=
  match groupSpecial ps with
  | some w => w
  | none =>
    let (v, e) := sumProds ps
    if v = 0 then fpZero f20 (allNegZero ps) else (fpRound f20 .nearest (decide (v < 0)) v.natAbs e).bits

/-- The alignment exponent of a BF16 product, whose mantissa is the product of two 8-bit significands (R179). -/
def alignExp (e : Int) : Int := e + 14

/-- The F20 partial of a BF16 × BF16 group (R179). -/
def groupBf16 (ps : List Prod) : Nat :=
  match groupSpecial ps with
  | some w => w
  | none =>
    let live := ps.filterMap (fun p => match p with
      | .fin n m e => if m = 0 then none else some (n, m, e)
      | _ => none)
    match live with
    | [] => fpZero f20 (allNegZero ps)
    | p :: t =>
      let emax := t.foldl (fun acc x => max acc (alignExp x.2.2)) (alignExp p.2.2)
      let q := emax - 48
      let parts : List (Int × Bool) := live.map (fun x =>
        let (n, m, e) := x
        if e ≥ q then (signedOf n (m * 2 ^ (e - q).toNat), false)
        else (signedOf n (m / 2 ^ (q - e).toNat), m % 2 ^ (q - e).toNat != 0))
      let sum : Int := (parts.map (fun x => x.1)).foldl (· + ·) (0 : Int)
      let sticky := parts.any (·.2)
      if sum = 0 then fpZero f20 (!sticky && allNegZero ps)
      else if sticky then (fpRound f20 .nearest (decide (sum < 0)) (2 * sum.natAbs + 1) (q - 1)).bits
      else (fpRound f20 .nearest (decide (sum < 0)) sum.natAbs q).bits

/-- A run: its integer sum or its FP32 value (R181). -/
inductive Run where
  | int (v : Int)
  | f32 (b : Nat)
  deriving DecidableEq, Repr

/-- The partial of a group, as the run it would start (R176 to R181). -/
def groupRun (fa fb : Nat) (as bs : List Nat) : Run :=
  if intPair fa fb then
    .int ((List.zipWith (fun a b => elemInt fa a * elemInt fb b) as bs).foldl (· + ·) 0)
  else
    let ps := List.zipWith (fun a b => prodOf (elemValue fa a) (elemValue fb b)) as bs
    .f32 (f20to32 (if fa = 7 ∧ fb = 7 then groupBf16 ps else groupExact ps))

/-- A run with a later partial added (R181). -/
def Run.add : Run → Run → Run
  | .int a, .int b => .int (a + b)
  | .f32 a, .f32 b => .f32 (add32 a b)
  | r, _ => r

/-! ### Promotion (R182 to R189) -/

/-- round32 with stochastic rounding of an exact non-zero value (R187). -/
def roundSr (neg : Bool) (m : Nat) (e : Int) (r : Nat) : Nat :=
  let p := fpParams .f32
  let top : Int := (bitLength m : Int) - 1 + e
  if top ≥ 128 then fpInf p neg
  else
    let q := max (top - 23) (-149)
    if e ≥ q then (fpRound p .nearest neg m e).bits
    else
      let k := (q - e).toNat
      let a := m / 2 ^ k
      let t := m % 2 ^ k * 2 ^ 16 / 2 ^ k
      let isMax := decide (q = 104) && decide (a = 2 ^ 24 - 1)
      let v := if 65536 ≤ t + r ∧ !isMax then a + 1 else a
      (fpRound p .nearest neg v q).bits

/-- round32 of the exact value v·2^e (R185, or R187 with a chunk); `negZero` is the sign of an exact zero. -/
def round32 (v e : Int) (negZero : Bool) (chunk : Option Nat) : Nat :=
  if v = 0 then fpZero (fpParams .f32) negZero
  else
    match chunk with
    | none => (fpRound (fpParams .f32) .nearest (decide (v < 0)) v.natAbs e).bits
    | some r => roundSr (decide (v < 0)) v.natAbs e r

/-- The datum of a run times 2^s, as a signed value (R182). -/
def runDatum (r : Run) (unit s : Int) : Fp :=
  match r with
  | .int v => fpOfSigned v (unit + s)
  | .f32 b => match dec32 b with
    | .fin n m e => .fin n m (e + s)
    | x => x

/-- Promotion into an FP32 element (R182, R185, R187, Table 7.3). `nanScale` says the block's scale byte is 0xFF. -/
def promote32 (k : Nat) (r : Run) (unit s : Int) (nanScale : Bool) (chunk : Option Nat) : Nat :=
  let runPoison : Bool := match r with | .f32 b => decide (b = poison32) | _ => false
  let d := runDatum r unit s
  if nanScale || d.isNan || (dec32 k).isNan then (if k == poison32 || runPoison then poison32 else nan32)
  else
    match dec32 k, d with
    | .fin n1 m1 e1, .fin n2 m2 e2 =>
      let (v, e) := addExact n1 m1 e1 n2 m2 e2
      round32 v e (n1 && n2 && m1 == 0 && m2 == 0) chunk
    | x, y =>
      match x, y with
      | .inf n, .inf n' => if n = n' then k else nan32
      | .inf _, _ => k
      | _, .inf n' => fpInf (fpParams .f32) n'
      | _, _ => nan32

/-- The integer of an INT32 element. -/
def int32 (k : Nat) : Int := signedField k 32

/-- Promotion into an INT32 element (R183). -/
def promoteInt (k : Nat) (r : Run) (unit s : Int) (nanScale : Bool) : Nat :=
  if k = marker32 ∨ nanScale then marker32
  else
    match runDatum r unit s with
    | .fin n m e =>
      let (v, ex) := addExact (decide (int32 k < 0)) (int32 k).natAbs 0 n m e
      let w := signedOf (decide (v < 0)) (roundAt .nearest (decide (v < 0)) v.natAbs ex 0).1
      if w < -(2 ^ 31 - 1) ∨ 2 ^ 31 - 1 < w then marker32 else (w % 2 ^ 32).toNat
    | _ => marker32

/-- The element is infinite or the marker (R189). -/
def elemInf (int : Bool) (k : Nat) : Bool :=
  if int then k == marker32 else match dec32 k with | .inf _ => true | _ => false

/-- The element is special: infinite, NaN or the marker (R189). -/
def elemSpecial (int : Bool) (k : Nat) : Bool := elemInf int k || (!int && (dec32 k).isNan)

/-- The flags that a change of an element sets: OVF and NAN (R189). -/
def elemFlags (int : Bool) (old new : Nat) : Bool × Bool :=
  (!elemSpecial int old && elemInf int new, !int && !(dec32 old).isNan && new == nan32)

/-- An accumulator element with the flags its changes have set. -/
structure ElemRes where
  k : Nat
  ovf : Bool := false
  nan : Bool := false
  deriving DecidableEq, Repr

/-- Replace an element, gathering flags (R189). -/
def ElemRes.put (r : ElemRes) (int : Bool) (new : Nat) : ElemRes :=
  let f := elemFlags int r.k new
  { k := new, ovf := r.ovf || f.1, nan := r.nan || f.2 }

/-- What an OPA has in common for every element: formats, control word, depth base, and the stream of its stochastic
rounding. -/
structure OpaCtx where
  fa : Nat
  fb : Nat
  ctl : Word
  base : Nat
  /-- Scale exponents of SSA and SSB, for MX = 0. -/
  sa : Int
  sb : Int
  stream : BitVec 256
  stepcnt : Word
  mbatch : Word
  deriving DecidableEq, Repr

/-- The E8M0 byte of lane `i`, block `b` in lane vectors from `v0` (06 R157). -/
def scaleByte (vs : Vector (BitVec 4096) 8) (v0 i b : Nat) : Nat :=
  elemAt (vs[v0 + b / 4]?.getD 0).toNat 8 (4 * i + b % 4)

/-- The window of a group (R181). -/
def OpaCtx.window (x : OpaCtx) (a u : Nat) : Nat :=
  let g := groupSize (fmtWidth x.fa)
  if ctlMx x.ctl then u * g / ctlBlk x.ctl else a / (8 * g)

/-- Promote a run that ended at unit `u` with end index `dend` into element (i, j) (R182, R183, R186). -/
def OpaCtx.promote (x : OpaCtx) (vs : Vector (BitVec 4096) 8) (i j u dend : Nat) (r : ElemRes) (run : Run) : ElemRes :=
  let int := fmtIsInt x.fa && fmtIsInt x.fb
  let unit := elemUnit x.fa + elemUnit x.fb
  let b := u * groupSize (fmtWidth x.fa) / ctlBlk x.ctl
  let ba := scaleByte vs (ctlVa x.ctl) i b
  let bb := scaleByte vs (ctlVb x.ctl) j b
  let s : Int :=
    if ctlMx x.ctl then ((ba : Int) - 127 + blockFactor x.fa) + ((bb : Int) - 127 + blockFactor x.fb) else x.sa + x.sb
  let nanScale := ctlMx x.ctl && (ba == 255 || bb == 255)
  if int then r.put true (promoteInt r.k run unit s nanScale)
  else
    let chunk := if ctlSr x.ctl
      then some (promotionChunk x.stream x.stepcnt x.mbatch (ctlTcoord x.ctl) i j dend) else none
    r.put false (promote32 r.k run unit s nanScale chunk)

/-- The groups of one element in ascending order: the open run with its window and last unit, and the element so far
(R174). -/
def opaGroups (x : OpaCtx) (vs : Vector (BitVec 4096) 8) (laneA laneB i j : Nat) :
    List Nat → Option (Nat × Nat × Run) → ElemRes → ElemRes
  | [], none, r => r
  | [], some (_, u, run), r =>
    let g := groupSize (fmtWidth x.fa)
    x.promote vs i j u (x.base + (u - ctlDs x.ctl) * g + g) r run
  | u :: rest, open_, r =>
    let w := fmtWidth x.fa
    let g := groupSize w
    let a := x.base + (u - ctlDs x.ctl) * g
    let win := x.window a u
    let elems (lane : Nat) := (List.range g).map (fun t => elemAt lane w (u * g + t))
    let p := groupRun x.fa x.fb (elems laneA) (elems laneB)
    match open_ with
    | none => opaGroups x vs laneA laneB i j rest (some (win, u, p)) r
    | some (win', u', run) =>
      if win = win' then opaGroups x vs laneA laneB i j rest (some (win, u, run.add p)) r
      else
        let r := x.promote vs i j u' (x.base + (u' - ctlDs x.ctl) * g + g) r run
        opaGroups x vs laneA laneB i j rest (some (win, u, p)) r

/-- The depth units of the range (06 R156). -/
def ctlUnits (c : Word) : List Nat := (List.range (ctlDl c + 1)).map (· + ctlDs c)

/-- One element of an OPA that no poison reaches (R174). -/
def opaElement (x : OpaCtx) (vs : Vector (BitVec 4096) 8) (laneA laneB i j k : Nat) : ElemRes :=
  opaGroups x vs laneA laneB i j (ctlUnits x.ctl) none { k := k }

/-! ### OPMAX and OPMIN (R191) -/

/-- The order of FP32 values in OPMAX and OPMIN: −0 below +0, every NaN above every number, poison above canonical. -/
def rank32 (b : Nat) : Int :=
  if (dec32 b).isNan then (if b = poison32 then 2 ^ 40 + 1 else 2 ^ 40)
  else if 2 ^ 31 ≤ b then -((b : Int) - 2 ^ 31) - 1 else b

/-- The order of INT32 values: the marker above every integer. -/
def rankInt (b : Nat) : Int := if b = marker32 then 2 ^ 40 else int32 b

/-- The sum of two elements: FP32 rounded once, or an exact integer (R191). -/
def opmSum (f a b : Nat) : Nat :=
  if f = 6 then ((elemInt f a + elemInt f b) % 2 ^ 32).toNat
  else
    let r := (fpAdd (fpParams .f32) .nearest (elemValue f a) (elemValue f b)).bits
    if (dec32 r).isNan then nan32 else r

/-- The depths of one element in ascending order (R191). `best` is none for the identity of an INT32 accumulator. -/
def opmDepths (isMin int : Bool) (f laneA laneB : Nat) (idxOf : Nat → Nat) :
    List Nat → Option Nat → Nat → Option Nat × Nat
  | [], best, idx => (best, idx)
  | k :: rest, best, idx =>
    let w := fmtWidth f
    let s := opmSum f (elemAt laneA w k) (elemAt laneB w k)
    let rank := if int then rankInt else rank32
    let better := match best with
      | none => true
      | some b => if isMin then decide (rank s < rank b) else decide (rank b < rank s)
    if better then opmDepths isMin int f laneA laneB idxOf rest (some s) (idxOf k)
    else opmDepths isMin int f laneA laneB idxOf rest best idx

/-- One element pair of OPMAX or OPMIN that no poison reaches: the best value and the winner's index (R191). -/
def opmElement (isMin : Bool) (f : Nat) (ctl : Word) (base laneA laneB k idx : Nat) : Nat × Nat :=
  let int := f == 6
  let g := groupSize (fmtWidth f)
  let d0 := ctlDs ctl * g
  let depths := (List.range ((ctlDl ctl + 1) * g)).map (· + d0)
  let best0 : Option Nat :=
    if base ≠ 0 then some k else if int then none else some (fpInf (fpParams .f32) (!isMin))
  let (best, i) := opmDepths isMin int f laneA laneB (fun d => (base + d - d0) % 2 ^ 32) depths best0 idx
  (best.getD k, i)

end Sys2Proof.Machine
end

