-- ==== Sys2Proof/Machine/Parity.lean ====
section
/-! DEFINITION. Counting of parity events (16 R351, R364) and the poison marks of tile state (06 R167, R168). -/

namespace Sys2Proof.Machine

/-- MGMTCYC, the count of MGMT cycles (16 Table 16.8). -/
def State.mgmtcyc (s : State) : Word := s.res.tally[2]

/-- Count a parity event of a class: PARn, the interval histogram, and the threshold, which sets TALSTAT and EV45
(16 R351) and which firmware logs (16 R369). -/
def State.countParity (s : State) (c : Fin 14) : State :=
  let s := s.passTime.tallyInc (0x10 + c.val)
  let now := s.mgmtcyc
  let s : State := match s.res.parLast[c] with
    | some t => s.histAdd (0x10 + c.val) (now - t).toNat
    | none => s
  let r := { s.res with parLast := s.res.parLast.set c (some now) }
  let p := satInc r.thrPending[c]
  let thr := r.thr[c]
  if thr ≠ 0 ∧ thr ≤ p then
    let t : State := ({ s with res := { r with thrPending := r.thrPending.set c 0, talstat := r.talstat ||| (1#14 <<< c.val) } }).setEvent 45
    if s.dep.bootStatus = 1 ∧ s.dep.halted = false then t.logEvent 9 c.val 0 0 0 else t
  else { s with res := { r with thrPending := r.thrPending.set c p } }

/-- A drain of the tile queue enters its length into TQDRAIN: an amount of time alone (16 Table 16.9, log 55). -/
def State.countDrain (s : State) : State := s.drawn.histAdd 2 (Config.freeCount s.free)

/-- Capture a parity event into PARCAP and PARADDR, or count it as missed (16 R351). -/
def State.captureParity (s : State) (c : Fin 14) (kind unit addr : Nat) : State :=
  let r := s.res
  { s with res :=
      if r.capValid then { r with capMissed := satInc r.capMissed }
      else { r with
        capValid := true, capSeq := r.capSeq + 1, capClass := BitVec.ofNat 4 c.val, capKind := BitVec.ofNat 2 kind,
        capUnit := BitVec.ofNat 12 unit, capMissed := 0, capAddr := BitVec.ofNat 47 addr } }

/-- A detected parity error, whatever its class: counted, captured, logged, and the deputy's vector 11 raised (16 R351). -/
def State.parityDetected (s : State) (c : Fin 14) (kind unit addr : Nat) : State :=
  let s := (s.captureParity c kind unit addr).logEvent 1 c.val unit addr 0
  (s.raiseVector 11).countParity c

/-- The tile extension is retired: the stope without a healthy fold half (07 R195), or an operand-tile row group without a
spare (16 Table 16.6). -/
def State.tileRetired (s : State) : Bool := decide (s.res.stopeMode = 2) || !s.res.fills[2].retired.isEmpty

/-! ### Columns (07 R192) -/

/-- The physical column is healthy: a column not dead, or a spare not dead. -/
def State.colHealthy (s : State) (p : Nat) : Bool :=
  let m := s.res.fills[0]
  if p < 128 then !m.dead.contains p else !m.deadSpares.contains (p - 128)

/-- The list H of healthy physical columns, ascending. -/
def State.healthyCols (s : State) : List Nat := (List.range 136).filter s.colHealthy

/-- The physical column on which a logical column runs. -/
def State.physCol (s : State) (c : Nat) : Nat :=
  if s.res.stopeMode = 1 then (s.healthyCols[c / 2]?).getD c
  else
    match s.res.fills[0].inUse.find? (fun x => x.2 == c) with
    | some (n, _) => 128 + n
    | none => c

/-! ### Poison in tile state -/

/-- The classes of tile registers, as TPEVT.CLASS (06 Table 6.16). -/
inductive TileClass where
  | t
  | k
  | v
  | ss
  | q
  deriving DecidableEq, Repr

/-- The code of a class. -/
def TileClass.code : TileClass → Nat
  | .t => 0
  | .k => 1
  | .v => 2
  | .ss => 3
  | .q => 4

/-- Replace the live tile registers. -/
def State.setRegs (s : State) (r : TileRegs) : State := { s with tile := { s.tile with regs := r } }

/-- Set TFLAGS bits (06 Table 6.20). -/
def State.setTflags (s : State) (m : BitVec 6) : State :=
  s.setRegs { s.tile.regs with tflags := s.tile.regs.tflags ||| m }

/-- TFLAGS.POISON. -/
def flagPoison : BitVec 6 := 4
/-- TFLAGS.OVF. -/
def flagOvf : BitVec 6 := 1
/-- TFLAGS.NAN. -/
def flagNan : BitVec 6 := 2
/-- TFLAGS.SAT. -/
def flagSat : BitVec 6 := 8
/-- TFLAGS.NANIN. -/
def flagNanin : BitVec 6 := 16
/-- TFLAGS.SKEW. -/
def flagSkew : BitVec 6 := 32

/-- The tile parity event that has no class in TPEVT (09 R227, log 30): TFLAGS.POISON, the tally, EV45. -/
def State.tileParity (s : State) : State := ((s.setTflags flagPoison).countParity 8).setEvent 45

/-- The effects of one new poison mark (06 R168). -/
def State.markEvent (s : State) (c : TileClass) (reg index : Nat) (storage : Bool) (addr : Nat) : State :=
  let s := s.tileParity
  let t := s.tile
  { s with tile :=
      if t.evtValid then { t with evtMissed := satInc t.evtMissed }
      else { t with
        evtValid := true, evtSeq := t.evtSeq + 1, evtIndex := BitVec.ofNat 7 index, evtClass := BitVec.ofNat 3 c.code,
        evtReg := BitVec.ofNat 6 reg, evtStorage := storage, evtMissed := 0,
        evtAddr := BitVec.ofNat 47 (if storage then 0 else addr) } }

/-- The effects of the new marks of one register, lane or row by lane or row: (index, physical address of the granule). -/
def State.markEvents (s : State) (c : TileClass) (reg : Nat) (l : List (Nat × Nat)) : State :=
  l.foldl (fun s x => s.markEvent c reg x.1 false x.2) s

/-- The set of marks of a list of indices. -/
def markBits {w : Nat} (l : List Nat) : BitVec w := l.foldl (fun b i => b ||| ((1 : BitVec w) <<< i)) 0

end Sys2Proof.Machine
end

