-- ==== Sys2Proof/Machine/TileLines.lean ====
section
/-! DEFINITION. The lines that tile instructions move (06 R151, R163): their translation at dispatch, and reading and
writing them with poison (R167); the tile-store reassignment (03 R82). -/

namespace Sys2Proof.Machine

/-- The page size of translation. -/
def pageBytes : Nat := 16384

/-- The pieces of `n` bytes at `va` that lie in one page each, and in on-core memory or outside it (05 R133). -/
def pagePieces (va : Word) : Nat → Nat → List (Word × Nat)
  | 0, _ => []
  | fuel + 1, n =>
    let page := pageBytes - va.toNat % pageBytes
    let k := if va.toNat < onCoreBase then Nat.min page (onCoreBase - va.toNat) else page
    if n ≤ k then [(va, n)] else (va, k) :: pagePieces (va + wd k) fuel (n - k)

/-- The outcome of translating an operand's lines. -/
inductive Lines where
  | ok (s : State) (lines : List (List Segment))
  | exc (s : State) (e : Exc)
  | wait (s : State)

/-- A fault of a tile access as it is reported: cause 16 where it belongs to a fill or restore (05 Table 5.9). -/
def areaExc (area : Option Nat) (e : Exc) : Exc :=
  match area with
  | none => e
  | some x => { cause := 16, eaddr := e.eaddr, einfo := areaInfo x e.einfo }

/-- Translate the pieces of one line; a device page raises cause 14 (R163, 03 R64). -/
def State.translatePieces (s : State) (kind : AccKind) (area : Option Nat) : List (Word × Nat) → Lines
  | [] => .ok s [[]]
  | (va, n) :: rest =>
    let a : Access := { kind := kind, va := va, eaddr := va, tile := true, priv := s.super, area := area }
    match s.translate a 1 with
    | .hold s => .wait s
    | .fault s e => .exc s (areaExc area e)
    | .ok s (.onCore _) => .exc s (areaExc area (s.attrFault a))
    | .ok s (.phys _ .device) => .exc s (areaExc area (s.attrFault a))
    | .ok s (.phys pa ty) =>
      match s.translatePieces kind area rest with
      | .ok s (l :: _) => .ok s [{ pa := pa, ty := ty, len := n } :: l]
      | r => r

/-- Translate every line in ascending order before any is accessed (R162 step 10, R163). -/
def State.translateLines (s : State) (kind : AccKind) (area : Option Nat) (len : Nat) : List Word → Lines
  | [] => .ok s []
  | va :: rest =>
    match s.translatePieces kind area (pagePieces va 3 len) with
    | .ok s l =>
      match s.translateLines kind area len rest with
      | .ok s ls => .ok s (l ++ ls)
      | r => r
    | r => r

/-- The addresses of `n` lines at A + i·S, modulo 2^64 (R151). -/
def lineAddrs (a stride : Word) (n : Nat) : List Word := (List.range n).map (fun i => a + stride * wd i)

/-- The operand obeys the alignment of R151: A and S multiples of `al`, and for a store |S| at least the line size. -/
def operandAligned (a stride : Word) (al : Nat) (store : Option Nat) : Bool :=
  decide (a.toNat % al = 0) && decide (stride.toNat % al = 0) && (match store with
    | none => true
    | some len => decide (len ≤ stride.toInt.natAbs))

/-! ### Reading -/

/-- Read the 32-byte chunks of a segment: the bytes, and for each chunk the granule that poisons it (R167). -/
def State.readChunks (s : State) (seg : Segment) : Nat → Nat × List (Option Nat)
  | 0 => (0, [])
  | k + 1 =>
    let (v, p) := s.readChunks { seg with pa := seg.pa + 32 } k
    let bad := s.mem.poisonedTy seg.ty seg.pa
    (s.mem.readTy seg.ty seg.pa 32 + 2 ^ 256 * v, (if bad then some (seg.pa / 64 * 64) else none) :: p)

/-- Read a line: an unbacked scratch segment reads zero and is noted (03 R81). -/
def State.readLine (s : State) : List Segment → State × Nat × List (Option Nat)
  | [] => (s, 0, [])
  | seg :: rest =>
    let k := seg.len / 32
    let (s, v, p) := if s.unbacked seg.pa then (s.noteUnbacked seg.pa, 0, List.replicate k none)
      else
        let s := s.portRead 3 false seg.ty seg.pa seg.len
        let (v, p) := s.readChunks seg k
        (s, v, p)
    let (s, v', p') := s.readLine rest
    (s, v + 2 ^ (8 * seg.len) * v', p ++ p')

/-- Read every line. -/
def State.readLines (s : State) : List (List Segment) → State × List (Nat × List (Option Nat))
  | [] => (s, [])
  | l :: rest =>
    let (s, v, p) := s.readLine l
    let (s, r) := s.readLines rest
    (s, (v, p) :: r)

/-- The first poisoned granule among the chunks. -/
def firstPoison (p : List (Option Nat)) : Option Nat := p.findSome? id

/-! ### Writing -/

/-- Write a whole granule by memory type for an engine, clean or poisoned (R167, 16 R354); POISWRITE counts granules written poisoned. -/
def State.putGranule (s : State) (src : BitVec 3) (ty : MemType) (pa : Nat) (data : BitVec 512) (p : Bool) : State :=
  let s := if p then s.tallyInc 0x31 else s
  { s with mem := s.mem.engineLine src ty (pa / 64) data p }

/-- Write less than a granule for an engine; a poisoned part poisons its granule (R167), and a clean one leaves the granule's poison. -/
def State.putPart (s : State) (src : BitVec 3) (ty : MemType) (pa n v : Nat) (p : Bool) : State :=
  let s := { s with mem := s.mem.engineTy src ty pa n v }
  if p then
    let s := s.tallyInc 0x31
    match ty with
    | .cached | .scratch => { s with mem := s.mem.poisonGranule (pa / 64) }
    | .uncached | .device => { s with mem := s.mem.setBackPoison (pa / 64) true }
  else s

/-- Write `k` chunks of 32 bytes of a segment, granule by granule where a granule is covered. -/
def State.writeChunks (s : State) (ty : MemType) (pa v : Nat) : List Bool → State
  | [] => s
  | [p] => s.putPart 3 ty pa 32 (v % 2 ^ 256) p
  | p :: q :: rest =>
    if pa % 64 = 0 then
      (s.putGranule 3 ty pa (BitVec.ofNat 512 v) (p || q)).writeChunks ty (pa + 64) (v / 2 ^ 512) rest
    else (s.putPart 3 ty pa 32 (v % 2 ^ 256) p).writeChunks ty (pa + 32) (v / 2 ^ 256) (q :: rest)

/-- Write a line with the poison of each 32-byte chunk; an unbacked segment is discarded and noted (03 R81). -/
def State.writeLine (s : State) (v : Nat) (p : List Bool) : List Segment → State
  | [] => s
  | seg :: rest =>
    let k := seg.len / 32
    let s := if s.unbacked seg.pa then s.noteUnbacked seg.pa else s.writeChunks seg.ty seg.pa (v % 2 ^ (8 * seg.len)) (p.take k)
    s.writeLine (v / 2 ^ (8 * seg.len)) (p.drop k) rest

/-- Write lines with their data and chunk poison. -/
def State.writeLines (s : State) : List (List Segment) → List (Nat × List Bool) → State
  | l :: ls, (v, p) :: ds => (s.writeLine v p l).writeLines ls ds
  | _, _ => s

/-! ### The tile-store reassignment (03 R82) -/

/-- Forget the bytes and poison of scratch offsets from `lo` up to `hi`: they read zero. -/
def Mem.zeroScratch (m : Mem) (lo hi : Nat) : Mem :=
  let inRange (a : Nat) : Bool := decide (scratchBase + lo ≤ a) && decide (a < scratchBase + hi)
  { m with
    cells := m.cells.filter (fun c => !inRange c.1), poison := m.poison.filter (fun g => !inRange (64 * g))
    cache := m.cache.filter (fun l => !inRange (64 * l.granule)), copyPoison := m.copyPoison.filter (fun g => !inRange (64 * g)) }

/-- The reassignment ends: the cache has been written back, the steps that were cache are zero, BUSY clears (03 R82). -/
def State.endReassignment (s : State) : State :=
  if s.ts.busy then
    let m := s.mem.zeroScratch (s.ts.kept * 2 ^ 24) ((s.tsSteps - s.ts.cache16.toNat) * 2 ^ 24)
    { s with mem := { m with tsSets := s.ts.cache16.toNat * 8192 }, ts := { s.ts with busy := false, kept := 0 } }
  else s

/-- The reassignment begins (03 R82): the tile-store cache is written back and bypassed, the scratch steps that leave scratch are lost,
and BUSY is set until the steps that were cache are zero-filled. -/
def State.reassign (s : State) (cache16 : BitVec 4) (old new : Nat) : State :=
  let m := s.mem.writeBackStore.zeroScratch (min old new * 2 ^ 24) (max old new * 2 ^ 24)
  { s with mem := { m with tsSets := 0 }, ts := { s.ts with cache16 := cache16, busy := true, kept := min old new } }

/-- A write of CACHE16 (03 R82): a reserved value leaves the register (00 R13); a change reassigns. None while BUSY: the write
waits. -/
def State.writeTscfg (s : State) (v : BitVec 4) : Option State :=
  if s.ts.busy then none
  else if s.tsSteps < v.toNat ∨ v = s.ts.cache16 then some s
  else
    let old := s.tsSteps - s.ts.cache16.toNat
    let new := s.tsSteps - v.toNat
    some (s.reassign v old new)

end Sys2Proof.Machine
end

