-- ==== Sys2Proof/Machine/TileRegs.lean ====
section
/-! DEFINITION. The tile registers: zeroed state, TCONF and the configuration instructions (06 R145, R147, R152), and the
lazy-save area's image of them (R169). -/

namespace Sys2Proof.Machine

/-- Zeroed tile state (06 R145). -/
def TileRegs.zero : TileRegs :=
  { t := Vector.replicate 8 (Vector.replicate 128 0), k := Vector.replicate 4 (Vector.replicate 128 0)
    v := Vector.replicate 8 0, ss := Vector.replicate 64 0, q := Vector.replicate 16 0
    tflags := 0, tconf := 0x3FFFFF, ktype := 0, kdepth := Vector.replicate 4 0
    tpois := Vector.replicate 8 0, kpois := Vector.replicate 4 0, vpois := 0, sspois := 0, qpois := 0 }

/-- Tt is enabled (06 Table 6.19). -/
def tEnabled (c : BitVec 22) (t : Nat) : Bool := c.getLsbD t
/-- Kn is enabled. -/
def kEnabled (c : BitVec 22) (n : Nat) : Bool := c.getLsbD (8 + n)
/-- Vn is enabled. -/
def vEnabled (c : BitVec 22) (n : Nat) : Bool := c.getLsbD (12 + n)
/-- The scale slots are enabled. -/
def ssEnabled (c : BitVec 22) : Bool := c.getLsbD 20
/-- The streams are enabled. -/
def qEnabled (c : BitVec 22) : Bool := c.getLsbD 21

/-- Write an operand tile whole, with its marks. -/
def TileRegs.setT (r : TileRegs) (t : Fin 8) (x : Vector (BitVec 1024) 128) (p : BitVec 128) : TileRegs :=
  { r with t := r.t.set t x, tpois := r.tpois.set t p }

/-- Write an accumulator whole, with its marks. -/
def TileRegs.setK (r : TileRegs) (k : Fin 4) (x : Vector (BitVec 4096) 128) (p : BitVec 128) : TileRegs :=
  { r with k := r.k.set k x, kpois := r.kpois.set k p }

/-- A mask with bit `i` given. -/
def putBit {w : Nat} (m : BitVec w) (i : Nat) (b : Bool) : BitVec w := if b then m ||| ((1 : BitVec w) <<< i) else m &&& ~~~((1 : BitVec w) <<< i)

/-- Write a lane vector whole, with its mark. -/
def TileRegs.setV (r : TileRegs) (v : Fin 8) (x : BitVec 4096) (p : Bool) : TileRegs :=
  { r with v := r.v.set v x, vpois := putBit r.vpois v.val p }

/-- Write a scale slot, leaving its mark. -/
def TileRegs.setSs (r : TileRegs) (n : Fin 64) (x : BitVec 512) : TileRegs := { r with ss := r.ss.set n x }

/-- Write a stream record, leaving its mark. -/
def TileRegs.setQ (r : TileRegs) (n : Fin 16) (x : BitVec 256) : TileRegs := { r with q := r.q.set n x }

/-- Zero an accumulator with a type (06 R152); KOUT and enabling use it too. -/
def TileRegs.zeroK (r : TileRegs) (k : Fin 4) (int : Bool) : TileRegs :=
  { r.setK k (Vector.replicate 128 0) 0 with ktype := putBit r.ktype k.val int, kdepth := r.kdepth.set k 0 }

/-- TCFG's entry: every register whose enable changes is discarded, so that it reads zero and clean when enabled (R147). -/
def TileRegs.configure (r : TileRegs) (new : BitVec 22) : TileRegs :=
  let chg := r.tconf ^^^ new
  let r := (List.finRange 8).foldl (fun r (t : Fin 8) => if tEnabled chg t.val then r.setT t (Vector.replicate 128 0) 0 else r) r
  let r := (List.finRange 4).foldl (fun r (k : Fin 4) => if kEnabled chg k.val then r.zeroK k false else r) r
  let r := (List.finRange 8).foldl (fun r (v : Fin 8) => if vEnabled chg v.val then r.setV v 0 false else r) r
  let r := if ssEnabled chg then { r with ss := Vector.replicate 64 0, sspois := 0 } else r
  let r := if qEnabled chg then { r with q := Vector.replicate 16 0, qpois := 0 } else r
  { r with tconf := new }

/-- Invalidate the side-buffer entries of tiles (11 R250). -/
def State.dropSide (s : State) (p : Fin 8 → Bool) : State :=
  { s with assay := { s.assay with side := s.assay.side.filter (fun e => !p e.tile) } }

/-- Zero the state for a new owner (R145); the side buffer empties (11 R250). -/
def State.zeroTile (s : State) : State := (s.setRegs TileRegs.zero).dropSide (fun _ => true)

/-! ### The lazy-save area (R169, Tables 6.10 and 6.11) -/

/-- A piece of the area: offset, bytes, data, and whether its granules are written poisoned. -/
structure AreaPiece where
  off : Nat
  len : Nat
  data : Nat
  poison : Bool
  deriving DecidableEq, Repr

/-- Bytes of the header that hold fields. -/
def headerBytes : Nat := 0x140

/-- A seam slot's source as SEAMSRC (Table 6.11). -/
def SeamSlot.srcWord (x : SeamSlot) : Nat := x.src.toNat / 2 * 2 + bit x.valid

/-- A list of words of `w` bits, the first lowest. -/
def packWords (w : Nat) (l : List Nat) : Nat := l.foldr (fun x acc => x + 2 ^ w * acc) 0

/-- The header (Table 6.11). -/
def areaHeader (r : TileRegs) (seam : Vector SeamSlot 4) : Nat :=
  packWords 64 ([0x0001_0702_0100, r.tconf.toNat, r.tflags.toNat, r.ktype.toNat] ++ r.kdepth.toList.map (·.toNat)
    ++ seam.toList.map (·.srcWord) ++ [r.vpois.toNat + 256 * r.qpois.toNat, r.sspois.toNat, 0, 0])
  + 2 ^ (8 * 0x80) * packWords 128 (r.tpois.toList.map (·.toNat) ++ r.kpois.toList.map (·.toNat))

/-- The pieces of the register sections that `conf` enables. -/
def areaSections (r : TileRegs) (conf : BitVec 22) : List AreaPiece :=
  ((List.finRange 8).filter (fun t : Fin 8 => tEnabled conf t.val)).flatMap (fun t => (List.finRange 128).map (fun i =>
    { off := 0x1000 + 0x4000 * t.val + 128 * i.val, len := 128, data := (r.t[t])[i].toNat, poison := (r.tpois[t]).getLsbD i }))
  ++ ((List.finRange 4).filter (fun n : Fin 4 => kEnabled conf n.val)).flatMap (fun n => (List.finRange 128).map (fun i =>
    { off := 0x21000 + 0x10000 * n.val + 512 * i.val, len := 512, data := (r.k[n])[i].toNat, poison := (r.kpois[n]).getLsbD i }))
  ++ ((List.finRange 8).filter (fun n : Fin 8 => vEnabled conf n.val)).map (fun n =>
    { off := 0x61000 + 512 * n.val, len := 512, data := (r.v[n]).toNat, poison := r.vpois.getLsbD n })
  ++ (if ssEnabled conf then (List.finRange 64).map (fun n =>
    { off := 0x62000 + 64 * n.val, len := 64, data := (r.ss[n]).toNat, poison := r.sspois.getLsbD n }) else [])
  ++ (if qEnabled conf then (List.range 8).map (fun m =>
    { off := 0x63000 + 64 * m, len := 64, data := packWords 256 [(r.q[2 * m]?.getD 0).toNat, (r.q[2 * m + 1]?.getD 0).toNat],
      poison := r.qpois.getLsbD (2 * m) || r.qpois.getLsbD (2 * m + 1) }) else [])

/-- The 4 KB blocks of the area that the sections of `conf` lie in, without the header. -/
def areaBlocks (conf : BitVec 22) : List Nat :=
  ((List.range 8).filter (tEnabled conf)).flatMap (fun t => (List.range 4).map (fun b => 1 + 4 * t + b))
  ++ ((List.range 4).filter (kEnabled conf)).flatMap (fun n => (List.range 16).map (fun b => 33 + 16 * n + b))
  ++ (if (List.range 8).any (vEnabled conf) then [97] else []) ++ (if ssEnabled conf then [98] else [])
  ++ (if qEnabled conf then [99] else [])

/-- Where the area's blocks lie, by block number. -/
abbrev AreaMap := List (Nat × Segment)

/-- The segment of a piece. -/
def areaSegment (m : AreaMap) (off len : Nat) : List Segment :=
  match m.find? (fun x => x.1 == off / 4096) with
  | some (_, g) => [{ g with pa := g.pa + off % 4096, len := len }]
  | none => []

/-- Write a piece. -/
def State.writePiece (s : State) (m : AreaMap) (p : AreaPiece) : State :=
  s.writeLine p.data (List.replicate (p.len / 32) p.poison) (areaSegment m p.off p.len)

/-- Write the header's fields, and none of its reserved bytes (R169): the second granule holds 16 of them. -/
def State.writeHeader (s : State) (m : AreaMap) (h : Nat) : State :=
  match areaSegment m 0 headerBytes with
  | g :: _ =>
    if s.unbacked g.pa then s.noteUnbacked g.pa
    else
      let part (k : Nat) : BitVec 512 := BitVec.ofNat 512 (h / 2 ^ (512 * k))
      let s := (s.putGranule 3 g.ty g.pa (part 0) false).putPart 3 g.ty (g.pa + 64) 48 (part 1).toNat false
      [2, 3, 4].foldl (fun s k => s.putGranule 3 g.ty (g.pa + 64 * k) (part k) false) s
  | [] => s

/-- Save the tile state: the header always, and the sections enabled in TCONF (R169). -/
def State.saveArea (s : State) (m : AreaMap) : State :=
  let r := s.tile.regs
  (areaSections r r.tconf).foldl (fun s p => s.writePiece m p) (s.writeHeader m (areaHeader r s.tile.seam))

/-- Read a piece: its data, and the granule that poisons it. -/
def State.readPiece (s : State) (m : AreaMap) (off len : Nat) : State × Nat × List (Option Nat) :=
  s.readLine (areaSegment m off len)

/-- Read pieces of `len` bytes at offsets. -/
def State.readPieces (s : State) (m : AreaMap) (len : Nat) : List Nat → State × List (Nat × Option Nat)
  | [] => (s, [])
  | o :: rest =>
    let (s, v, p) := s.readPiece m o len
    let (s, l) := s.readPieces m len rest
    (s, (v, firstPoison p) :: l)

/-- The field of the header at a byte offset. -/
def headerWord (h off : Nat) : Nat := h / 2 ^ (8 * off) % 2 ^ 64

/-- The registers that a clean header gives, with every section still zero (R169). -/
def headerRegs (h : Nat) : TileRegs :=
  { TileRegs.zero with
    tconf := BitVec.ofNat 22 (headerWord h 8), tflags := BitVec.ofNat 6 (headerWord h 0x10)
    ktype := BitVec.ofNat 4 (headerWord h 0x18), kdepth := Vector.ofFn (fun i => wd (headerWord h (0x20 + 8 * i.val)))
    vpois := BitVec.ofNat 8 (headerWord h 0x60), qpois := BitVec.ofNat 16 (headerWord h 0x60 / 256)
    sspois := BitVec.ofNat 64 (headerWord h 0x68)
    tpois := Vector.ofFn (fun i => BitVec.ofNat 128 (h / 2 ^ (8 * (0x80 + 16 * i.val))))
    kpois := Vector.ofFn (fun i => BitVec.ofNat 128 (h / 2 ^ (8 * (0x100 + 16 * i.val)))) }

/-- The registers of a poisoned header: everything enabled and marked poisoned (R169). -/
def poisonedRegs : TileRegs :=
  { TileRegs.zero with
    tflags := flagPoison, tpois := Vector.replicate 8 (BitVec.allOnes 128), kpois := Vector.replicate 4 (BitVec.allOnes 128)
    vpois := BitVec.allOnes 8, sspois := BitVec.allOnes 64, qpois := BitVec.allOnes 16 }

/-- A new mark found while reading: (class, register, index, granule address). -/
abbrev NewMark := TileClass × Nat × Nat × Nat

/-- The granules that newly poison a list of pieces, given which are marked already. -/
def newMarks (c : TileClass) (reg : Nat → Nat) (idx : Nat → Nat) (l : List (Nat × Option Nat)) (marked : Nat → Bool) :
    List NewMark :=
  (l.zipIdx).filterMap (fun x => match x.1.2 with
    | some a => if marked x.2 then none else some (c, reg x.2, idx x.2, a)
    | none => none)

/-- A vector from the data of a list of pieces. -/
def vecOf {n : Nat} (w : Nat) (l : List (Nat × Option Nat)) (skip : Nat) : Vector (BitVec w) n :=
  let a := l.toArray
  Vector.ofFn (fun i => BitVec.ofNat w ((a[skip + i.val]?.getD (0, none)).1))

/-- The marks of pieces from `skip` on. -/
def marksOf {n : Nat} (l : List (Nat × Option Nat)) (skip : Nat) (old : BitVec n) : BitVec n :=
  let a := l.toArray
  old ||| markBits ((List.range n).filter (fun i => ((a[skip + i]?.getD (0, none)).2).isSome))

/-- Restore the register sections that the header's TCONF enables (R169), with the marks newly found. -/
def State.restoreSections (s : State) (m : AreaMap) (r : TileRegs) : State × TileRegs × List NewMark :=
  let ts := (List.finRange 8).filter (fun t : Fin 8 => tEnabled r.tconf t.val)
  let (s, r, nm) := ts.foldl (fun (x : State × TileRegs × List NewMark) t =>
    let (s, r, nm) := x
    let (s, l) := s.readPieces m 128 ((List.range 128).map (fun i => 0x1000 + 0x4000 * t.val + 128 * i))
    let old := r.tpois[t]
    (s, r.setT t (vecOf 1024 l 0) (marksOf l 0 old), nm ++ newMarks .t (fun _ => t.val) id l (fun i => old.getLsbD i)))
    (s, r, [])
  let ks := (List.finRange 4).filter (fun k : Fin 4 => kEnabled r.tconf k.val)
  let (s, r, nm) := ks.foldl (fun (x : State × TileRegs × List NewMark) k =>
    let (s, r, nm) := x
    let (s, l) := s.readPieces m 512 ((List.range 128).map (fun i => 0x21000 + 0x10000 * k.val + 512 * i))
    let old := r.kpois[k]
    (s, r.setK k (vecOf 4096 l 0) (marksOf l 0 old), nm ++ newMarks .k (fun _ => k.val) id l (fun i => old.getLsbD i)))
    (s, r, nm)
  let vs := (List.finRange 8).filter (fun v : Fin 8 => vEnabled r.tconf v.val)
  let (s, r, nm) := vs.foldl (fun (x : State × TileRegs × List NewMark) v =>
    let (s, r, nm) := x
    let (s, l) := s.readPieces m 512 [0x61000 + 512 * v.val]
    let old := r.vpois.getLsbD v.val
    match l with
    | [(d, p)] => (s, r.setV v (BitVec.ofNat 4096 d) (old || p.isSome), nm ++ newMarks .v (fun _ => v.val) (fun _ => 0) l (fun _ => old))
    | _ => (s, r, nm)) (s, r, nm)
  let (s, r, nm) :=
    if ssEnabled r.tconf then
      let (s, l) := s.readPieces m 64 ((List.range 64).map (fun n => 0x62000 + 64 * n))
      let old := r.sspois
      let ss : Vector (BitVec 512) 64 := vecOf 512 l 0
      (s, { r with ss := ss.map (ssLoad 0), sspois := marksOf l 0 old },
        nm ++ newMarks .ss id (fun _ => 0) l (fun i => old.getLsbD i))
    else (s, r, nm)
  if qEnabled r.tconf then
    let (s, l) := s.readPieces m 32 ((List.range 16).map (fun n => 0x63000 + 32 * n))
    let old := r.qpois
    (s, { r with q := vecOf 256 l 0, qpois := marksOf l 0 old }, nm ++ newMarks .q id (fun _ => 0) l (fun i => old.getLsbD i))
  else (s, r, nm)

/-- The 4 KB of the header, and its first granule that is poisoned (R169). -/
def State.readHeader (s : State) (m : AreaMap) : State × Nat × Option Nat :=
  let (s, v, p) := s.readPiece m 0 4096
  (s, v, firstPoison p)

/-- Restore the registers from an area whose header has been read clean (R169). -/
def State.restoreRegs (s : State) (m : AreaMap) (h : Nat) : State :=
  let (s, r, nm) := s.restoreSections m (headerRegs h)
  let s := (s.setRegs r).dropSide (fun _ => true)
  nm.foldl (fun s x => s.markEvent x.1 x.2.1 x.2.2.1 false x.2.2.2) s

/-- Restore from a header poisoned in the granule given: one tile parity event, captured as T0's lane 0 (R168, R169, log 172). -/
def State.restorePoisoned (s : State) (granule : Nat) : State :=
  ((s.setRegs poisonedRegs).dropSide (fun _ => true)).markEvent .t 0 0 false granule

end Sys2Proof.Machine
end

