-- ==== Sys2Proof/Machine/Seam.lean ====
section
/-! DEFINITION. The seam (09): CRC-64 (10 R243), seam images and their checks, the cell functions, the row reductions and
the read-out of one row. -/

namespace Sys2Proof.Machine

/-! ### CRC-64 (10 R243) -/

/-- One bit of the register. -/
def crcBit (c : Nat) : Nat := if bitOf c 63 then (2 * c % 2 ^ 64) ^^^ 0x42F0E1EBA9EA3693 else 2 * c % 2 ^ 64

/-- One byte. -/
def crcByte (c b : Nat) : Nat :=
  crcBit (crcBit (crcBit (crcBit (crcBit (crcBit (crcBit (crcBit (c ^^^ (b % 256 * 2 ^ 56)))))))))

/-- `n` bytes of `data`, the lowest first. -/
def crcOver (data : Nat) : Nat → Nat → Nat
  | 0, c => c
  | n + 1, c => crcOver (data / 256) n (crcByte c data)

/-- CRC-64 of the low `n` bytes of `data` (10 R243). -/
def crc64 (data n : Nat) : Nat := crcOver data n 0

/-! ### Images (R223, R224) -/

/-- `n` bytes of an image from offset `off`. -/
def imgField (img : BitVec 32768) (off n : Nat) : Nat := img.toNat / 2 ^ (8 * off) % 2 ^ (8 * n)

/-- CTL (Table 9.3). -/
def imgCtl (img : BitVec 32768) : Nat := imgField img 8 8
/-- OFMT. -/
def imgOfmt (img : BitVec 32768) : Nat := fieldOf (imgCtl img) 0 4
/-- RED. -/
def imgRed (img : BitVec 32768) : Nat := fieldOf (imgCtl img) 4 3
/-- QS. -/
def imgQs (img : BitVec 32768) : Fin 16 := Fin.ofNat 16 (fieldOf (imgCtl img) 8 4)
/-- TBL[t][e]. -/
def imgTbl (img : BitVec 32768) (t e : Nat) : Nat := imgField img (0x100 + 128 * t + 4 * e) 4

/-- A stage descriptor (Table 9.4). -/
structure SeamStage where
  op : Nat
  bsrc : Nat
  vsel : Nat
  hold : Bool
  tsel : Nat
  rel : Nat
  k : Int
  c0 : Nat
  c1 : Nat
  thr : Nat
  deriving DecidableEq, Repr

/-- Stage `i`, 0 to 5, of an image. -/
def imgStage (img : BitVec 32768) (i : Nat) : SeamStage :=
  let w0 := imgField img (0x40 + 32 * i) 8
  let w1 := imgField img (0x48 + 32 * i) 8
  { op := fieldOf w0 0 4, bsrc := fieldOf w0 8 3, vsel := fieldOf w0 12 3, hold := bitOf w0 15, tsel := fieldOf w0 16 4
    rel := fieldOf w0 20 3, k := signedField (fieldOf w0 24 8) 8, c0 := fieldOf w1 0 32, c1 := fieldOf w1 32 32
    thr := fieldOf (imgField img (0x50 + 32 * i) 8) 0 16 }

/-- The six stages. -/
def imgStages (img : BitVec 32768) : List SeamStage := (List.range 6).map (imgStage img)

/-- The operation reads b (R218). -/
def opReadsB (op : Nat) : Bool := (decide (1 ≤ op) && decide (op ≤ 6)) || op == 9

/-- Lane vectors that the image reads (R218). -/
def imgReadsV (img : BitVec 32768) : List Nat :=
  ((imgStages img).filter (fun st => opReadsB st.op && (st.bsrc == 1 || st.bsrc == 2))).map (·.vsel)

/-- RMASK stages of the image. -/
def imgMasks (img : BitVec 32768) : Nat := ((imgStages img).filter (fun st => st.op == 0xC)).length

/-- The bits of a stage's words that are reserved (Table 9.4). -/
def stageReserved (img : BitVec 32768) (i : Nat) : Bool :=
  imgField img (0x40 + 32 * i) 8 &&& 0xFFFFFFFF008008F0 != 0 || imgField img (0x52 + 32 * i) 6 != 0
    || imgField img (0x58 + 32 * i) 8 != 0

/-- The first failing check of an image, as the reason of Table 9.5. -/
def imgCheck (img : BitVec 32768) : Option Nat :=
  let red := imgRed img
  let ofmt := imgOfmt img
  if imgField img 0 4 ≠ 0x4D414553 ∨ imgField img 4 2 ≠ 1 then some 1
  else if crc64 img.toNat 0xFF8 ≠ imgField img 0xFF8 8 then some 2
  else if (imgStages img).any (fun st => decide (0xD ≤ st.op) || decide (6 ≤ st.bsrc) || decide (6 ≤ st.rel))
      || decide (5 ≤ red) || (decide (8 ≤ ofmt) && ofmt != 15) then some 3
  else if imgField img 6 2 != 0 || imgCtl img / 2 ^ 12 != 0 || bitOf (imgCtl img) 7 || imgField img 0x10 48 != 0
      || imgField img 0x900 1784 != 0 || (List.range 6).any (stageReserved img)
      || ((imgQs img).val != 0 && imgMasks img == 0) then some 4
  else none

/-! ### Arithmetic (R217) -/

/-- FP32 is NaN. -/
def nan? (b : Nat) : Bool := (dec32 b).isNan

/-- The NaN that a list of operands gives, if one of them is a NaN (R217). -/
def nanAmong (l : List Nat) : Option Nat :=
  if l.any nan? then some (if l.contains poison32 then poison32 else nan32) else none

/-- An FP32 result, a NaN made canonical. -/
def canon32 (r : FpResult) : Nat := if nan? r.bits then nan32 else r.bits

/-- RNE32(a · b). -/
def mul32 (a b : Nat) : Nat :=
  match nanAmong [a, b] with
  | some n => n
  | none => canon32 (fpMul (fpParams .f32) .nearest (dec32 a) (dec32 b))

/-- RNE32(a − b). -/
def sub32 (a b : Nat) : Nat :=
  match nanAmong [a, b] with
  | some n => n
  | none => canon32 (fpAdd (fpParams .f32) .nearest (dec32 a) (dec32 b).flip)

/-- RNE32(a · 2^k). -/
def scale32 (a : Nat) (k : Int) : Nat :=
  match dec32 a with
  | .fin n m e => if m = 0 then a else (fpRound (fpParams .f32) .nearest n m (e + k)).bits
  | .inf _ => a
  | .nan _ => if a = poison32 then poison32 else nan32

/-- RNE32(a · b + c), rounded once. -/
def fma32 (a b c : Nat) : Nat :=
  match nanAmong [a, b, c] with
  | some n => n
  | none => canon32 (fpFma (fpParams .f32) .nearest (dec32 a) (dec32 b) (dec32 c))

/-- ln 2 scaled by 2^320, by the series of 1/(k·2^k). -/
def ln2Scaled : Nat := (List.range 340).foldl (fun acc i => acc + 2 ^ 320 / ((i + 1) * 2 ^ (i + 1))) 0

/-- e^t scaled by 2^320 for t scaled alike, by its series. -/
def expSeries (t : Nat) : Nat → Nat → Nat → Nat
  | 0, _, _ => 0
  | fuel + 1, n, term => term + expSeries t fuel (n + 1) (term * t / 2 ^ 320 / (n + 1))

/-- 2^x rounded once (R217): 2^n · 2^f with f computed to far more bits than any FP32 argument needs to decide a rounding. -/
def exp2of32 (x : Nat) : Nat :=
  match dec32 x with
  | .nan _ => if x = poison32 then poison32 else nan32
  | .inf n => if n then 0 else fpInf (fpParams .f32) false
  | .fin n m e =>
    if m = 0 then 0x3F800000
    else
      -- |x| scaled by 2^160, exact
      let a := if e ≥ -160 then m * 2 ^ (e + 160).toNat else 0
      if !n && decide (128 * 2 ^ 160 ≤ a) then fpInf (fpParams .f32) false
      else if n && decide (200 * 2 ^ 160 ≤ a) then 0
      else
        let v := signedOf n a
        let int := v / 2 ^ 160
        let f := (v % 2 ^ 160).toNat
        if f = 0 then (fpRound (fpParams .f32) .nearest false 1 int).bits
        else
          let t := f * ln2Scaled / 2 ^ 160
          let r := expSeries t 90 0 (2 ^ 320)
          (fpRound (fpParams .f32) .nearest false (2 * r + 1) (int - 321)).bits

/-- 1/x rounded once (R217). -/
def recip32 (x : Nat) : Nat :=
  match nanAmong [x] with
  | some n => n
  | none => canon32 (fpDiv (fpParams .f32) .nearest (.fin false 1 0) (dec32 x))

/-- floor of an FP32 value, clamped to 0 and 31 (R217, LUT). -/
def floorClamp (b : Nat) : Nat :=
  match dec32 b with
  | .nan _ => 0
  | .inf n => if n then 0 else 31
  | .fin n m e =>
    if n then 0
    else if e ≥ 5 then (if m = 0 then 0 else 31)
    else Nat.min 31 (if e ≥ 0 then m * 2 ^ e.toNat else m / 2 ^ (-e).toNat)

/-- The relation of CMPSEL (Table 9.1). -/
def relHolds (rel x b : Nat) : Bool :=
  match fpCompare (dec32 x) (dec32 b) with
  | none => false
  | some o =>
    match rel with
    | 0 => o == .lt
    | 1 => o != .gt
    | 2 => o == .eq
    | 3 => o != .eq
    | 4 => o != .lt
    | _ => o == .gt

/-! ### The stages -/

/-- A lane within the stages (R216). -/
structure Cell where
  x : Nat
  x0 : Nat
  h : Nat
  seg : Nat
  deriving DecidableEq, Repr

/-- The operand b of a stage (R218). -/
def SeamStage.operand (st : SeamStage) (img : BitVec 32768) (v : Nat → Nat → Nat) (i j : Nat) (c : Cell) : Nat :=
  match st.bsrc with
  | 0 => st.c0
  | 1 => v st.vsel j
  | 2 => v st.vsel i
  | 3 => c.x0
  | 4 => c.h
  | _ => imgTbl img st.tsel c.seg

/-- A NaN operand's result, or the operation's. -/
def orNan (l : List Nat) (y : Nat) : Nat := (nanAmong l).getD y

/-- One stage on one lane (R217, R219); `u` is its draw where it is RMASK. -/
def SeamStage.apply (st : SeamStage) (img : BitVec 32768) (v : Nat → Nat → Nat) (i j u : Nat) (c : Cell) : Cell :=
  let b := st.operand img v i j c
  let x := c.x
  let (y, seg) : Nat × Nat :=
    match st.op with
    | 0x0 => (orNan [x] x, c.seg)
    | 0x1 => (orNan [b] b, c.seg)
    | 0x2 => (orNan [x, b] (add32 x b), c.seg)
    | 0x3 => (mul32 x b, c.seg)
    | 0x4 => (orNan [x, b] (if rank32 x < rank32 b then b else x), c.seg)
    | 0x5 => (orNan [x, b] (if rank32 b < rank32 x then b else x), c.seg)
    | 0x6 => (orNan [x, b] (if relHolds st.rel x b then x else orNan [st.c1] st.c1), c.seg)
    | 0x7 => (scale32 x st.k, c.seg)
    | 0x8 =>
      if nan? x then (x, 0)
      else
        let d := sub32 x st.c0
        let e := scale32 d st.k
        if nan? d || nan? e then (nan32, 0)
        else let idx := floorClamp e; (imgTbl img st.tsel idx, idx)
    | 0x9 => (fma32 x c.h b, c.seg)
    | 0xA => (exp2of32 x, c.seg)
    | 0xB => (recip32 x, c.seg)
    | _ => (orNan [x, st.c0] (if u < st.thr then mul32 x st.c0 else 0), c.seg)
  { x := y, x0 := c.x0, h := if st.hold then y else c.h, seg := seg }

/-- Every stage on one lane; `u n` is the draw of the n-th RMASK stage. -/
def applyStages (img : BitVec 32768) (v : Nat → Nat → Nat) (i j : Nat) (u : Nat → Nat) :
    List SeamStage → Nat → Cell → Cell
  | [], _, c => c
  | st :: rest, n, c =>
    if st.op = 0xC then applyStages img v i j u rest (n + 1) (st.apply img v i j (u n) c)
    else applyStages img v i j u rest n (st.apply img v i j 0 c)

/-- An accumulator element as it enters stage 1 (R216). -/
def enterCell (int : Bool) (k : Nat) : Nat :=
  if int then
    if k = marker32 then fpInf (fpParams .f32) false else (fpOfInt (fpParams .f32) .nearest (int32 k)).bits
  else k

/-! ### Row reductions (R220) -/

/-- Adjacent pairs added. -/
def pairSums : List Nat → List Nat
  | a :: b :: t => add32 a b :: pairSums t
  | l => l

/-- The fixed pairwise tree of seven levels. -/
def treeSum (l : List Nat) : Nat :=
  (pairSums (pairSums (pairSums (pairSums (pairSums (pairSums (pairSums l))))))).headD 0

/-- The greatest value with its first index. -/
def maxIndex : List Nat → Nat → Nat → Nat → Nat × Nat
  | [], _, best, bi => (best, bi)
  | y :: t, i, best, bi => if rank32 best < rank32 y then maxIndex t (i + 1) y i else maxIndex t (i + 1) best bi

/-- log2 e as FP32 (R220). -/
def log2e32 : Nat := 0x3FB8AA3B

/-- The results of a row: for vr and for vr + 1 (R220). -/
def reduceRow (red : Nat) (ys : List Nat) : Nat × Nat :=
  let (m, mi) := match ys with
    | [] => (0, 0)
    | y :: t => maxIndex t 1 y 0
  match red with
  | 1 => (treeSum ys, 0)
  | 2 => (m, 0)
  | 3 => (mi, 0)
  | 4 =>
    let s :=
      if nan? m then m
      else if m = fpInf (fpParams .f32) false then nan32
      else if m = fpInf (fpParams .f32) true then 0
      else treeSum (ys.map (fun y => exp2of32 (mul32 (sub32 y m) log2e32)))
    (m, s)
  | _ => (0, 0)

/-- The result elements of a poisoned row (R220). -/
def reducePoisoned (red : Nat) : Nat × Nat := if red = 3 then (marker32, 0) else (poison32, poison32)

/-! ### Quantising a row (R222, R211) -/

/-- The quantised row: its bytes, its scale bytes by block, and its statistics (R222, 08 R211). -/
structure RowOut where
  data : Nat
  scales : List Nat
  stat : QStat
  deriving DecidableEq, Repr

/-- A source of the quantiser: its sign bit and value, or none where its granule or row is poisoned (08 R203). -/
abbrev QSrc := Option (Bool × Fp)

/-- Quantise sources with exponent `e`; a poisoned one writes code 0 and enters nothing (08 R202, R203). -/
def quantNative (f : Nat) (e : Int) (l : List QSrc) : List Nat × QStat :=
  l.foldr (fun x acc => match x with
    | some (sg, v) => let (c, st) := quantiseSigned sg v f e; (c :: acc.1, st.merge acc.2)
    | none => (0 :: acc.1, acc.2)) ([], {})

/-- Split a list into blocks of `b`. -/
def blocksOf {α : Type} (b : Nat) : Nat → List α → List (List α)
  | 0, _ => []
  | n + 1, l => l.take b :: blocksOf b n (l.drop b)

/-- Quantise a lane or row through a slot that is not poisoned (08 R202, R211). -/
def quantLane (f : Nat) (slot : BitVec 512) (l : List QSrc) : RowOut :=
  if ssBlock slot && fmtHasBlock f then
    let b := ssBlk slot
    let outs := (blocksOf b (l.length / b) l).map (fun blk =>
      let am := blockAmax (blk.map (fun x => match x with | some (_, v) => (v, false) | none => (.nan false, true)))
      let byte := blockByte f am.1 am.2
      let (cs, st) := quantNative f ((byte : Int) - 127 + blockFactor f) blk
      (cs, byte, st))
    { data := packElems (fmtWidth f) (outs.flatMap (fun x => x.1)), scales := outs.map (fun x => x.2.1)
      stat := outs.foldl (fun acc x => acc.merge x.2.2) {} }
  else
    let (cs, st) := quantNative f (ssExp slot) l
    { data := packElems (fmtWidth f) cs, scales := [], stat := st }

/-- The scale vectors of lanes: vector `k` holds at byte 4i + q the scale of lane i, block 4k + q (08 R212). -/
def scaleVector (rows : List (List Nat)) (k : Nat) : BitVec 4096 :=
  BitVec.ofNat 4096 (packWords 32 (rows.map (fun r =>
    packWords 8 ((List.range 4).map (fun q => (r[4 * k + q]?).getD 0)))))

end Sys2Proof.Machine
end

