-- ==== Sys2Proof/Machine/DictEntries.lean ====
section
/-! DEFINITION. The dictionary's entries (15 R328 to R335, Tables 15.3 to 15.10; 12 Table 12.4), the capability list
(15 R345, R346) and the spare map (16 R361): what each holds, as the state gives it. -/

namespace Sys2Proof.Machine

/-! ### Bytes (00 R7) -/

/-- The low `n` bytes of a number, byte 0 first. -/
def bytesOf : Nat → Nat → List Byte
  | 0, _ => []
  | n + 1, v => BitVec.ofNat 8 v :: bytesOf n (v / 256)

/-- The number whose bytes these are, byte 0 first. -/
def natOf : List Byte → Nat
  | [] => 0
  | b :: t => b.toNat + 256 * natOf t

/-- The bytes of a string of characters of one byte. -/
def textBytes (t : String) : List Byte := t.toList.map (fun c => BitVec.ofNat 8 c.toNat)

/-! ### Types and rights -/

/-- The access rights of Table 15.2. -/
inductive Right where
  | ro
  | rw
  | wo
  | const
  | rws
  deriving DecidableEq, Repr

/-- The size of a fixed-size type (Table 15.1); none for STR and DOMAIN. -/
def typeSize (type : Nat) : Option Nat :=
  [1, 1, 2, 4, 8, 2, 4, 8, 4].map some |>.getD type (if type = 0xB then some 256 else none)

/-- The entries of an index from subindex 1 up: their types and rights (Tables 15.3 to 15.10, 12.4). Empty where the index
does not exist. -/
def indexSpecs (winze : Bool) (idx : Nat) : List (Nat × Right) :=
  if idx = 0x1000 then
    [(3, .const), (9, .const), (9, .const), (3, .ro), (1, .ro), (3, .ro), (1, .ro), (0, .ro), (2, .const), (4, .ro)]
  else if idx = 0x1100 then List.replicate (if winze then 14 else 13) (0xA, .ro)
  else if idx = 0x2000 then [(0xA, .rws), (1, .rw), (1, .rw), (1, .rw), (1, .rw), (1, .rw)]
  else if idx = 0x2100 then [(1, .rw), (1, .rw), (0, .rw), (3, .rw), (1, .rw), (1, .rw)]
  else if idx = 0x3000 then List.replicate 6 (3, .ro)
  else if idx = 0x3001 then [(0xA, .rws)]
  else if idx = 0x4000 then List.replicate 0x7F (4, .ro)
  else if idx = 0x4001 then List.replicate 0x3F (0xB, .ro)
  else if idx = 0x4002 then [(3, .rw)]
  else if idx = 0x5000 then
    [(2, .rw), (3, .rw), (1, .rw), (2, .rws), (2, .rws), (5, .rws), (5, .rws), (1, .rw), (0, .rw)]
  else if idx = 0x5001 then [(3, .ro), (0xA, .ro)]
  else if idx = 0x6000 then
    [(0, .rw), (2, .rw), (1, .rw), (3, .rw), (3, .rw), (2, .rw), (3, .rw), (2, .rw), (1, .rw), (1, .rw), (3, .rw)]
  else if idx = 0x6001 then List.replicate 0x20 (3, .ro)
  else if idx = 0x7000 then [(0, .rw), (4, .rws), (3, .rws), (0, .rw)]
  else if idx = 0x7001 then List.replicate 0x10 (0xA, .ro)
  else if idx = 0x7002 then [(0xA, .ro)]
  else if idx = 0x8000 then [(0xA, .ro), (0, .rws), (0, .rws)]
  else if idx = 0x8010 then [(0xA, .wo)]
  else []

/-- The key of an entry. -/
def dkey (idx sub : Nat) : Nat := idx * 256 + sub

/-- What a request meets at an index and subindex (R328). -/
inductive Look where
  | noIndex
  | noSub
  | entry (type : Nat) (right : Right)
  deriving DecidableEq, Repr

/-- Find an entry; subindex 0 is a U8, RO entry (R328). -/
def State.lookEntry (s : State) (idx sub : Nat) : Look :=
  match indexSpecs s.build.winze idx with
  | [] => .noIndex
  | l => if sub = 0 then .entry 1 .ro else
    match l[sub - 1]? with
    | some (t, r) => .entry t r
    | none => .noSub

/-- The entry's type, 0 where it does not exist (Table 15.13). -/
def State.entryType (s : State) (idx sub : Nat) : Nat :=
  match s.lookEntry idx sub with
  | .entry t _ => t
  | _ => 0

/-- The engine answers an index itself (R332). -/
def engineServed (idx : Nat) : Bool := idx == 0x1000 || idx == 0x1100 || idx == 0x8010

/-- The entry is persisted in the store by R331: RW and RWS at 0x2000 to 0x7FFF and 0x8000 to 0x80FF, but PWRPOL
(Table 15.4). -/
def persistedRw (idx sub : Nat) (r : Right) : Bool :=
  (r == .rw || r == .rws) && (decide (0x2000 ≤ idx) && decide (idx ≤ 0x7FFF) || decide (0x8000 ≤ idx) && decide (idx ≤ 0x80FF))
    && !(idx == 0x2000 && sub == 6)

/-- The default of an entry with a fixed numeric default (Tables 15.4 to 15.10, 12.4); 0 for the rest. -/
def numDefault (nodeId : Nat) (idx sub : Nat) : Nat :=
  let d (l : List Nat) : Nat := (l[sub - 1]?).getD 0
  if idx = 0x2000 then d [0, 0, 4, 0x80, 0, 0]
  else if idx = 0x2100 then d [1, 1, 0, 1048576, 6, 10]
  else if idx = 0x4002 then 64
  else if idx = 0x5000 then d [1024, 65536, 16, 100, 100, 0, 0, 3, 1]
  else if idx = 0x6000 then d [1, 64, 8, 256, 4, 4096, 1024, 256, 192, 8, nodeId]
  else if idx = 0x7000 then d [1, 0, 0, 1]
  else 0

/-- The value of an entry that the store can hold: what was written or loaded, else its default (R331). -/
def State.storedBytes (s : State) (idx sub type : Nat) : List Byte :=
  match s.dict.vals.find? (fun x => x.1 == dkey idx sub) with
  | some x => x.2
  | none =>
    match typeSize type with
    | some n => bytesOf n (numDefault s.straps.nodeId.toNat idx sub)
    | none => []

/-- The value of a parameter of a fixed-size type: 0 where the entry does not exist. -/
def State.param (s : State) (idx sub : Nat) : Nat :=
  match s.lookEntry idx sub with
  | .entry t _ => natOf (s.storedBytes idx sub t)
  | _ => 0

/-- A parameter read as a signed 16-bit number. -/
def State.paramI16 (s : State) (idx sub : Nat) : Int := (BitVec.ofNat 16 (s.param idx sub)).toInt

/-- Put a value at its key, keys rising. -/
def putVal (k : Nat) (v : List Byte) : List (Nat × List Byte) → List (Nat × List Byte)
  | [] => [(k, v)]
  | x :: t => if k < x.1 then (k, v) :: x :: t else if k = x.1 then (k, v) :: t else x :: putVal k v t

/-- Store a value in an entry. -/
def State.setEntry (s : State) (idx sub : Nat) (v : List Byte) : State :=
  { s with dict := { s.dict with vals := putVal (dkey idx sub) v s.dict.vals } }

/-! ### Spares (16 Table 16.4) -/

/-- The dies of the tile store. -/
def State.dies (s : State) : Nat := if s.build.twoDies then 2 else 1

/-- The spares of a class: for class 1, 16·die + index; for class 2, the T register. -/
def State.spareSet (s : State) (c : Fin 5) : List Nat :=
  match c with
  | 0 => List.range 8
  | 1 => List.range (16 * s.dies)
  | 2 => List.range 8
  | 3 => [0]
  | 4 => [0, 1]

/-- The spares of a class that may replace a unit: of its own die for class 1, of its own register for class 2. -/
def State.sparesFor (s : State) (c : Fin 5) (unit : Nat) : List Nat :=
  match c with
  | 1 => (s.spareSet c).filter (fun n => n / 16 == unit / 256)
  | 2 => [unit / 128]
  | _ => s.spareSet c

/-- A spare is free: neither in use nor dead. One that an open fill is loading is free until the fill closes (15 R345). -/
def FillMachine.spareFree (m : FillMachine) (n : Nat) : Bool := !(m.inUse.any (fun x => x.1 == n)) && !m.deadSpares.contains n

/-- The free spares of a class. -/
def State.freeSpares (s : State) (c : Fin 5) : List Nat := (s.spareSet c).filter s.res.fills[c].spareFree

/-- The index of a spare within its class and die. -/
def spareIndex (c : Fin 5) (n : Nat) : Nat := if c = 1 then n % 16 else n

/-- INVn (Table 15.5): spares built, free, in use and dead. -/
def State.inventory (s : State) (n : Nat) : Nat :=
  if h : n < 5 then
    let c : Fin 5 := ⟨n, h⟩
    let m := s.res.fills[c]
    (s.spareSet c).length + 2 ^ 8 * (s.freeSpares c).length + 2 ^ 16 * m.inUse.length + 2 ^ 24 * (m.deadSpares.length + m.retired.length)
  else 1 + 2 ^ 8 * bit (!s.dep.spen) + 2 ^ 16 * bit s.dep.spen

/-- A record of the spare map (16 Table 16.7). -/
def spareRec (cls state mode unit spare : Nat) : List Byte :=
  bytesOf 8 (cls + 2 ^ 6 * state + 2 ^ 8 * mode + 2 ^ 16 * unit + 2 ^ 28 * spare)

/-- The units of a class that are dead and have no spare: retired, or left out of a folded stope. -/
def FillMachine.bare (m : FillMachine) : List Nat := m.dead.filter (fun u => !(m.inUse.any (fun x => x.2 == u)))

/-- The records of one class: spares in use, units without a spare, spares dead (log 83). -/
def State.spareRecs (s : State) (c : Fin 5) : List (List Byte) :=
  let m := s.res.fills[c]
  m.inUse.map (fun x => spareRec c.val 1 0 x.2 (spareIndex c x.1)) ++ m.bare.map (fun u => spareRec c.val 2 0 u 0)
    ++ m.deadSpares.map (fun n => spareRec c.val 3 0 (if c = 1 then 256 * (n / 16) else if c = 2 then 128 * n else 0) (spareIndex c n))

/-- SPAREMAP (16 R361). -/
def State.spareMap (s : State) : List Byte :=
  let recs := (List.finRange 5).flatMap s.spareRecs
    ++ (if s.dep.spen then [spareRec 5 1 0 s.dep.spblk.toNat 0] else [])
    ++ (if s.res.stopeMode = 0 then [] else [spareRec 6 0 s.res.stopeMode.toNat 0 0])
  bytesOf 8 (0x4D53 + 2 ^ 16 + 2 ^ 32 * recs.length) ++ recs.flatten

/-! ### Capability list (R345, R346, Table 15.16) -/

/-- WZCFG (02 Table 2.18): zero where the port is absent. -/
def State.wzcfg (s : State) : Nat :=
  if s.build.winze then s.wz.maxlat.toNat * 8 + bit s.wz.idemp * 4 + bit s.wz.specsafe * 2 + 1 else 0

/-- WZCFG [14:0] as the port declares it, a MAXLAT of 0 standing for 4,095 (02 R57). The record was built from it before CORE reset was
released (15 R345). -/
def wzConfig (d : BitVec 15) : Nat := (if d.extractLsb' 3 12 = 0 then 4095 else (d.extractLsb' 3 12).toNat) * 8 + bit (d.getLsbD 2) * 4 + bit (d.getLsbD 1) * 2 + 1

/-- The body words of the capability records: ID, offset and body in list order. -/
def State.capBodies (s : State) : List (Nat × Nat × Nat) :=
  let free (c : Fin 5) : Nat := (s.freeSpares c).length
  let dieFree (d : Nat) : Nat := ((s.freeSpares 1).filter (fun n => n / 16 == d)).length
  [(0x1, 0x040, 0x07020100), (0x2, 0x050, 409600 + 2 ^ 32), (0x3, 0x060, 0x71FF),
   (0x4, 0x070, s.build.nbank + bit (!s.res.fills[3].inUse.isEmpty) * 16 + 32),
   (0x5, 0x080, bit s.build.flatTlb + 0b111 * 2 + 4 * 16),
   (0x6, 0x090, bit s.build.twoDies + s.tsUsable * 16 + s.tsSteps * 2 ^ 16)]
  ++ (if s.build.winze then [(0x7, 0x0A0, wzConfig s.straps.wzDecl)] else [])
  ++ [(0x8, 0x0B0, 4 + 6 * 16 + 256 * 2 ^ 8 + 2 ^ 24), (0x9, 0x0C0, 20 + 2 ^ 8 + 256 * 2 ^ 16),
      (0xA, 0x0D0, 16384 + 4 * 2 ^ 16), (0xB, 0x0E0, 8192 + 16 * 2 ^ 16 + 32 * 2 ^ 24),
      (0xC, 0x0F0, 1 + s.straps.mgmtNode.toNat * 2 ^ 8 + s.dict.capRate.toNat * 2 ^ 16),
      (0xD, 0x100, free 0 + dieFree 0 * 2 ^ 8 + dieFree 1 * 2 ^ 16 + free 2 * 2 ^ 24 + free 3 * 2 ^ 32 + free 4 * 2 ^ 33
        + bit (!s.dep.spen) * 2 ^ 35),
      (0x10, 0x110, 0xF + 0x10 * 2 ^ 8)]

/-- The header word of a record (Table 15.15). -/
def capHeader (id next : Nat) : Nat := id + 2 ^ 16 + 2 * 2 ^ 24 + next * 2 ^ 32

/-- The records of the list: offset, header word, body word. -/
def capChain : List (Nat × Nat × Nat) → List (Nat × Nat × Nat)
  | [] => []
  | (id, off, body) :: t => (off, capHeader id (match t with | x :: _ => x.2.1 | [] => 0), body) :: capChain t

/-- The 8 bytes at a byte offset of the capability space; 0 where no record lies. -/
def State.capWord (s : State) (off : Nat) : Nat :=
  match (capChain s.capBodies).find? (fun r => r.1 == off || r.1 + 8 == off) with
  | some (o, h, b) => if o = off then h else b
  | none => 0

/-! ### Values -/

/-- BOOTSTAT, DPBOOT [5:0] (14 Table 14.9). -/
def Deputy.boot (d : Deputy) : Nat := d.bootStatus.toNat + bit d.recov * 16 + bit d.xok * 32

/-- BUILD (Table 15.3). -/
def Build.word (b : Build) : Nat := b.nbank + bit b.flatTlb * 16 + bit b.twoDies * 32 + bit b.winze * 64

/-- A tally histogram's 32 buckets as bytes (Table 15.1). -/
def Resil.histBytes (r : Resil) (n : Nat) : List Byte :=
  (List.range 32).flatMap (fun b => bytesOf 8 (smGet 0#64 (32 * n + b) r.hist).toNat)

/-- The 512 bits of a record as 64 bytes. -/
def recordBytes (r : BitVec 512) : List Byte := bytesOf 64 r.toNat

/-- The value of an entry that exists (R328, R335). -/
def State.entryBytes (s : State) (idx sub type : Nat) : List Byte :=
  if sub = 0 then bytesOf 1 (indexSpecs s.build.winze idx).length
  else if idx = 0x1000 then
    match sub with
    | 1 => bytesOf 4 0x07020100
    | 2 => textBytes "Driseund"
    | 3 => textBytes "Glehioc GX-7"
    | 4 => bytesOf 4 s.straps.nodeId.toNat
    | 5 => bytesOf 1 s.straps.mgmtNode.toNat
    | 6 => bytesOf 4 s.dep.fwver.toNat
    | 7 => bytesOf 1 s.dep.boot
    | 8 => bytesOf 1 (bit s.straps.secen)
    | 9 => bytesOf 2 s.build.word
    | _ => bytesOf 8 (s.res.tally[2] - s.res.cycBase).toNat
  else if idx = 0x1100 then
    match (capChain s.capBodies)[sub - 1]? with
    | some (_, h, b) => bytesOf 8 h ++ bytesOf 8 b
    | none => []
  else if idx = 0x3000 then bytesOf 4 (s.inventory (sub - 1))
  else if idx = 0x4000 then bytesOf 8 ((s.res.tally[sub]?).getD 0).toNat
  else if idx = 0x4001 then s.res.histBytes sub
  else if idx = 0x5001 then
    if sub = 1 then bytesOf 4 (s.assay.goodVid.toNat + 2 ^ 16 * s.assay.goodTrim.toNat)
    else s.assay.delay.toList
  else if idx = 0x6001 then bytesOf 4 ((s.dict.pools[sub - 1]?).getD 0).toNat
  else if idx = 0x7001 then
    match s.dict.fatals[sub - 1]? with
    | some r => recordBytes r
    | none => []
  else if idx = 0x7002 then s.dict.short
  else if idx = 0x8000 ∧ sub = 1 then bytesOf 48 s.straps.fuseHash.toNat
  else if idx = 0x8010 then []
  else s.storedBytes idx sub type

/-! ### Ranges (R335) -/

/-- A parameter's number lies in an inclusive range. -/
def inRange (v lo hi : Nat) : Bool := decide (lo ≤ v) && decide (v ≤ hi)

/-- Whether a value may be written to an entry (Tables 15.1, 15.4 to 15.10, 12.4). -/
def State.valueOk (s : State) (idx sub type : Nat) (b : List Byte) : Bool :=
  let v := natOf b
  let i16 (n : Nat) : Int := (BitVec.ofNat 16 n).toInt
  let ok :=
    if idx = 0x2000 then
      match sub with
      | 1 => decide (b.length ≤ 512)
      | 2 => inRange v 0 127
      | 3 => inRange v 0 7
      | 5 => inRange v 0 3
      | 6 => !(bitOf v 1 && bitOf v 2)
      | _ => true
    else if idx = 0x2100 then
      match sub with
      | 1 => inRange v 0 7
      | 2 => inRange v 0 3
      | 5 => inRange v 6 26
      | 6 => inRange v 0 20
      | _ => true
    else if idx = 0x5000 then
      match sub with
      | 1 => inRange v 1 65535
      | 2 => inRange v 1024 16777216
      | 4 => inRange v 0 255 && decide (v ≤ s.param 0x5000 5)
      | 5 => inRange v 0 255 && decide (s.param 0x5000 4 ≤ v)
      | 6 => decide (-128 ≤ i16 v) && decide (i16 v ≤ 127) && decide (i16 v ≤ s.paramI16 0x5000 7)
      | 7 => decide (-128 ≤ i16 v) && decide (i16 v ≤ 127) && decide (s.paramI16 0x5000 6 ≤ i16 v)
      | 8 => inRange v 1 255
      | _ => true
    else if idx = 0x7000 ∧ sub = 2 then
      decide (v % 4096 = 0) && (match s.region v with
        | some r => !r.device && r.tier == 2
        | none => false)
    else true
  ok && (type != 0 || decide (v ≤ 1)) && (type != 9 || decide (b.length ≤ 255))

end Sys2Proof.Machine
end

