-- ==== Sys2Proof/Machine/Notify.lean ====
section
/-! DEFINITION. Frames of the field network and NOTIFY (15 R336 to R341), and firmware's rewriting of the spare map. -/

namespace Sys2Proof.Machine

/-- A frame's 64 bytes from header fields and data (15 Table 15.13), padded with zeros. -/
def protoFrame (idx sub type status off : Nat) (last : Bool) (data : List Byte) : BitVec 512 :=
  BitVec.ofNat 512 (natOf (bytesOf 2 idx ++ bytesOf 1 sub ++ bytesOf 1 (type * 16 + status) ++ bytesOf 3 off
    ++ bytesOf 1 (bit last * 64 + data.length) ++ data))

/-- An identifier (15 Table 15.12). -/
def canIdent (prio dst src service : Nat) (resp : Bool) (tid : Nat) : BitVec 29 :=
  BitVec.ofNat 29 (prio * 2 ^ 26 + dst * 2 ^ 19 + src * 2 ^ 12 + service * 2 ^ 8 + bit resp * 2 ^ 7 + tid)

/-- The controller sends: it is enabled, the part has a field-network node, and it is not bus-off (15 R338, Table 15.17). -/
def State.canSends (s : State) : Bool := s.can.en && decide (s.straps.mgmtNode ≠ 0) && decide (s.can.state ≠ 2)

/-- The FD data lengths, by data length code (15 R336). -/
def fdLength (dlc : BitVec 4) : Nat := if dlc.toNat ≤ 8 then dlc.toNat else ([12, 16, 20, 24, 32, 48, 64][dlc.toNat - 9]?).getD 64

/-- The smallest FD data length that holds `n` bytes (15 R339). -/
def fdSmallest (n : Nat) : Nat := (((List.range 16).map (fun c => fdLength (BitVec.ofNat 4 c))).find? (fun k => decide (n ≤ k))).getD 64

/-- The error state of the counts: error passive from 128, bus off from 256 transmit errors (15 R336, log 178). -/
def errorState (tx rx : Nat) : BitVec 2 := if 256 ≤ tx then 2 else if 128 ≤ tx ∨ 128 ≤ rx then 1 else 0

/-- The error counts become these. -/
def Can.count (c : Can) (tx rx : Nat) : Can := { c with txErr := BitVec.ofNat 9 tx, rxErr := BitVec.ofNat 9 rx, state := errorState tx rx }

/-- Send a frame on CAN_TX, at the smallest data length that holds it. Each attempt that the bus disturbs adds 8 to the transmit error
count, and the attempt that succeeds takes 1 away; how many are disturbed is free. A frame is lost where the controller does not send, and
where the count reaches bus off (15 R336, R339, log 178). -/
def State.sendCan (s : State) (ident : BitVec 29) (frame : BitVec 512) : State :=
  if !s.canSends then s
  else
    let tx := s.can.txErr.toNat + 8 * Config.freeCount s.free
    let t := s.drawn
    if 256 ≤ tx then { t with can := t.can.count (s.can.txErr.toNat + (263 - s.can.txErr.toNat) / 8 * 8) t.can.rxErr.toNat }
    else
      let out : CanOut := { ident := ident, len := fdSmallest (8 + fieldOf frame.toNat 56 6), frame := frame }
      { t with can := { t.can.count (tx - 1) t.can.rxErr.toNat with sent := t.can.sent ++ [out] } }

/-- A frame is received: each attempt disturbed before adds 1 to the receive error count, up to 255, and the reception takes 1 away, or
brings a count above 127 back to one of 119 to 127. How many are disturbed, and to which count, is free (15 R336, log 178). -/
def State.hearCan (s : State) : State :=
  let rx := Nat.min 255 (s.can.rxErr.toNat + Config.freeCount s.free)
  let s := s.drawn
  let rx := if 127 < rx then 119 + Config.freeCount s.free % 9 else rx - 1
  let t := s.drawn
  { t with can := t.can.count t.can.txErr.toNat rx }

/-- Send one NOTIFY frame (15 R341): TID counts notifications modulo 128. -/
def State.notifyFrame (s : State) (prio : Nat) (frame : BitVec 512) : State :=
  let tid := s.dict.ntfTid + 1
  let s := { s with dict := { s.dict with ntfTid := tid } }
  s.sendCan (canIdent prio (s.param 0x2000 2) s.straps.mgmtNode.toNat 4 false tid.toNat) frame

/-- A value in pieces of at most 56 bytes: offset, whether it is the last, bytes. The fuel bounds the pieces. -/
def framePieces (total off : Nat) : Nat → List Byte → List (Nat × Bool × List Byte)
  | 0, _ => []
  | n + 1, l =>
    let last := decide (l.length ≤ 56)
    (off, last, l.take 56) :: (if last then [] else framePieces total (off + 56) n (l.drop 56))

/-- Notify an entry's value in pieces by OFFSET (15 R341). -/
def State.notifyValue (s : State) (prio idx sub type : Nat) (v : List Byte) : State :=
  (framePieces v.length 0 (v.length / 56 + 1) v).foldl
    (fun s x => s.notifyFrame prio (protoFrame idx sub type 0 x.1 x.2.1 x.2.2)) s

/-- Notify an entry at a priority. -/
def State.notifyAt (s : State) (prio idx sub : Nat) : State :=
  match s.lookEntry idx sub with
  | .entry t _ => s.notifyValue prio idx sub t (s.entryBytes idx sub t)
  | _ => s

/-- Notify an entry at the priority NOTIFYPRI. -/
def State.notifyEntry (s : State) (idx sub : Nat) : State := s.notifyAt (s.param 0x2000 3) idx sub

/-- BOOTSTAT has changed (15 R341). -/
def State.notifyBoot (s : State) : State := s.notifyEntry 0x1000 7

/-- INV6, the program SRAM's spare block, is notified where it differs from what it was before. -/
def State.blockSpared (s before : State) : State := if s.inventory 5 = before.inventory 5 then s else s.notifyEntry 0x3000 6

/-- Firmware rewrites SPAREMAP and notifies INVn where they differ from what they were before (16 R360, R361; 15 R341). -/
def State.sparesChanged (s : State) (before : State) : State :=
  let s := s.setEntry 0x3001 1 s.spareMap
  (List.range 6).foldl (fun s n => if s.inventory n = before.inventory n then s else s.notifyEntry 0x3000 (n + 1)) s

/-- Firmware runs: an image has been accepted and the deputy is not halted (15 R332, 14 R324). -/
def State.firmware (s : State) : Bool := decide (s.dep.bootStatus = 1) && !s.dep.halted

end Sys2Proof.Machine
end

