-- ==== Sys2Proof/Machine/Calib.lean ====
section
/-! DEFINITION. Margin calibration (11 R254, R255, R258): the operating point, its steps, and what a mismatch does to it. -/

namespace Sys2Proof.Machine

/-- CALEN: calibration runs (15 Table 15.7). -/
def State.calEnabled (s : State) : Bool := s.param 0x5000 9 == 1

/-- A stope fill or fold fill is open or queued (11 Table 11.2). -/
def State.stopeFillBusy (s : State) : Bool := s.res.fills[0].openFill.isSome || !s.res.fills[0].queue.isEmpty

/-- Set the operating point: the codes on VID_REQ and TILE_TRIM (11 R255). The integrator drops VID_OK after a change of VID_REQ
(17 R375). -/
def State.setPoint (s : State) (vid : BitVec 16) (trim : BitVec 8) : State :=
  { s with assay := { s.assay with vid := vid, trim := trim }
           pwr := if vid = s.assay.vid then s.pwr else { s.pwr with vidOk := false } }

/-- The knob can move one step toward less margin within its limits: a lower voltage code, a higher trim (11 R254). -/
def State.canLess (s : State) (trim : Bool) : Bool :=
  if trim then decide (s.assay.trim.toInt + 1 ≤ s.paramI16 0x5000 7) && decide (s.assay.trim.toInt < 127)
  else decide (s.param 0x5000 4 < s.assay.vid.toNat)

/-- Move a knob one step toward less margin. -/
def State.moveLess (s : State) (trim : Bool) : State :=
  if trim then s.setPoint s.assay.vid (s.assay.trim + 1) else s.setPoint (s.assay.vid - 1) s.assay.trim

/-- Move a knob one step toward more margin, not beyond its limit. -/
def State.moveMore (s : State) (trim : Bool) : State :=
  if trim then
    if s.paramI16 0x5000 6 < s.assay.trim.toInt then s.setPoint s.assay.vid (s.assay.trim - 1) else s
  else if s.assay.vid.toNat < s.param 0x5000 5 then s.setPoint (s.assay.vid + 1) s.assay.trim else s

/-- Hold off for HOLDOFF periods. -/
def State.holdOff (s : State) : State := { s with assay := { s.assay with holdoff := s.param 0x5000 3 } }

/-- Open a step on a knob (11 R254). -/
def State.openStep (s : State) (trim : Bool) : State :=
  let s := s.moveLess trim
  ({ s with assay := { s.assay with
      stepOpen := true, knob := trim, steps := s.assay.steps + 1, window := 0, stepFail := none } }).tallyInc 0x3B

/-- A period of CALPER has passed (11 R254): in hold-off it counts one period; otherwise the other knob is tried, unless a
stope fill blocks it. -/
def State.calPeriod (s : State) : State :=
  if !s.firmware || !s.calEnabled || s.assay.stepOpen then s
  else if s.assay.holdoff ≠ 0 then { s with assay := { s.assay with holdoff := s.assay.holdoff - 1 } }
  else if s.stopeFillBusy then s
  else
    let trim := !s.assay.lastKnob
    let s := { s with assay := { s.assay with lastKnob := trim } }
    if s.canLess trim then s.openStep trim else s

/-- The step's window has ended: CALWIN samples without a mismatch, or a mismatch (11 R254). -/
def State.windowDone (s : State) : Bool :=
  s.assay.stepFail.isSome || decide (s.param 0x5000 2 ≤ s.assay.window)

/-- Close the open step by its result (11 R254): the samples before the first mismatch, or CALWIN, enter CALSAMP. -/
def State.closeStep (s : State) : State :=
  let a := s.assay
  let shut (s : State) : State := { s with assay := { s.assay with stepOpen := false, stepFail := none } }
  match a.stepFail with
  | none => (shut { s with assay := { a with goodVid := a.vid, goodTrim := a.trim } }).histAdd 4 (s.param 0x5000 2)
  | some n =>
    let s := (shut (s.setPoint a.goodVid a.goodTrim)).moveMore a.knob
    ((s.holdOff.tallyInc 0x3C).histAdd 4 n).logEvent 8 0 (bit a.knob) 0 n

/-- A stope fill is requested while a step is open: it closes at once at last_good, without a result (11 Table 11.2); the histogram of
closed steps takes the samples before a mismatch, or those observed (11 R254, log 127). -/
def State.dropStep (s : State) : State :=
  if s.assay.stepOpen then
    let n := s.assay.stepFail.getD (min s.assay.window (s.param 0x5000 2))
    let s := s.setPoint s.assay.goodVid s.assay.goodTrim
    ({ s with assay := { s.assay with stepOpen := false, stepFail := none } }).histAdd 4 n
  else s

/-- The margin step of a mismatch outside a step: VID one step toward more margin, and hold-off (11 R254). -/
def State.marginStep (s : State) : State :=
  if s.firmware && s.calEnabled then (s.moveMore false).holdOff else s

/-- A mismatch outside a step takes its margin step, or waits for the stope fill to close (11 R254, Table 11.2). -/
def State.marginOn (s : State) : State :=
  if s.res.fills[0].openFill.isSome then { s with assay := { s.assay with marginDue := true } } else s.marginStep

/-- The stope fill has closed: a margin step that waited is taken. -/
def State.marginAfterFill (s : State) : State :=
  if s.assay.marginDue && s.res.fills[0].openFill.isNone then
    ({ s with assay := { s.assay with marginDue := false } }).marginStep
  else s

/-- CALIBRATION_STEP: a period of CALPER ends (11 R254). -/
def execCalibrationStep (s : State) : Host.Outcome State Fault Refusal := answer s s.calPeriod

/-- CALIBRATION_STEP_CLOSE: firmware closes the open step once its window has ended (11 R254). -/
def execCalibrationStepClose (s : State) : Host.Outcome State Fault Refusal :=
  answer s (if s.firmware && s.assay.stepOpen && s.windowDone then s.closeStep else s)

/-- The channel that serves the bank of a class-1 unit (03 R79; log 58). -/
def unitChannel (u : Nat) : Fin 32 := Fin.ofNat 32 (Config.bankChannel u)

/-- A bank fill on the channel is open: its tuning waits (11 Table 11.2). -/
def State.tuningHeld (s : State) (h : Fin 32) : Bool := s.res.fills[1].openFill.any (fun o => unitChannel o.unit == h)

/-- The tuning of a channel that has 4,096 shadow samples: the code moves by one within 0 to 31 as its counts differ by more than 16, and
the counts are cleared; a fill on the channel or CALEN = 0 keeps the counts (11 R257, R258; log 58). -/
def State.tune (s : State) (h : Fin 32) : State :=
  let x := s.win.d2dcnt[h]
  if !s.firmware || !s.calEnabled || s.tuningHeld h || decide (x.2.2.toNat < 4096) then s
  else
    let s' : State := { s with win := { s.win with d2dcnt := s.win.d2dcnt.set h (0, 0, 0) } }
    let code := s.assay.delay[h]
    let new : BitVec 8 :=
      if x.2.1.toNat + 16 < x.1.toNat then (if code.toNat < 31 then code + 1 else code)
      else if x.1.toNat + 16 < x.2.1.toNat then (if code = 0 then code else code - 1)
      else code
    if new = code then s'
    else ({ s' with assay := { s'.assay with delay := s'.assay.delay.set h new } }).tallyInc 0x3D

/-- A class-1 fill has closed: what its channel's tuning waited for is done (11 Table 11.2). -/
def State.tuneAfterFill (s : State) (u : Nat) : State := s.tune (unitChannel u)

/-- D2D_TUNING: the tuning of a channel whose 4,096 shadow samples are complete (11 R257). Reads of the channel that no command makes (those
of a fill's copying, of lines that the tile-store cache writes back) have samples of their own: `early` and `late` say whether the
captures of each differed, and they are counted first (log 58). -/
def execD2dTuning (channel : BitVec 5) (early late : List Bool) (s : State) : Host.Outcome State Fault Refusal :=
  answer s ((s.countShadows (regFin channel) (early.zip late)).tune (regFin channel))

end Sys2Proof.Machine
end

