-- ==== Sys2Proof/Machine/Banksman.lean ====
section
/-! DEFINITION. The banksman (05): task-state blocks, bank residency, the ready list and task switches, and event entry. -/

namespace Sys2Proof.Machine

/-! ### Task-state blocks (R117, R119) -/

/-- The physical address of a TSB field. -/
def tsbAddr (t : BitVec 37) : Nat := t.toNat * 1024

/-- A TSB access that counts as a fault: its KIND (R117). An address in the scratch window, which is decoded before the physical map
(03 R80), lies in no region of the map. -/
def State.tsbFault (s : State) (t : BitVec 37) (write : Bool) : Option FaultKind :=
  let pa := tsbAddr t
  match (if inScratch pa then none else s.region pa) with
  | none => some .noRegion
  | some r =>
    if r.device then some .attr
    else if r.secure then some .secure
    else if !write && (List.range 7).any (fun i => s.mem.poisoned (pa / 64 + i)) then some .parity
    else none

/-- The report of a TSB fault (R117): STAGE = 0, LEVEL = 0b111, WRITE by the access. -/
def tsbReport (k : FaultKind) (write : Bool) : Word :=
  faultReport { kind := if write then .store else .load, va := 0, eaddr := 0, priv := true } 0 k 0 7 false false false

/-- MASK as a CSR and as a TSB holds it (Table 5.12). -/
def Bank.maskWord (b : Bank) : Word :=
  wd (bit b.ppriv * 128 + bit b.priv * 64 + bit b.vswe * 32 + bit b.excm * 16 + b.ml.toNat)

/-- A level's image as (offset, value) pairs: the working, exception, RSTATE and MASK words (Table 5.1). -/
def Bank.image (b : Bank) (level : Fin 8) (st : Nat) (tilewait : Bool) : List (Nat × Word) :=
  (List.finRange 31).map (fun i => (8 * i.val, b.g[i.val + 1])) ++
  [(0xF8, b.sp), (0x100, b.fl.toBits.setWidth 64), (0x108, b.pc), (0x110, b.lc), (0x118, b.lb), (0x120, b.le),
   (0x128, b.epc), (0x130, b.ecause.setWidth 64), (0x138, b.eaddr), (0x140, b.einfo), (0x148, b.esave),
   (0x150, wd (bit b.lzfill * 2 ^ 23 + bit b.lzres * 2 ^ 22 + b.evnum.toNat * 2 ^ 16 + level.val * 2 ^ 8
      + b.subpri.toNat * 16 + bit tilewait * 8 + bit b.priv * 4 + st)),
   (0x158, b.maskWord)]

/-- Write words at offsets from a physical address, coherently. -/
def Mem.writeWords (m : Mem) (pa : Nat) (ws : List (Nat × Word)) : Mem :=
  ws.foldl (fun m w => m.writeNat (pa + w.1) w.2.toNat 8) m

/-- The record of a context among those given: a level's, and at level 0 that of the TSB that TSBP0 names. -/
def State.recordOf (s : State) (level : Fin 8) (l : List TileOwner) : Option TileOwner :=
  l.find? (fun o => decide (o.level = level) && (decide (level ≠ 0) || o.tsb == s.bm.tsbp[0]))

/-- The words of TOWN, LSAP and LZSP for a context (Tables 5.1 and 5.3): HOLDER is set for the owner of live tile state only, SAVED stands
as it is in the TSB. -/
def State.townWords (s : State) (level : Fin 8) (pa : Nat) : List (Nat × Word) :=
  let saved := s.mem.readNat (pa + 0x170) 8 % 2
  let town (o : TileOwner) (holder : Bool) : List (Nat × Word) :=
    [(0x170, wd (o.filler.val * 16 + bit o.filled * 8 + bit o.pend * 4 + 2 * bit holder + saved)), (0x180, o.lsap)]
  (match s.recordOf level s.bm.owner.toList, s.recordOf level s.bm.displaced with
    | some o, _ => town o true
    | none, some o => town o false
    | none, none => [(0x170, wd saved)]) ++ [(0x188, (s.bankOf level).lzsp)]

/-- Write a level's image to its TSB with the STATE code given; a fault leaves everything as it was (R117). -/
def State.writeImage (s : State) (level : Fin 8) (st : Nat) (tilewait : Bool) : Except (BitVec 37 × Word) State :=
  let t := s.bm.tsbp[level]
  match s.tsbFault t true with
  | some k => .error (t, tsbReport k true)
  | none =>
    let pa := tsbAddr t
    .ok { s with mem := (s.mem.writeWords pa ((s.bankOf level).image level st tilewait)).writeWords pa
                          (s.townWords level pa) }

/-- A bank read from a TSB (Table 5.1). -/
def State.imageAt (s : State) (pa : Nat) : Bank :=
  let w (o : Nat) : Word := wd (s.mem.readNat (pa + o) 8)
  let rs := (w 0x150).toNat
  let mk := (w 0x158).toNat
  { g := Vector.ofFn (fun i => if i.val = 0 then 0 else w (8 * (i.val - 1)))
    sp := w 0xF8, fl := Flags.ofBits ((w 0x100).setWidth 4), pc := w 0x108, lc := w 0x110, lb := w 0x118, le := w 0x120
    epc := w 0x128, ecause := (w 0x130).setWidth 6, eaddr := w 0x138, einfo := w 0x140, esave := w 0x148
    ppriv := bitOf mk 7, priv := bitOf mk 6, vswe := bitOf mk 5, excm := bitOf mk 4, ml := BitVec.ofNat 3 mk
    evnum := BitVec.ofNat 6 (rs / 2 ^ 16), lzres := bitOf rs 22, lzfill := bitOf rs 23, lzsp := w 0x188
    subpri := BitVec.ofNat 4 (rs / 16) }

/-- Load a level's image from a TSB into its bank (R118). -/
def State.loadImage (s : State) (level : Fin 8) (t : BitVec 37) : Except (BitVec 37 × Word) State :=
  match s.tsbFault t false with
  | some k => .error (t, tsbReport k false)
  | none => .ok (s.setBankOf level (s.imageAt (tsbAddr t)))

/-- Escalation with original cause 22 for a TSB fault: EADDR the TSB address, the report in EINFO[31:0] (R115). -/
def State.escalateTsb (s : State) (f : BitVec 37 × Word) : State :=
  s.escalate 22 (wd (tsbAddr f.1)) f.2 s.bank.pc

/-! ### Bank residency (R113 to R116) -/

/-- Level `l` owns a bank under STRICT (R114). -/
def ownsStrict (nbank : Nat) (bound : BitVec 6) (l : Fin 8) : Bool :=
  decide (8 ≤ nbank) || decide (l = 0) || decide (l = 7) || bound.getLsbD (l.val - 1)

/-- Set the residency of a level. -/
def State.setResident (s : State) (l : Fin 8) (r : Bool) : State :=
  { s with core := { s.core with resident := s.core.resident.set l r } }

/-- Levels other than 7 with a resident bank. -/
def State.residentCount (s : State) : Nat :=
  ((List.finRange 8).filter (fun l : Fin 8 => decide (l ≠ 7) && s.core.resident[l])).length

/-- A bank other than level 7's is free (R115). -/
def State.freeBank (s : State) : Bool := decide (s.residentCount + 1 < s.build.nbank)

/-- Levels from the most to the least recently run one, those never run last (R115). -/
def State.runOrder (s : State) : List (Fin 8) := s.core.lru ++ (List.finRange 8).filter (fun l => !s.core.lru.contains l)

/-- The bank that level `l` takes where none is free: the least recently run inactive level 1 to 6, else the lowest
active level below `l`; never that of a level with a device load outstanding (R115, 03 R77). -/
def State.victim (s : State) (l : Fin 8) : Option (Fin 8) :=
  let may (v : Fin 8) : Bool := s.core.resident[v] && !s.core.deferred[v].devOutst && decide (v ≠ 7) && decide (v ≠ l)
  match (s.runOrder.filter (fun v => may v && decide (v ≠ 0) && !s.core.active[v])).getLast? with
  | some v => some v
  | none => (List.finRange 8).find? (fun v => may v && decide (v < l) && s.core.active[v])

/-- A step that a TSB fault may end: the state reached, and the fault (R115, R117). -/
abbrev TsbStep := State × Option (BitVec 37 × Word)

/-- The spill of a level: its image is written to its TSB and its bank is free (R115). -/
def State.spill (s : State) (v : Fin 8) : TsbStep :=
  match s.writeImage v 3 false with
  | .error f => (s, some f)
  | .ok s => (s.setResident v false, none)

/-- Make level `l` resident under SPILL: take a bank, writing its image out, then read the image of `l` (R115). A fault of the refill
leaves the spill made, and `l` not resident. -/
def State.makeResident (s : State) (l : Fin 8) : TsbStep :=
  if s.core.resident[l] then (s, none)
  else
    let taken : TsbStep := if s.freeBank then (s, none) else match s.victim l with
      | none => (s, none)
      | some v => s.spill v
    match taken with
    | (s, some f) => (s, some f)
    | (s, none) => match s.loadImage l s.bm.tsbp[l] with
      | .error f => (s, some f)
      | .ok s => (s.setResident l true, none)

/-- A write of BANKPOL (R114, R116): ignored except at level 0 with no level 1 to 6 active; a BOUND of more than
NBANK − 2 levels leaves BOUND unchanged; levels that lose their bank are written out and, under STRICT, levels that gain
one are loaded. A fault escalates; what it leaves of BANKPOL and of the images before it is not given: nothing of the write is done
(log 166). -/
def State.writeBankpol (s : State) (v : Word) : State :=
  if s.lvl ≠ 0 then s
  else
    let spill := v.getLsbD 0
    let bnd : BitVec 6 := BitVec.ofNat 6 (v.toNat / 2)
    let count := ((List.range 6).filter (fun i => bnd.getLsbD i)).length
    let bnd := if s.build.nbank - 2 < count then s.bm.bound else bnd
    let keep (l : Fin 8) : Bool := spill || ownsStrict s.build.nbank bnd l
    let lose := (List.finRange 8).filter (fun l : Fin 8 => s.core.resident[l] && !keep l)
    let gain := (List.finRange 8).filter (fun l : Fin 8 => !spill && !s.core.resident[l] && keep l)
    let out : Except (BitVec 37 × Word) State :=
      lose.foldl (fun r l => r.bind fun s => (s.writeImage l 3 false).map (fun s => s.setResident l false)) (.ok s)
    let all := gain.foldl
      (fun r l => r.bind fun s => (s.loadImage l s.bm.tsbp[l]).map (fun s => s.setResident l true)) out
    match all with
    | .error f => s.escalateTsb f
    | .ok s => { s with bm := { s.bm with bound := bnd, spill := spill } }

/-- The outcome of a write of TSBPn. -/
inductive TsbWrite where
  | ok (s : State)
  /-- The image load faults: the KIND decides the cause (R118). -/
  | fault (t : BitVec 37) (kind : FaultKind)
  /-- The spill that makes room for the image faults, and escalates (R115). -/
  | escalate (f : BitVec 37 × Word)

/-- A context without a TSB, whose TSBP0 is written, is the task of that TSB from then on: so are its records (R123). -/
def renameRecord (t : BitVec 37) (o : TileOwner) : TileOwner := if o.level = 0 ∧ o.tsb = 0 then { o with tsb := t } else o

/-- The level whose bank a write of TSBPn takes where none is free: as an entry to the level would, but not the bank in use (log 22). -/
def State.tsbVictim (s : State) (n : Fin 8) : Option (Fin 8) := (s.victim n).filter (fun v => decide (v ≠ s.lvl))

/-- A write of TSBPn (R118, R123). -/
def State.writeTsbp (s : State) (n : Fin 8) (v : Word) : TsbWrite :=
  let t : BitVec 37 := BitVec.ofNat 37 (v.toNat / 1024)
  let set (s : State) : State := { s with bm := { s.bm with tsbp := s.bm.tsbp.set n t } }
  let load (s : State) : TsbWrite := .ok (((set s).setBankOf n (s.imageAt (tsbAddr t))).setResident n true)
  if n = 0 then
    let s' := set s
    .ok (if s.bm.tsbp[0] = 0 then
      { s' with bm := { s'.bm with owner := s.bm.owner.map (renameRecord t), displaced := s.bm.displaced.map (renameRecord t) } }
    else s')
  else if s.core.active[n] then .ok s
  else if s.core.resident[n] || (s.bm.spill && (s.freeBank || (s.tsbVictim n).isSome)) then
    match s.tsbFault t false with
    | some k => .fault t k
    | none =>
      if s.core.resident[n] || s.freeBank then load s
      else match s.tsbVictim n with
        | none => .ok (set s)
        | some v => match s.spill v with
          | (_, some f) => .escalate f
          | (s, none) => load s
  else .ok (set s)

/-- The exception of a CSR write of TSBPn whose load faults: cause 6 for poison or parity, else cause 7 (R118). -/
def tsbpExc (t : BitVec 37) (k : FaultKind) : Exc :=
  { cause := if k = .parity then 6 else 7, eaddr := wd (tsbAddr t), einfo := tsbReport k false }

/-! ### The ready list (R123) -/

/-- The list in selection order (R123): entries that are not TILEWAIT by descending sub-priority, the oldest first, then
the TILEWAIT entries in the same order. -/
def selectionOrder (l : List ReadyEntry) : List ReadyEntry :=
  let byPri (l : List ReadyEntry) := (List.range 16).reverse.flatMap (fun p => l.filter (fun e => e.subpri.toNat == p))
  byPri (l.filter (fun e => !e.tilewait)) ++ byPri (l.filter (·.tilewait))

/-- The next task: the first in selection order that is not TILEWAIT (R123). -/
def nextReady (l : List ReadyEntry) : Option ReadyEntry := ((selectionOrder l).filter (fun e => !e.tilewait)).head?

/-- A change of the ready list ends SLEEP (R124). -/
def State.setReady (s : State) (l : List ReadyEntry) : State :=
  { s with bm := { s.bm with ready := l }, core := { s.core with sleeping := false } }

/-- Add an entry as the youngest; where the list is full it is ignored and OVF is set (R123). An entry ends the wait before the next PEEK
of a task take (13 R289). -/
def State.addReady (s : State) (e : ReadyEntry) : State :=
  if 64 ≤ s.bm.ready.length then { s with bm := { s.bm with rlOvf := true } }
  else
    let t := s.setReady (s.bm.ready ++ [e])
    { t with sy := { t.sy with phase := if t.sy.phase = .waiting then .idle else t.sy.phase } }

/-- The entry that a value written to RLADD names (Table 5.10). -/
def readyOf (v : Word) : ReadyEntry :=
  { tsb := BitVec.ofNat 37 (v.toNat / 1024), subpri := BitVec.ofNat 4 v.toNat, tilewait := false }

/-- The level-0 task is not parked or switched: a winze fault is deferred to it or a device load of it is outstanding
(02 R62, 03 R77). -/
def State.levelZeroPinned (s : State) : Bool := s.core.deferred[0].wzPend || s.core.deferred[0].devOutst

/-- Write a TSB's STATE code (Table 5.2). -/
def State.markTsbState (s : State) (t : BitVec 37) (st : Nat) : State :=
  let pa := tsbAddr t + 0x150
  let v := s.mem.readNat pa 8
  { s with mem := s.mem.writeNat pa (v - v % 4 + st) 8 }

/-- The load of a parked task's TSB writes STATE := 1 and clears WAITOBJ (13 R283). -/
def State.clearParked (s : State) (t : BitVec 37) : State :=
  if s.mem.readNat (tsbAddr t + 0x150) 8 % 4 = 2 then
    let s := s.markTsbState t 1
    { s with mem := s.mem.writeNat (tsbAddr t + 0x160) 0 8 }
  else s

/-- Load a task at level 0 from a TSB: its image, TSBP0, and the privilege of RSTATE.PRIV (R123). -/
def State.loadTask (s : State) (t : BitVec 37) : Except (BitVec 37 × Word) State :=
  (s.loadImage 0 t).map fun s =>
    let priv := bitOf (s.mem.readNat (tsbAddr t + 0x150) 8) 2
    let s := (s.setBankOf 0 { s.bankOf 0 with priv := priv }).clearParked t
    { s with bm := { s.bm with tsbp := s.bm.tsbp.set 0 t }, core := { s.core with taskRunning := true } }

/-- A loaded task, or an image read back, whose resume address is misaligned raises cause 3 before any instruction, EPC and EADDR holding that
address (R128). -/
def State.checkLoadedPc (s : State) : State :=
  let pc := s.bank.pc
  if pc.toNat % 4 ≠ 0 then s.takeException { cause := 3, eaddr := pc, epc := some pc } else s

/-- A switch at level 0 to a ready entry (R123), at the boundary before an instruction that has not completed: the entry leaves the list, a running task is written to its TSB and
appended with the entry given, the chosen task is loaded. A TSB fault escalates and changes nothing else (R124). -/
def State.switchTo (s : State) (e : ReadyEntry) (back : Option ReadyEntry) : State :=
  let s1 := s.setReady (s.bm.ready.erase e)
  let saved : Except (BitVec 37 × Word) State :=
    match back with
    | none => .ok s1
    | some b => (s1.writeImage 0 1 b.tilewait).map (fun s => s.setReady (s.bm.ready ++ [b]))
  match saved.bind (fun s => s.loadTask e.tsb) with
  | .error f => s.escalateTsb f
  | .ok s => s.cancelEarly.dropCoreWaiters.checkLoadedPc

/-- The running task as a ready entry. -/
def State.runningEntry (s : State) (tilewait : Bool) : ReadyEntry :=
  { tsb := s.bm.tsbp[0], subpri := (s.bankOf 0).subpri, tilewait := tilewait }

/-- The banksman's choice at an instruction boundary of level 0 (R123). -/
def State.taskSwitch (s : State) : State :=
  if s.core.mode ≠ .run ∨ s.lvl ≠ 0 then s
  else
    match nextReady s.bm.ready with
    | none => s
    | some e =>
      if !s.core.taskRunning then s.switchTo e none
      else if s.bm.tsbp[0] = 0 ∨ s.levelZeroPinned then s
      else if (s.bankOf 0).subpri < e.subpri then s.switchTo e (some (s.runningEntry false))
      else s

/-- TSAVE of the task of a TSB: address bits [46:12], 0 where the context has no TSB (R123, Table 5.1). -/
def State.tsave (s : State) (t : BitVec 37) : Nat :=
  if t = 0 then 0 else s.mem.readNat (tsbAddr t + 0x178) 8 % 2 ^ 47 / 4096 * 4096

/-- TILEWAIT clears for the waiting tasks (Table 5.8). -/
def State.clearTilewait (s : State) : State :=
  if s.bm.ready.any (·.tilewait) then s.setReady (s.bm.ready.map (fun e => { e with tilewait := false })) else s

/-- The holder's budget ends (R138): TILEWAIT clears unless the holder can never be switched out (Table 5.8). -/
def State.endBudget (s : State) : State :=
  match s.bm.owner with
  | some o =>
    if o.level ≠ 0 then s
    else
      let t := { s with bm := { s.bm with left := 0, unlimited := false } }
      if s.tsave o.tsb = 0 then t else t.clearTilewait
  | none => s

/-- Park the running task on an object (R124): its image with STATE = 2 and WAITOBJ, then the next ready task or none. A
holder that parks forfeits its budget (R138). A TSB fault is the answer instead. -/
def State.parkTask (s : State) (name : Nat) : Except (BitVec 37 × Word) State :=
  (s.writeImage 0 2 false).bind fun s1 =>
    let s1 := { s1 with mem := s1.mem.writeNat (tsbAddr s1.bm.tsbp[0] + 0x160) (2 ^ 63 + name % 2 ^ 37) 8 }
    let holder := match s1.bm.owner with
      | some o => decide (o.level = 0) && o.tsb == s1.bm.tsbp[0]
      | none => false
    let s1 := if holder then s1.endBudget else s1
    match nextReady s1.bm.ready with
    | none => .ok { s1 with core := { s1.core with taskRunning := false } }
    | some e => ((s1.setReady (s1.bm.ready.erase e)).loadTask e.tsb).map State.checkLoadedPc

/-! ### Events (R122, R125) -/

/-- The event may be taken now: pending, routed above LVL, and at level 7 or above ML (R109); right after an ERET only
level 7 (R129). -/
def State.eligible (s : State) (n : Fin 64) : Bool :=
  let l := s.bm.evrt[n]
  let ml := s.bank.ml
  s.bm.evpend.getLsbD n.val && decide (s.lvl.val < l.toNat) && (l == 7 || (decide (ml < l) && !s.core.eretShadow))
    && decide (n ≠ 63)

/-- The event that the banksman picks: highest level, then lowest number (R122). -/
def State.pickEvent (s : State) : Option (Fin 64) :=
  let c := (List.finRange 64).filter s.eligible
  (List.range 8).reverse.findSome? (fun l => c.find? (fun n => (s.bm.evrt[n]).toNat == l))

/-- A device load of the interrupted level completes in the background; its instruction counts as complete (03 R77). -/
def State.backgroundLoads (s : State) : State :=
  let l := s.lvl
  match s.core.devLoads.find? (fun d => decide (d.level = l) && !d.background) with
  | none => s
  | some d =>
    let loads := s.core.devLoads.map (fun x => if x = d then { x with background := true } else x)
    let df := { s.core.deferred[l] with devOutst := true }
    let s := { s with core := { s.core with devLoads := loads, deferred := s.core.deferred.set l df } }
    match d.dest with
    | .reg _ _ _ => { s.advancePc with core := { s.advancePc.core with instret := s.core.instret + 1 } }
    | .ret | .element => s

/-- The winze request of the oldest instruction at an event entry (02 R61): withdrawn where it has not transferred,
cancelled where it may be issued again; speculative requests are cancelled. -/
def State.abandonWinze (s : State) : State :=
  let s := s.cancelEarly
  match s.wz.req with
  | none => s
  | some r =>
    if r.transferred then
      { s with wz := { s.wz with req := none, ignored := r.tag :: s.wz.ignored, kills := r.tag :: s.wz.kills } }
    else { s with wz := { s.wz with req := none } }

/-- The core waits for the response of a non-idempotent request that has transferred (02 R61). -/
def State.winzeHolds (s : State) : Bool :=
  match s.wz.req with
  | some r => r.transferred && !s.wz.idemp
  | none => false

/-- The commit of an entry to level `l` for event `n` (R125): levels 1 to 6 resume at their bank's PC with their
exception registers unchanged; level 7 goes to the cause-31 vector with the interrupted resume address in EPC. The entry has further
terms of Table 5.5 where its image was read back, where the core waited for a winze response, or where it resumes off on-core memory. -/
def State.commitEntry (s : State) (l : Fin 8) (n : Nat) (refilled : Bool) : State :=
  let resume := s.bank.pc
  let further := refilled || s.core.waited || (decide (l ≠ 7) && decide ((s.bankOf l).pc.toNat < onCoreBase))
  let s := { s with core := { s.core with waited := false } }
  let s :=
    if l = 7 then s.enterSeven n resume (wd n) none
    else
      let s := (s.setBankOf l { s.bankOf l with priv := true, evnum := BitVec.ofNat 6 n }).setActive l true
      let s := { s with core := { s.core with sleeping := false, lru := l :: s.core.lru.erase l } }
      (s.lazyReserve l).dropCoreWaiters
  s.countEntry further

/-- Event entry (R122, R125): the eligible event of the highest level is recognised and its level entered. -/
def State.enterEvent (s : State) : State :=
  if s.core.mode ≠ .run then s
  else
    match s.pickEvent with
    | none => s
    | some n =>
      if s.winzeHolds then { s with core := { s.core with entryWaits := true, waited := true } }
      else
        let l := levelOf s.bm.evrt[n]
        let s := s.abandonWinze.backgroundLoads
        if l = 7 ∨ s.core.resident[l] then s.commitEntry l n.val false
        else if !s.bm.spill then s.escalate 22 (wd n.val) 0 s.bank.pc
        else
          match s.makeResident l with
          | (s, some f) => s.escalateTsb f
          | (s, none) => s.commitEntry l n.val true

end Sys2Proof.Machine
end

