-- ==== Sys2Proof/Machine/Journal.lean ====
section
/-! DEFINITION. Journal records and the pending records of the journal channel (10 R239 to R241). -/

namespace Sys2Proof.Machine

/-- The 56 bytes of a journal record before its CRC, and then the CRC (10 Table 10.4). -/
def journalRecord (flags nodeId ssgrp : Nat) (seq stepcnt dcur : Word) (cursum : Nat) (exps : List Nat) : BitVec 512 :=
  let body := 0x4A4E + 2 ^ 16 + flags * 2 ^ 24 + nodeId * 2 ^ 32 + ssgrp * 2 ^ 56
    + 2 ^ 64 * packWords 64 [seq.toNat, stepcnt.toNat, dcur.toNat, cursum % 2 ^ 64]
    + 2 ^ 320 * packWords 8 exps
  BitVec.ofNat 512 (body + 2 ^ 448 * crc64 body 56)

/-- Give the record of a SEQ its data (10 R239). -/
def fillSeq (seq : Word) (d : BitVec 512) : List JnlRec → List JnlRec
  | [] => []
  | r :: t => if r.seq = seq ∧ r.data.isNone then { r with data := some d } :: t else r :: fillSeq seq d t

/-- Hand a record built by STEP to the journal channel, in the slot that its SEQ took at dispatch (10 R239, R241). -/
def State.handJournal (s : State) (seq : Word) (d : BitVec 512) : State :=
  { s with jnl := { s.jnl with pend := fillSeq seq d s.jnl.pend } }

end Sys2Proof.Machine
end

