-- ==== Sys2Proof/Machine/TileExec.lean ====
section
/-! DEFINITION. What each entry of the tile command queue does when it executes (06 R152 to R160, 07, 08, 09). -/

namespace Sys2Proof.Machine

/-! ### Moves (R153) -/

/-- Elements of `w` bits of depth rows, transposed into 128 lanes (R143, R153). -/
def lanesOfRows (w : Nat) (rows : List Nat) : Vector (BitVec 1024) 128 :=
  Vector.ofFn (fun i => BitVec.ofNat 1024 (packElems w (rows.map (fun r => elemAt r w i.val))))

/-- Depth row `k` of a tile whose elements have `w` bits. -/
def rowOfLanes (w : Nat) (t : Vector (BitVec 1024) 128) (k : Nat) : Nat :=
  packElems w (t.toList.map (fun l => elemAt l.toNat w k))

/-- The granule that poisons item `i` of `w` bits in a row of chunks. -/
def itemPoison (w i : Nat) (p : List (Option Nat)) : Option Nat := (p[i * w / 256]?).getD none

/-- The granule that poisons lane `i` through depth rows. -/
def lanePoison (w i : Nat) (rows : List (Nat × List (Option Nat))) : Option Nat :=
  rows.findSome? (fun r => itemPoison w i r.2)

/-- Indices with the granule that poisons each. -/
def poisonList (l : List (Option Nat)) : List (Nat × Nat) :=
  l.zipIdx.filterMap (fun x => x.1.map (fun a => (x.2, a)))

/-- Write a tile whole from a load, marking its poisoned lanes (R167, R168). -/
def State.loadTile (s : State) (t : Fin 8) (x : Vector (BitVec 1024) 128) (pois : List (Option Nat)) : State :=
  let l := poisonList pois
  (s.setRegs (s.tile.regs.setT t x (markBits (l.map (·.1))))).markEvents .t t.val l

/-- TLOAD.V and TLOAD.D. -/
def State.execLoad (s : State) (d : Bool) (w : Nat) (t : Fin 8) (lines : List (List Segment)) : State :=
  let (s, rows) := s.readLines lines
  let s := s.dropSide (· == t)
  if d then
    let wb := widthOfCode w
    s.loadTile t (lanesOfRows wb (rows.map (·.1))) ((List.range 128).map (fun i => lanePoison wb i rows))
  else
    s.loadTile t (Vector.ofFn (fun i => BitVec.ofNat 1024 ((rows[i.val]?.getD (0, [])).1))) (rows.map (fun r => firstPoison r.2))

/-- A chunk of 32 bytes of a depth row of `w`-bit elements holds an element of a marked lane. -/
def chunkMarked (w c : Nat) (marks : BitVec 128) : Bool :=
  (List.range 128).any (fun i => i * w / 256 == c && marks.getLsbD i)

/-- TSTORE.V and TSTORE.D. -/
def State.execStore (s : State) (d : Bool) (w : Nat) (t : Fin 8) (lines : List (List Segment)) : State :=
  let x := s.tile.regs.t[t]
  let marks := s.tile.regs.tpois[t]
  let data : List (Nat × List Bool) :=
    if d then
      let wb := widthOfCode w
      let cs := (List.range (wb / 2)).map (fun c => chunkMarked wb c marks)
      (List.range (tileDepth wb)).map (fun k => (rowOfLanes wb x k, cs))
    else (List.finRange 128).map (fun (i : Fin 128) => ((x[i]).toNat, List.replicate 4 (marks.getLsbD i.val)))
  s.writeLines lines data

/-- VLOAD. -/
def State.execVloadEntry (s : State) (v : Fin 8) (lines : List (List Segment)) : State :=
  let (s, rows) := s.readLines lines
  match rows with
  | [(d, p)] =>
    let s := s.setRegs (s.tile.regs.setV v (BitVec.ofNat 4096 d) (firstPoison p).isSome)
    match firstPoison p with
    | some a => s.markEvent .v v.val 0 false a
    | none => s
  | _ => s

/-- VSTORE. -/
def State.execVstoreEntry (s : State) (v : Fin 8) (lines : List (List Segment)) : State :=
  s.writeLines lines [((s.tile.regs.v[v]).toNat, List.replicate 16 (s.tile.regs.vpois.getLsbD v.val))]

/-! ### Statistics of quantising writes (08 R202, R208) -/

/-- Merge statistics into a slot and set the TFLAGS they raise. -/
def State.gather (s : State) (slot : Fin 64) (st : QStat) : State :=
  let s := s.setRegs (s.tile.regs.setSs slot (ssMerge s.tile.regs.ss[slot] st))
  s.setTflags ((if st.ovf then flagSat else 0) ||| (if st.nanin then flagNanin else 0))

/-- BADCODE of a slot (08 R200). -/
def State.badcode (s : State) (slot : Fin 64) : State := s.setRegs (s.tile.regs.setSs slot (ssBadcode s.tile.regs.ss[slot]))

/-- Write the scale vectors of lanes or rows, whole and clean (08 R212, R213). -/
def State.putScales (s : State) (vbase nv : Nat) (rows : List (List Nat)) : State :=
  (List.range nv).foldl (fun s k => s.setRegs (s.tile.regs.setV (Fin.ofNat 8 (vbase + k)) (scaleVector rows k) false)) s

/-! ### TLOAD.Q and TSTORE.Q (R154) -/

/-- The BF16 values of one lane with the granule that poisons each. -/
def bf16Lane (d : Bool) (depth : Nat) (rows : List (Nat × List (Option Nat))) (i : Nat) : List (Nat × Option Nat) :=
  if d then rows.map (fun r => (elemAt r.1 16 i, itemPoison 16 i r.2))
  else
    let r := (rows[i]?).getD (0, [])
    (List.range depth).map (fun k => (elemAt r.1 16 k, itemPoison 16 k r.2))

/-- A BF16 encoding as a source. -/
def bf16Src (x : Nat × Option Nat) : QSrc :=
  match x.2 with
  | some _ => none
  | none => some (bitOf x.1 15, fpDecode (fpParams .bf16) x.1)

/-- The lanes of a band as TLOAD.Q enters them in the side buffer: none for a 2-bit format or where a source of its lanes is poisoned
(11 R250). -/
def sideLanes (fmt band : Nat) (lanes : List (List (Nat × Option Nat))) : Option (List Nat) :=
  let ls := (lanes.drop (16 * band)).take 16
  if fmtWidth fmt = 2 ∨ ls.any (fun l => l.any (fun x => x.2.isSome)) then none
  else some (ls.map (fun l => packElems 16 (l.map (·.1))))

/-- The entry of the side buffer that a new one takes: the one it replaces for its tile, else the lowest that is free, else the one least
recently made (11 R250, log 170). -/
def sidePlace (l : List SideEntry) (t : Fin 8) : Fin 4 :=
  match l.find? (fun e => e.tile == t) with
  | some e => e.place
  | none =>
    match (List.finRange 4).find? (fun p => l.all (fun e => e.place != p)) with
    | some p => p
    | none => (l.getLast?.map SideEntry.place).getD 0

/-- Make an entry of the side buffer: the most recent, in place of what its place held. -/
def State.makeSide (s : State) (t : Fin 8) (band : Nat) (lanes : List Nat) : State :=
  let p := sidePlace s.assay.side t
  { s with assay := { s.assay with
      side := { tile := t, band := band, lanes := lanes, place := p } :: s.assay.side.filter (fun e => e.place != p) } }

/-- TLOAD.Q. -/
def State.execLoadQ (s : State) (d : Bool) (fmt : Nat) (t : Fin 8) (slot : Fin 64) (lines : List (List Segment))
    (band : Nat) : State :=
  let (s, rows) := s.readLines lines
  let depth := tileDepth (fmtWidth fmt)
  let lanes := (List.range 128).map (bf16Lane d depth rows)
  let rec0 := s.tile.regs.ss[slot]
  let s := match sideLanes fmt band lanes with
    | some ls => s.makeSide t band ls
    | none => s.dropSide (· == t)
  let pois := lanes.map (fun l => l.findSome? (·.2))
  let block := ssBlock rec0 && fmtHasBlock fmt
  let nv := blockVectors depth (ssBlk rec0)
  if s.tile.regs.sspois.getLsbD slot then
    let s := if block then s.putScales (ssVbase rec0) nv (List.replicate 128 []) else s
    s.loadTile t (Vector.replicate 128 0) (pois.map (fun p => some (p.getD 0)))
  else
    let outs := lanes.map (fun l => quantLane fmt rec0 (l.map bf16Src))
    let s := s.gather slot (outs.foldl (fun acc o => acc.merge o.stat) {})
    let s := if block then s.putScales (ssVbase rec0) nv (outs.map (·.scales)) else s
    s.loadTile t (Vector.ofFn (fun i => BitVec.ofNat 1024 ((outs[i.val]?.map (·.data)).getD 0))) pois

/-- How TSTORE.Q treats one element: poisoned, or its BF16 with statistics (08 R204). -/
def storeElem (fmt : Nat) (slot : BitVec 512) (vs : Vector (BitVec 4096) 8) (vpois : BitVec 8) (i k c : Nat) :
    Option (Nat × QStat) :=
  if ssBlock slot && fmtHasBlock fmt then
    let b := k / ssBlk slot
    if vpois.getLsbD (ssVbase slot + b / 4) then none
    else
      let byte := scaleByte vs (ssVbase slot) i b
      if byte = 255 then some (0x7FC0, {})
      else some (unquantise fmt c ((byte : Int) - 127 + blockFactor fmt))
  else some (unquantise fmt c (ssExp slot))

/-- TSTORE.Q. -/
def State.execStoreQ (s : State) (d : Bool) (fmt : Nat) (t : Fin 8) (slot : Fin 64) (lines : List (List Segment)) : State :=
  let r := s.tile.regs
  let w := fmtWidth fmt
  let depth := tileDepth w
  let rec0 := r.ss[slot]
  let slotPois := r.sspois.getLsbD slot
  let elem (i k : Nat) : Option (Nat × QStat) :=
    if slotPois || (r.tpois[t]).getLsbD i then none
    else storeElem fmt rec0 r.v r.vpois i k (elemAt ((r.t[t])[i]?.getD 0).toNat w k)
  let lanes := (List.range 128).map (fun i => (List.range depth).map (elem i))
  let stat := lanes.foldl (fun acc l => l.foldl (fun acc x => match x with | some (_, st) => acc.merge st | none => acc) acc) {}
  let bad := fmt == 3 && !slotPois && (List.range 128).any (fun i => !(r.tpois[t]).getLsbD i &&
    (List.range depth).any (fun k => elemAt ((r.t[t])[i]?.getD 0).toNat 2 k == 2))
  let line (l : List (Option (Nat × QStat))) : Nat × List Bool :=
    (packElems 16 (l.map (fun x => (x.map (·.1)).getD 0)), (blocksOf 16 (l.length / 16) l).map (fun c => c.any (·.isNone)))
  let data := if d then (List.range depth).map (fun k => line (lanes.map (fun l => (l[k]?).getD none))) else lanes.map line
  let s := s.writeLines lines data
  let s := if slotPois then s else s.gather slot stat
  if bad then s.badcode slot else s

/-! ### The assay's samples (11 R246 to R252) -/

/-- The value of a source of the wide check as FP32: the BF16 source, or the element times its scale, exact. -/
inductive WideSrc where
  /-- From the side buffer. -/
  | side (bf : Nat)
  /-- The element with its scale exponent; none for a scale byte 0xFF. -/
  | elem (v : Fp) (e : Option Int)
  deriving DecidableEq, Repr

/-- A source as a datum. -/
def WideSrc.fp : WideSrc → Fp
  | .side b => fpDecode (fpParams .bf16) b
  | .elem v e => match e with
    | none => .nan false
    | some k => match v with
      | .fin n m x => .fin n m (x + k)
      | y => y

/-- The error of one element as a bucket, and the ratio |d − w| / |w| where it is finite (11 R252). -/
def wideBucket (d w : Nat) : Nat × Option (Nat × Int × Nat × Int) :=
  let fd := dec32 d
  let fw := dec32 w
  if (fd.isNan && fw.isNan) || fpCompare fd fw == some .eq then (0, none)
  else
    match fd, fw with
    | .fin n1 m1 e1, .fin n2 m2 e2 =>
      if m2 = 0 then (31, none)
      else
        let (v, e) := addExact n1 m1 e1 (!n2) m2 e2
        let num := v.natAbs
        -- the ratio num·2^e / (m2·2^e2) against 2^(b-30)
        let le (b : Nat) : Bool := !dyadicGt m2 (e2 + ((b : Int) - 30)) num e
        let b := match (List.range 31).reverse.find? le with
          | some b => b + 1
          | none => 0
        (b, some (num, e, m2, e2))
    | _, _ => (31, none)

/-- The error of a sample as FP32 (11 R252). -/
def wideError (x : Nat × Option (Nat × Int × Nat × Int)) : BitVec 32 :=
  if x.1 = 0 then 0
  else
    match x.2 with
    | none => BitVec.ofNat 32 (fpInf (fpParams .f32) false)
    | some (num, e, m2, e2) => BitVec.ofNat 32 (fpDiv (fpParams .f32) .nearest (.fin false num e) (.fin false m2 e2)).bits

/-- One element's wide sum (11 R252). -/
def wideSum (l : List (WideSrc × WideSrc)) : Nat :=
  l.foldl (fun w x =>
    let p := fpMul (fpParams .f32) .nearest x.1.fp x.2.fp
    add32 w (canon32 p)) 0

/-- A sampled OPA: its entry on the pending samples and, where it qualifies, on the wide unit (11 R246 to R252). -/
structure OpaSample where
  kd : Fin 4
  ta : Fin 8
  tb : Fin 8
  x : OpaCtx
  int : Bool
  before : Vector (BitVec 4096) 128
  /-- What the stope has written. -/
  after : Vector (BitVec 4096) 128
  /-- The same under the reference order. -/
  ref : Vector (BitVec 4096) 128

/-- The 256 elements of a sub-block, row then column. -/
def subBlock (m : Vector (BitVec 4096) 128) (rb cb : Nat) : List (BitVec 32) :=
  (List.range 256).map (fun e => BitVec.ofNat 32 (elemAt (m[16 * rb + e / 16]?.getD 0).toNat 32 (16 * cb + e % 16)))

/-- The source of lane `i`, depth `k` of an operand. -/
def OpaSample.source (p : OpaSample) (r : TileRegs) (side : Option SideEntry) (t : Fin 8) (f vb : Nat) (sc : Int)
    (i k : Nat) : WideSrc :=
  match side with
  | some e => .side (elemAt ((e.lanes[i % 16]?).getD 0) 16 k)
  | none =>
    let v := elemValue f (elemAt ((r.t[t])[i]?.getD 0).toNat (fmtWidth f) k)
    if ctlMx p.x.ctl then
      let byte := scaleByte r.v vb i (k / ctlBlk p.x.ctl)
      .elem v (if byte = 255 then none else some ((byte : Int) - 127 + blockFactor f))
    else .elem v (some sc)

/-- The wide check of a sub-block: the worst bucket and its error (11 R252). -/
def OpaSample.wide (p : OpaSample) (r : TileRegs) (sa sb : Option SideEntry) (rb cb : Nat) : WideSample :=
  let g := groupSize (fmtWidth p.x.fa)
  let d0 := ctlDs p.x.ctl * g
  let ks := (List.range ((ctlDl p.x.ctl + 1) * g)).map (· + d0)
  let elems := (List.range 16).flatMap (fun a => (List.range 16).map (fun b =>
    let i := 16 * rb + a
    let j := 16 * cb + b
    let w := wideSum (ks.map (fun k =>
      (p.source r sa p.ta p.x.fa (ctlVa p.x.ctl) p.x.sa i k, p.source r sb p.tb p.x.fb (ctlVb p.x.ctl) p.x.sb j k)))
    let d := sub32 (elemAt (p.after[i]?.getD 0).toNat 32 j) (elemAt (p.before[i]?.getD 0).toNat 32 j)
    wideBucket d w))
  let best := elems.foldl (fun acc e => if acc.1 < e.1 then e else acc) (elems.headD (0, none))
  { ltag := BitVec.ofNat 8 (ctlLtag p.x.ctl), bucket := BitVec.ofNat 5 best.1, err := wideError best }

/-- The position draw of an OPA (11 R247). -/
def OpaSample.draw (p : OpaSample) (s : State) : Quad :=
  let q := s.tile.regs.q[(Fin.ofNat 16 s.assay.qs.toNat : Fin 16)]
  let lo := 2 * 2 ^ 60 + ctlTcoord p.x.ctl * 2 ^ 44 + p.kd.val * 2 ^ 42 + ctlLtag p.x.ctl * 2 ^ 32 + p.x.base % 2 ^ 32
  philox (qHi q p.x.stepcnt p.x.mbatch) lo (qWord q 0)

/-- Sample an OPA (11 R246): skipped where poison is involved (Table 11.2). -/
def State.sampleOpa (s : State) (p : OpaSample) : State :=
  let a := s.assay
  let n := if a.stepOpen then 0 else a.rate.toNat
  let x := p.draw s
  if !(a.en || a.stepOpen) || x.x0 % 2 ^ n != 0 then s
  else
    let r := s.tile.regs
    let sideA := a.side.find? (fun e => e.tile == p.ta)
    let sideB := a.side.find? (fun e => e.tile == p.tb)
    let fmtOk := !p.int && fmtWidth p.x.fa != 2
    let wants := a.wide && fmtOk && (sideA.isSome || sideB.isSome)
    let goes := wants && a.widePend.isNone
    let rb := if goes then (sideA.map (·.band)).getD (x.x1 % 8) else x.x1 % 8
    let cb := if goes then (sideB.map (·.band)).getD (x.x1 / 8 % 8) else x.x1 / 8 % 8
    let blocksOf := (ctlUnits p.x.ctl).map (fun u => u * groupSize (fmtWidth p.x.fa) / ctlBlk p.x.ctl)
    let rows := List.range 16
    let bad := r.qpois.getLsbD s.assay.qs.toNat
      || rows.any (fun i => (r.tpois[p.ta]).getLsbD (16 * rb + i) || (r.tpois[p.tb]).getLsbD (16 * cb + i)
          || (r.kpois[p.kd]).getLsbD (16 * rb + i))
      || (if ctlMx p.x.ctl then blocksOf.any (fun b => r.vpois.getLsbD (ctlVa p.x.ctl + b / 4) || r.vpois.getLsbD (ctlVb p.x.ctl + b / 4))
          else r.sspois.getLsbD (ctlSsa p.x.ctl) || r.sspois.getLsbD (ctlSsb p.x.ctl))
    if bad then { s with assay := { a with skipped := satInc a.skipped } }
    else
      let smp : Sample := { ltag := BitVec.ofNat 8 (ctlLtag p.x.ctl), rb := BitVec.ofNat 3 rb, cb := BitVec.ofNat 3 cb }
      let check : Check :=
        { sample := smp, ref := subBlock p.ref rb cb, got := subBlock p.after rb cb, wide := goes
          cols := (List.range 16).map (fun j => BitVec.ofNat 8 (s.physCol (16 * cb + j))) }
      let a := { a with pend := a.pend ++ [check] }
      { s with assay :=
          if goes then { a with widePend := some (p.wide r sideA sideB rb cb) }
          else if wants then { a with wskip := satInc a.wskip } else a }

/-! ### Outer products -/

/-- A reserved ternary code stands in the range of a lane (08 R200). -/
def badTernary (f : Nat) (ctl : Word) (t : Vector (BitVec 1024) 128) : Bool :=
  let g := groupSize 2
  f == 3 && t.toList.any (fun l => (List.range ((ctlDl ctl + 1) * g)).any (fun k => elemAt l.toNat 2 (ctlDs ctl * g + k) == 2))

/-- A row of an accumulator from its elements. -/
def rowBits (l : List Nat) : BitVec 4096 := BitVec.ofNat 4096 (packWords 32 l)

/-- Blocks of the range, under MX = 1. -/
def rangeBlocks (ctl : Word) (f : Nat) : List Nat := (ctlUnits ctl).map (fun u => u * groupSize (fmtWidth f) / ctlBlk ctl)

/-- An element of an accumulator that the stope got wrong: 128·row + column, and the bits it wrote instead (11 R248). -/
abbrev StopeFault := BitVec 14 × BitVec 32

/-- An accumulator with the elements that the stope got wrong. -/
def withFaults (m : Vector (BitVec 4096) 128) (l : List StopeFault) : Vector (BitVec 4096) 128 :=
  l.foldl (fun (m : Vector (BitVec 4096) 128) (x : StopeFault) =>
    let i : Fin 128 := Fin.ofNat 128 (x.1.toNat / 128)
    let j := x.1.toNat % 128
    let bits : BitVec 4096 := (x.2.setWidth 4096) <<< (32 * j)
    m.set i ((m[i] &&& ~~~((0xFFFFFFFF#4096) <<< (32 * j))) ||| bits)) m

/-- OPA (07 R174, R190); the elements that the stope's hardware gets wrong are given, and stay as it leaves them (11 R248, R249). -/
def State.execOpaEntry (s : State) (kd : Fin 4) (ta tb : Fin 8) (fa fb : Nat) (ctl stepcnt mbatch : Word) (faults : List StopeFault) :
    State :=
  let r := s.tile.regs
  let int := fmtIsInt fa && fmtIsInt fb
  let base := r.kdepth[kd]
  let x : OpaCtx :=
    { fa := fa, fb := fb, ctl := ctl, base := base.toNat, sa := ssExp r.ss[ctlSsa ctl], sb := ssExp r.ss[ctlSsb ctl]
      stream := r.q[ctlQs ctl], stepcnt := stepcnt, mbatch := mbatch }
  let all := (ctlSr ctl && r.qpois.getLsbD (ctlQs ctl)) ||
    (if ctlMx ctl then (rangeBlocks ctl fa).any (fun b => r.vpois.getLsbD (ctlVa ctl + b / 4) || r.vpois.getLsbD (ctlVb ctl + b / 4))
     else r.sspois.getLsbD (ctlSsa ctl) || r.sspois.getLsbD (ctlSsb ctl))
  let pv := if int then marker32 else poison32
  let pa := r.tpois[ta]
  let pb := r.tpois[tb]
  let old := r.k[kd]
  let rows : List (List ElemRes) := (List.finRange 128).map (fun (i : Fin 128) => (List.finRange 128).map (fun (j : Fin 128) =>
    if all || pa.getLsbD i.val || pb.getLsbD j.val then ({ k := elemAt (old[i]).toNat 32 j.val } : ElemRes).put int pv
    else opaElement x r.v (r.t[ta])[i].toNat (r.t[tb])[j].toNat i.val j.val (elemAt (old[i]).toNat 32 j.val)))
  let ref : Vector (BitVec 4096) 128 := Vector.ofFn (fun i => rowBits ((rows[i.val]?.getD []).map (·.k)))
  let new := withFaults ref faults
  let marks := if all || pb != 0 then BitVec.allOnes 128 else pa
  let ovf := rows.any (fun l => l.any (·.ovf))
  let nan := rows.any (fun l => l.any (·.nan))
  let g := groupSize (fmtWidth fa)
  let r1 := { r.setK kd new (r.kpois[kd] ||| marks) with kdepth := r.kdepth.set kd (base + wd ((ctlDl ctl + 1) * g)) }
  let sample : OpaSample := { kd := kd, ta := ta, tb := tb, x := x, int := int, before := old, after := new, ref := ref }
  let s := s.sampleOpa sample
  let s := (s.setRegs r1).setTflags ((if ovf then flagOvf else 0) ||| (if nan then flagNan else 0)
    ||| (if marks != 0 then flagPoison else 0))
  let s := if badTernary fa ctl r.t[ta] then s.badcode (ctlSsa ctl) else s
  if badTernary fb ctl r.t[tb] then s.badcode (ctlSsb ctl) else s

/-- OPMAX and OPMIN (07 R191). -/
def State.execOpmEntry (s : State) (isMin : Bool) (kd : Fin 4) (ta tb : Fin 8) (f : Nat) (ctl : Word) : State :=
  let r := s.tile.regs
  let int := f == 6
  let k1 : Fin 4 := Fin.ofNat 4 (kd.val + 1)
  let base := r.kdepth[kd]
  let pv := if int then marker32 else poison32
  let pa := r.tpois[ta]
  let pb := r.tpois[tb]
  let rows : List (List (ElemRes × Nat)) := (List.finRange 128).map (fun (i : Fin 128) => (List.finRange 128).map (fun (j : Fin 128) =>
    let k := elemAt (r.k[kd])[i].toNat 32 j.val
    let idx := elemAt (r.k[k1])[i].toNat 32 j.val
    if pa.getLsbD i.val || pb.getLsbD j.val then (({ k := k } : ElemRes).put int pv, idx)
    else
      let (b, n) := opmElement isMin f ctl base.toNat (r.t[ta])[i].toNat (r.t[tb])[j].toNat k idx
      (({ k := k } : ElemRes).put int b, n)))
  let bests : Vector (BitVec 4096) 128 := Vector.ofFn (fun i => rowBits ((rows[i.val]?.getD []).map (·.1.k)))
  let idxs : Vector (BitVec 4096) 128 := Vector.ofFn (fun i => rowBits ((rows[i.val]?.getD []).map (·.2)))
  let marks := if pb != 0 then BitVec.allOnes 128 else pa
  let adv := wd ((ctlDl ctl + 1) * groupSize (fmtWidth f))
  let r1 := (r.setK kd bests (r.kpois[kd] ||| marks)).setK k1 idxs (r.kpois[k1] ||| marks)
  let r1 := { r1 with kdepth := (r.kdepth.set kd (base + adv)).set k1 (r.kdepth[k1] + adv) }
  let ovf := rows.any (fun l => l.any (·.1.ovf))
  let nan := rows.any (fun l => l.any (·.1.nan))
  (s.setRegs r1).setTflags ((if ovf then flagOvf else 0) ||| (if nan then flagNan else 0)
    ||| (if marks != 0 then flagPoison else 0))

/-! ### KOUT (09) -/

/-- A 16-bit draw of the RMASK stages: stage `n`, row `i`, column `j` (09 R221). -/
def maskDraw (q : BitVec 256) (n i j : Nat) : Nat :=
  let call := (qCursor q + 2048 * n + 16 * i + j / 8) % 2 ^ 48
  let x := philox (qWord q 1) call (qWord q 0)
  let c := j % 8
  let w := match c / 2 with | 0 => x.x0 | 1 => x.x1 | 2 => x.x2 | _ => x.x3
  w / 2 ^ (16 * (c % 2)) % 2 ^ 16

/-- The stage-6 values of a row (09 R215 to R219). -/
def seamRow (img : BitVec 32768) (r : TileRegs) (int : Bool) (row : BitVec 4096) (i : Nat) : List Nat :=
  let v (n j : Nat) : Nat := elemAt (r.v[n]?.getD 0).toNat 32 j
  let q := r.q[imgQs img]
  (List.range 128).map (fun j =>
    let x := enterCell int (elemAt row.toNat 32 j)
    (applyStages img v i j (fun n => maskDraw q n i j) (imgStages img) 0 { x := x, x0 := x, h := 0, seg := 0 }).x)

/-- A source of KOUT's quantiser: the stage-6 value, or the element itself where every stage is PASS (09 R222). -/
def koutSrc (int pass : Bool) (elem y : Nat) : QSrc :=
  if pass && int then some (if elem = marker32 then (false, .inf false) else (decide (int32 elem < 0), fpOfSigned (int32 elem) 0))
  else if pass then some (bitOf elem 31, dec32 elem)
  else some (bitOf y 31, dec32 y)

/-- KOUT (09 R215 to R228). -/
def State.execKoutEntry (s : State) (k : Fin 4) (seam : Fin 4) (vr : Fin 8) (kz : Bool) (slot : Fin 64)
    (lines : List (List Segment)) (disarm : Option (Fin 16)) : State :=
  let r := s.tile.regs
  let sl := s.tile.seam[seam]
  let img := sl.image
  let int := r.ktype.getLsbD k
  let rec0 := r.ss[slot]
  let slotPois := r.sspois.getLsbD slot
  let masks := imgMasks img
  let qs := imgQs img
  let all := sl.poison || slotPois || (imgReadsV img).any (fun n => r.vpois.getLsbD n)
    || (masks != 0 && r.qpois.getLsbD qs)
  let pois (i : Nat) : Bool := all || (r.kpois[k]).getLsbD i
  let ys := (List.finRange 128).map (fun (i : Fin 128) => seamRow img r int (r.k[k])[i] i.val)
  let pass := (imgStages img).all (fun st => st.op == 0)
  let fmt := imgOfmt img
  -- the rows written
  let block := ssBlock rec0 && fmtHasBlock fmt && fmt != 15
  let outs : List RowOut := (List.finRange 128).map (fun (i : Fin 128) =>
    if pois i.val then { data := 0, scales := List.replicate (128 / ssBlk rec0) 0, stat := {} }
    else quantLane fmt rec0 (List.zipWith (fun j y => koutSrc int pass (elemAt ((r.k[k])[i]).toNat 32 j) y) (List.range 128)
      (ys[i.val]?.getD [])))
  let chunks := fmtWidth fmt / 2
  let s := if fmt = 15 then s
    else s.writeLines lines (outs.zipIdx.map (fun x => (x.1.data, List.replicate chunks (pois x.2))))
  let s := if fmt = 15 ∨ slotPois then s else s.gather slot (outs.foldl (fun acc o => acc.merge o.stat) {})
  -- the reductions
  let red := imgRed img
  let results := (List.range 128).map (fun i => if pois i then reducePoisoned red else reduceRow red (ys[i]?.getD []))
  let anyPois := (List.range 128).any pois
  let s := if red = 0 then s
    else
      let r1 := s.tile.regs.setV vr (BitVec.ofNat 4096 (packWords 32 (results.map (·.1)))) anyPois
      let r2 := if red = 4 then r1.setV (Fin.ofNat 8 (vr.val + 1)) (BitVec.ofNat 4096 (packWords 32 (results.map (·.2)))) anyPois
        else r1
      (s.setRegs r2).setTflags (if anyPois then flagPoison else 0)
  let s := if block then s.putScales (ssVbase rec0) (blockVectors 128 (ssBlk rec0)) (outs.map (·.scales)) else s
  -- the stream
  let s := if masks = 0 then s
    else
      let q := s.tile.regs.q[qs]
      let w := qWord q 2
      let c := qCursor q
      s.setRegs (s.tile.regs.setQ qs (qPut q 2 (w - c + (c + 2048 * masks) % 2 ^ 48)))
  let s := match disarm with
    | some n => let q := s.tile.regs.q[n]; s.setRegs (s.tile.regs.setQ n (qPut q 2 (qWord q 2 % 2 ^ 63)))
    | none => s
  if kz then s.setRegs (s.tile.regs.zeroK k int) else s

/-! ### STEP's update entry (08 R210, 10 R237, R239) -/

/-- Bind a stream's tag unless it is armed (10 R237). -/
def bindTag (dcur : Word) (q : BitVec 256) : BitVec 256 := if qArmed q then q else qPut q 3 dcur.toNat

/-- STEP's update entry. -/
def State.execStepEntry (s : State) (dcur stepcnt : Word) (ssgrp : BitVec 2) (seq : Option Word) : State :=
  let r := s.tile.regs
  let flags := r.tflags
  let ss := Vector.ofFn (fun n : Fin 64 =>
    if ssEnabled r.tconf && ssAuto r.ss[n] && !r.sspois.getLsbD n then ssUpdate r.ss[n] else r.ss[n])
  let q := if qEnabled r.tconf then r.q.map (bindTag dcur) else r.q
  let r := { r with ss := ss, q := q }
  let s := s.setRegs r
  match seq with
  | none => s
  | some sq =>
    let cursum := (r.q.toList.map qCursor).foldl (· + ·) 0
    let exps := (List.range 16).map (fun i => ((ssExp (r.ss[16 * ssgrp.toNat + i]?.getD 0)) % 256).toNat)
    s.handJournal sq (journalRecord (1 + 4 * flags.toNat) s.straps.nodeId.toNat ssgrp.toNat sq stepcnt dcur cursum exps)

/-! ### Every entry -/

/-- Execute an entry: its whole effect on registers and memory. The marks that TMOV writes are new marks of a register (06 R168,
log 171). -/
def State.execEntry (s : State) : TileOp → State
  | .tcfg new =>
    let chg := s.tile.regs.tconf &&& ~~~new
    (s.setRegs (s.tile.regs.configure new)).dropSide (fun t => tEnabled chg t.val)
  | .tzero isV mask =>
    if isV then (List.finRange 8).foldl (fun s v => if mask.getLsbD v.val then s.setRegs (s.tile.regs.setV v 0 false) else s) s
    else ((List.finRange 8).foldl (fun s t =>
      if mask.getLsbD t.val then s.setRegs (s.tile.regs.setT t (Vector.replicate 128 0) 0) else s) s).dropSide
        (fun t => mask.getLsbD t.val)
  | .kzero mask int =>
    (List.finRange 4).foldl (fun s k => if mask.getLsbD k.val then s.setRegs (s.tile.regs.zeroK k int) else s) s
  | .tmov isV src dst =>
    let r := s.tile.regs
    if src = dst then s
    else if isV then
      let t := s.setRegs (r.setV dst r.v[src] (r.vpois.getLsbD src))
      if r.vpois.getLsbD src then t.markEvent .v dst.val 0 true 0 else t
    else
      let t := (s.setRegs (r.setT dst r.t[src] r.tpois[src])).dropSide (· == dst)
      ((List.range 128).filter (fun i => (r.tpois[src]).getLsbD i)).foldl (fun s i => s.markEvent .t dst.val i true 0) t
  | .tfence => s
  | .load d w t lines => s.execLoad d w t lines
  | .store d w t lines => s.execStore d w t lines
  | .loadQ d f t slot lines band => s.execLoadQ d f t slot lines band
  | .storeQ d f t slot lines => s.execStoreQ d f t slot lines
  | .vload v lines => s.execVloadEntry v lines
  | .vstore v lines => s.execVstoreEntry v lines
  | .opa kd ta tb fa fb ctl sc mb => s.execOpaEntry kd ta tb fa fb ctl sc mb []
  | .opm isMin kd ta tb f ctl => s.execOpmEntry isMin kd ta tb f ctl
  | .kout k seam vr kz slot lines disarm => s.execKoutEntry k seam vr kz slot lines disarm
  | .scaleSet slot sel v =>
    let r := s.tile.regs.setSs slot (ssSet s.tile.regs.ss[slot] sel.val v.toNat)
    s.setRegs (if sel = 0 then { r with sspois := putBit r.sspois slot.val false } else r)
  | .scaleUpd slot =>
    if s.tile.regs.sspois.getLsbD slot then s else s.setRegs (s.tile.regs.setSs slot (ssUpdate s.tile.regs.ss[slot]))
  | .stepUpdate dcur sc grp seq => s.execStepEntry dcur sc grp seq

end Sys2Proof.Machine
end

