-- ==== Sys2Proof/Machine/TileQueue.lean ====
section
/-! DEFINITION. The tile command queue (06 R164, R165): starting and completing entries, draining them, and the dispatch
mirror (R162, 08 R207, 10 R237). -/

namespace Sys2Proof.Machine

/-! ### Units and registers of an entry (06 Table 6.8, R164, 08 R208, 09 R226) -/

/-- The units. -/
inductive TileUnit where
  | stope
  | seam
  | move
  | config
  | none
  deriving DecidableEq, Repr

/-- The unit of an entry (Table 6.8). -/
def TileOp.unit : TileOp → TileUnit
  | .tcfg _ | .scaleSet _ _ _ | .scaleUpd _ | .stepUpdate _ _ _ _ => .config
  | .kzero _ _ | .opa _ _ _ _ _ _ _ _ | .opm _ _ _ _ _ _ => .stope
  | .kout _ _ _ _ _ _ _ => .seam
  | .tzero _ _ | .tmov _ _ _ | .load _ _ _ _ | .store _ _ _ _ | .loadQ _ _ _ _ _ _ | .storeQ _ _ _ _ _ | .vload _ _
  | .vstore _ _ => .move
  | .tfence => .none

/-- T registers are numbered from 0, K from 8, V from 12, SS from 20, Q from 84. -/
def regT (t : Nat) : Nat := t
/-- The number of Kn. -/
def regK (k : Nat) : Nat := 8 + k
/-- The number of Vn. -/
def regV (v : Nat) : Nat := 12 + v
/-- The number of SSn. -/
def regSs (n : Nat) : Nat := 20 + n
/-- The number of Qn. -/
def regQ (n : Nat) : Nat := 84 + n

/-- The scale vectors of a slot for a lane of `depth` values of a format: none without a per-block form (08 R213). -/
def slotVectors (r : TileRegs) (slot : Fin 64) (fmt depth : Nat) : List Nat :=
  let x := r.ss[slot]
  if ssBlock x && fmtHasBlock fmt && fmt != 15 then (List.range (blockVectors depth (ssBlk x))).map (fun k => regV ((ssVbase x + k) % 8)) else []

/-- The indices of the bits set in a mask. -/
def maskBits {w : Nat} (m : BitVec w) : List Nat := (List.range w).filter (fun i => m.getLsbD i)

/-- The lane vectors that supply block scales to an outer product. -/
def opaVectors (ctl : Word) (f : Nat) : List Nat :=
  if ctlMx ctl then (rangeBlocks ctl f).flatMap (fun b => [regV (ctlVa ctl + b / 4), regV (ctlVb ctl + b / 4)]) else []

/-- Registers that an entry reads. -/
def TileOp.reads (op : TileOp) (s : State) : List Nat :=
  let r := s.tile.regs
  match op with
  | .tcfg _ | .tzero _ _ | .kzero _ _ | .tfence | .load _ _ _ _ | .vload _ _ | .scaleSet _ _ _ | .scaleUpd _
  | .stepUpdate _ _ _ _ => []
  | .tmov isV src _ => [if isV then regV src.val else regT src.val]
  | .store _ _ t _ => [regT t.val]
  | .loadQ _ _ _ slot _ _ => [regSs slot.val]
  | .storeQ _ f t slot _ => regT t.val :: regSs slot.val :: slotVectors r slot f (tileDepth (fmtWidth f))
  | .vstore v _ => [regV v.val]
  | .opa kd ta tb fa _ ctl _ _ =>
    [regK kd.val, regT ta.val, regT tb.val] ++ opaVectors ctl fa
      ++ (if ctlMx ctl then [] else [regSs (ctlSsa ctl).val, regSs (ctlSsb ctl).val])
      ++ (if ctlSr ctl then [regQ (ctlQs ctl).val] else [])
  | .opm _ kd ta tb _ _ => [regK kd.val, regK (kd.val + 1), regT ta.val, regT tb.val]
  | .kout k seam _ _ slot _ _ =>
    let img := s.tile.seam[seam].image
    [regK k.val, regSs slot.val] ++ (imgReadsV img).map regV ++ (if imgMasks img = 0 then [] else [regQ (imgQs img).val])

/-- Registers that an entry writes; the statistics merged into scale slots are not writes (08 R208). -/
def TileOp.writes (op : TileOp) (s : State) : List Nat :=
  let r := s.tile.regs
  match op with
  | .tcfg _ => List.range 100
  | .tzero isV mask => (maskBits mask).map (if isV then regV else regT)
  | .kzero mask _ => (maskBits mask).map regK
  | .tmov isV _ dst => [if isV then regV dst.val else regT dst.val]
  | .tfence | .store _ _ _ _ | .storeQ _ _ _ _ _ | .vstore _ _ => []
  | .load _ _ t _ => [regT t.val]
  | .loadQ _ f t slot _ _ => regT t.val :: slotVectors r slot f (tileDepth (fmtWidth f))
  | .vload v _ => [regV v.val]
  | .opa kd _ _ _ _ _ _ _ => [regK kd.val]
  | .opm _ kd _ _ _ _ => [regK kd.val, regK (kd.val + 1)]
  | .kout k seam vr kz slot _ _ =>
    let img := s.tile.seam[seam].image
    let red := imgRed img
    (if kz then [regK k.val] else []) ++ (if red = 0 then [] else [regV vr.val])
      ++ (if red = 4 then [regV (vr.val + 1)] else []) ++ slotVectors r slot (imgOfmt img) 128
      ++ (if imgMasks img = 0 then [] else [regQ (imgQs img).val])
  | .scaleSet slot _ _ | .scaleUpd slot => [regSs slot.val]
  | .stepUpdate _ _ _ _ => (List.range 64).map regSs ++ (List.range 16).map regQ

/-- Two lists of registers meet. -/
def meets (a b : List Nat) : Bool := a.any (fun x => b.contains x)

/-- A started entry keeps a later one from starting: its unit is busy, or it has not finished with a register that the
later one reads or writes. A KOUT frees the seam, and has finished with its accumulator, before it completes (09 R228). -/
def TileOp.blocks (a b : TileOp) (s : State) : Bool :=
  let own := match a with
    | .kout k _ _ _ _ _ _ => [regK k.val]
    | _ => []
  (decide (a.unit = b.unit) && a.unit != .seam && a.unit != .none)
    || meets ((a.writes s).filter (fun x => !own.contains x)) (b.reads s ++ b.writes s)
    || meets ((a.reads s).filter (fun x => !own.contains x)) (b.writes s)

/-- The segments of an entry's memory operand. -/
def TileOp.segments : TileOp → List Segment
  | .load _ _ _ l | .store _ _ _ l | .loadQ _ _ _ _ l _ | .storeQ _ _ _ _ l | .vload _ l | .vstore _ l
  | .kout _ _ _ _ _ l _ => l.flatten
  | _ => []

/-! ### Start, completion, drain -/

/-- The TILE domain runs: PD_TILE on, its clock not frozen. -/
def State.tileRuns (s : State) : Bool := decide (s.pwr.tile = .on) && decide (s.core.mode ≠ .frozen)

/-- Mark the first entry that has not started as started. -/
def startFirst : List TileEntry → List TileEntry
  | [] => []
  | e :: t => if e.started then e :: startFirst t else { e with started := true } :: t

/-- A fold fill is open: no further stope or seam entry starts (07 R194). -/
def State.foldOpen (s : State) : Bool :=
  match s.res.fills[0].openFill with
  | some o => o.spare.isNone
  | none => false

/-- An entry cannot start until something else has happened: its clock runs again (16 R367), the fold fill has closed (07 R194), or its
scratch step has been filled (03 R82). -/
def State.entryBlocked (s : State) (op : TileOp) : Bool :=
  !s.tileRuns || (s.foldOpen && (op.unit == .stope || op.unit == .seam)) || op.segments.any (fun g => s.waitsForFill g.pa)

/-- Execute an entry while the stope's hardware gets some elements of an OPA wrong (11 R248). -/
def State.execWith (s : State) (op : TileOp) (faults : List StopeFault) : State :=
  match op with
  | .opa kd ta tb fa fb ctl sc mb => s.execOpaEntry kd ta tb fa fb ctl sc mb faults
  | _ => s.execEntry op

/-- The next entry in queue order starts, and takes its whole effect, where its unit is free and no earlier entry holds a
register of it (06 R164, log 24). -/
def State.startEntry (s : State) (faults : List StopeFault) : State :=
  if !s.tileRuns then s
  else
    match s.tile.queue.find? (fun e => !e.started) with
    | none => s
    | some e =>
      if s.entryBlocked e.op || s.tile.queue.any (fun a => a.started && a.op.blocks e.op s) then s
      else
        let s := { s with tile := { s.tile with queue := startFirst s.tile.queue } }
        s.execWith e.op faults

/-- Count a completed entry in STOPCNT or SEAMCNT (07 Table 7.11, 09 Table 9.11). -/
def State.countDone (s : State) (op : TileOp) : State :=
  match op with
  | .opa _ _ _ _ _ _ _ _ | .opm _ _ _ _ _ _ => { s with tile := { s.tile with stopcnt := s.tile.stopcnt + 1 } }
  | .kout _ _ _ _ _ _ _ => { s with tile := { s.tile with seamcnt := s.tile.seamcnt + 1 } }
  | _ => s

/-- The started entry at a place completes, and its place is freed (06 R164, R165). -/
def State.completeEntry (s : State) (i : Nat) : State :=
  match s.tile.queue[i]? with
  | some e =>
    if e.started && s.tileRuns then
      ({ s with tile := { s.tile with queue := s.tile.queue.eraseIdx i } }).countDone e.op
    else s
  | none => s

/-- What waits for earlier tile instructions goes on waiting: one of them cannot start yet. -/
def State.tileStuck (s : State) : Bool := s.tile.queue.any (fun e => !e.started && s.entryBlocked e.op)

/-- Every entry executes in order and completes: what a wait for earlier tile instructions amounts to where none is blocked
(06 R165). -/
def State.drainTile (s : State) : State :=
  match s.tile.queue with
  | [] => s
  | q =>
    let s := { s with tile := { s.tile with queue := [] } }
    q.foldl (fun s e => (if e.started then s else s.execEntry e.op).countDone e.op) s

/-- An instruction goes on after every earlier tile instruction. -/
def State.afterTile (s : State) (k : State → IRes) : IRes := if s.tileStuck then .wait s else k s.drainTile

/-! ### The dispatch mirror (R162, 08 R207, 10 R237) -/

/-- What the core knows of the tile state in program order. -/
structure Mirror where
  tconf : BitVec 22
  ktype : BitVec 4
  /-- Word 0 of every slot. -/
  ss : Vector Nat 64
  /-- ARMED and TAG of every stream. -/
  q : Vector (Bool × Word) 16
  deriving DecidableEq, Repr

/-- The mirror of registers with nothing queued. -/
def TileRegs.mirror (r : TileRegs) : Mirror :=
  { tconf := r.tconf, ktype := r.ktype, ss := r.ss.map (fun x => ssWord x 0), q := r.q.map (fun x => (qArmed x, wd (qTag x))) }

/-- An entry's change of the mirror. -/
def Mirror.after (m : Mirror) : TileOp → Mirror
  | .tcfg new =>
    let chg := m.tconf ^^^ new
    { tconf := new, ktype := m.ktype &&& ~~~(BitVec.ofNat 4 (chg.toNat / 2 ^ 8))
      ss := if ssEnabled chg then Vector.replicate 64 0 else m.ss
      q := if qEnabled chg then Vector.replicate 16 (false, 0) else m.q }
  | .kzero mask int => { m with ktype := if int then m.ktype ||| mask else m.ktype &&& ~~~mask }
  | .scaleSet slot sel v => if sel = 0 then { m with ss := m.ss.set slot (ssStored 0 0 v.toNat) } else m
  | .kout _ _ _ _ _ _ (some n) => { m with q := m.q.set n (false, (m.q[n]).2) }
  | .stepUpdate dcur _ _ _ =>
    if qEnabled m.tconf then { m with q := m.q.map (fun x => if x.1 then x else (x.1, dcur)) } else m
  | _ => m

/-- The mirror (R162). -/
def State.mirror (s : State) : Mirror :=
  (s.tile.queue.filter (fun e => !e.started)).foldl (fun m e => m.after e.op) s.tile.regs.mirror

/-- Put an entry into the queue. -/
def State.enqueue (s : State) (op : TileOp) : State :=
  { s with tile := { s.tile with queue := s.tile.queue ++ [{ op := op, started := false }] } }

end Sys2Proof.Machine
end

