-- ==== Sys2Proof/Machine/Lazy.lean ====
section
/-! DEFINITION. Who owns the tile state: the lazy fill and restore, time-slicing at level 0, and release
(05 R136 to R138, 06 R145, R146, R169, R170). -/

namespace Sys2Proof.Machine

/-! ### Reaching an area -/

/-- The outcome of reaching an area's blocks. -/
inductive AreaRes where
  | ok (s : State) (m : AreaMap)
  | exc (s : State) (e : Exc)
  | wait (s : State)

/-- Translate blocks of an area at a virtual address (06 R169). `area` is OP + 4·owner level. -/
def State.areaByVa (s : State) (kind : AccKind) (area : Nat) (base : Word) (blocks : List Nat) : AreaRes :=
  match s.translateLines kind (some area) 4096 (blocks.map (fun b => base + wd (4096 * b))) with
  | .exc s e => .exc s e
  | .wait s => .wait s
  | .ok s ls => .ok s ((blocks.zip ls).filterMap (fun x => x.2.head?.map (fun g => (x.1, g))))

/-- A physical address that an access of TSAVE may not touch: its KIND (log 26). -/
def State.paFault (s : State) (pa : Nat) : Option FaultKind :=
  if inScratch pa then none
  else match s.region pa with
    | none => some .noRegion
    | some r => if r.device then some .attr else if r.secure then some .secure else none

/-- Reach blocks of an area at a physical address (06 R169, log 26). -/
def State.areaByPa (s : State) (write : Bool) (area : Nat) (base : Nat) (blocks : List Nat) : AreaRes :=
  match blocks.findSome? (fun b => (s.paFault (base + 4096 * b)).map (fun k => (base + 4096 * b, k))) with
  | some (pa, k) => .exc s { cause := 16, eaddr := wd pa, einfo := areaInfo area (tsbReport k write) }
  | none => .ok s (blocks.map (fun b =>
      let pa := base + 4096 * b
      (b, { pa := pa, ty := if inScratch pa then .scratch else .cached, len := 4096 })))

/-! ### Seam slots (06 R170, 09 R224, R227) -/

/-- Take an image into a slot: checked, recorded or left without a valid image, and marked poisoned where its data were
(09 R224, R227). The reason of the first failing check is answered. -/
def State.seamTake (s : State) (i : Fin 4) (va : Word) (data : Nat) (poisoned : Bool) : State × Option Nat :=
  let img : BitVec 32768 := BitVec.ofNat 32768 data
  let old := s.tile.seam[i]
  let s := if poisoned then s.tileParity else s
  let put (x : SeamSlot) : State := { s with tile := { s.tile with seam := s.tile.seam.set i x } }
  match imgCheck img with
  | none => (put { image := img, valid := true, poison := poisoned, src := va }, none)
  | some r => (put { old with valid := false, poison := old.poison || poisoned }, some r)

/-- What a restore does with one seam slot: nothing, clear it, or reload it from an address (06 R170). -/
def seamPlan (h : Nat) (slot : SeamSlot) (i : Nat) : Option (Option Word) :=
  let w := headerWord h (0x40 + 8 * i)
  if w % 2 = 0 then some none
  else if slot.valid && slot.src.toNat / 2 == w / 2 then none else some (some (wd (w / 2 * 2)))

/-- The lines of the images that a restore reloads. -/
def State.seamLines (s : State) (area : Nat) (h : Nat) : List (Fin 4) → Lines
  | [] => .ok s []
  | i :: rest =>
    match seamPlan h s.tile.seam[i] i.val with
    | some (some va) =>
      match s.translateLines .load (some area) 4096 [va] with
      | .ok s l =>
        match s.seamLines area h rest with
        | .ok s ls => .ok s (l ++ ls)
        | r => r
      | r => r
    | _ =>
      match s.seamLines area h rest with
      | .ok s ls => .ok s ([] :: ls)
      | r => r

/-- Carry out the plan of every slot. -/
def State.seamRestore (s : State) (h : Nat) (ls : List (List Segment)) : State :=
  ((List.finRange 4).zip ls).foldl (fun s x =>
    match seamPlan h s.tile.seam[x.1] x.1.val with
    | none => s
    | some none =>
      { s with tile := { s.tile with seam := s.tile.seam.set x.1 { s.tile.seam[x.1] with valid := false } } }
    | some (some va) =>
      let (s, d, p) := s.readLine x.2
      (s.seamTake x.1 va d (firstPoison p).isSome).1) s

/-! ### Save and restore of an area -/

/-- Restore from an area already reached for its header: read the header, reach the sections, then move everything
(06 R169, R170). `reach` reaches further blocks. -/
def State.restoreFrom (s : State) (area : Nat) (m : AreaMap) (reach : State → List Nat → AreaRes) : AreaRes :=
  let (s1, h, bad) := s.readHeader m
  match bad with
  | some g => .ok (s1.restorePoisoned g) []
  | none =>
    match reach s1 (areaBlocks (headerRegs h).tconf) with
    | .ok s2 m2 =>
      match s2.seamLines area h (List.finRange 4) with
      | .ok s3 ls => .ok ((s3.restoreRegs (m ++ m2) h).seamRestore h ls) []
      | .exc s e => .exc s e
      | .wait s => .wait s
    | r => r

/-- A step towards owning the tile state, within an instruction. -/
inductive Own where
  | ok (s : State)
  | stop (r : IRes)

/-- The record of the current level as an owner. -/
def State.selfOwner (s : State) (l : Fin 8) : TileOwner :=
  { level := l, tsb := s.bm.tsbp[l], pend := false, lsap := 0, filled := false, filler := 0 }

/-- Set the owner. -/
def State.setOwner (s : State) (o : Option TileOwner) : State := { s with bm := { s.bm with owner := o } }

/-- A step that begins when every earlier tile instruction has completed (05 R136). -/
def State.ownAfterTile (s : State) (k : State → Own) : Own := if s.tileStuck then .stop (.wait s) else k s.drainTile

/-- The lazy fill by the current level (05 R136). -/
def State.lazyFill (s : State) (o : TileOwner) : Own :=
  let l := s.lvl
  s.ownAfterTile fun s =>
  match s.areaByVa .store (4 * o.level.val) o.lsap (0 :: areaBlocks s.tile.regs.tconf) with
  | .exc s e => .stop (.exc s e)
  | .wait s => .stop (.wait s)
  | .ok s m =>
    let s := ((s.saveArea m).dropSide (fun _ => true)).countDrain
    let b := s.bankOf l
    let s := s.setBankOf l { b with lzfill := true }
    .ok { s with bm := { s.bm with
      owner := some (s.selfOwner l), displaced := { o with pend := false, filled := true, filler := l } :: s.bm.displaced } }

/-- The lazy restore of a displaced owner (05 R137 step 1). -/
def State.lazyRestore (s : State) (d : TileOwner) : Own :=
  let area := 1 + 4 * d.level.val
  s.ownAfterTile fun s =>
  match s.areaByVa .load area d.lsap [0] with
  | .exc s e => .stop (.exc s e)
  | .wait s => .stop (.wait s)
  | .ok s m =>
    match s.restoreFrom area m (fun s bs => s.areaByVa .load area d.lsap bs) with
    | .exc s e => .stop (.exc s e)
    | .wait s => .stop (.wait s)
    | .ok s _ => .ok s

/-- A level between the owner's and `l` holds a reservation, which keeps the owner's state lazy-pending when `l` ends (05 R137 step 3). -/
def State.lowerReservation (s : State) (owner l : Fin 8) : Bool :=
  (List.finRange 8).any (fun k : Fin 8 => decide (owner < k) && decide (k < l) && s.core.active[k] && (s.bankOf k).lzres)

/-- The tile side of an ERET that ends the activation of level `l` (05 R137, 06 R146): the filler's restore, whether or not the filler
still owns its own state, the discard of a state owned without a fill, and the owner afterwards. -/
def State.releaseTile (s : State) (l : Fin 8) : Own :=
  let discard (s : State) : Own := s.ownAfterTile fun s => .ok ((s.dropSide (fun _ => true)).setOwner none)
  let plain : Own :=
    match s.bm.owner with
    | none => .ok s
    | some o =>
      if o.level = l then discard s
      else if o.pend && (s.bankOf l).lzres then .ok (s.setOwner (some { o with pend := s.lowerReservation o.level l }))
      else .ok s
  match s.bm.displaced with
  | [] => plain
  | d :: rest =>
    if d.filler = l then
      match s.lazyRestore d with
      | .stop r => .stop r
      | .ok s => .ok { s with bm := { s.bm with
          owner := some { d with filled := false, pend := s.lowerReservation d.level l }, displaced := rest } }
    else plain

/-- The reservation of level `l` is released: SP back, LZRES and LZFILL cleared (05 R137 step 2). -/
def State.releaseReservation (s : State) (l : Fin 8) : State :=
  let b := s.bankOf l
  s.setBankOf l { b with sp := if b.lzres then b.lzsp else b.sp, lzres := false, lzfill := false }

/-! ### Time-slicing at level 0 (R138) -/

/-- The current task becomes holder with a fresh budget (R138). -/
def State.becomeHolder (s : State) : State :=
  let s := s.setOwner (some (s.selfOwner 0))
  { s with bm := { s.bm with left := s.bm.quant, unlimited := s.bm.quant == 0 } }

/-- SAVED of the task of a TSB (Table 5.3). -/
def State.savedBit (s : State) (t : BitVec 37) : Bool := t != 0 && bitOf (s.mem.readNat (tsbAddr t + 0x170) 8) 0

/-- Write SAVED of a task. -/
def State.setSaved (s : State) (t : BitVec 37) (b : Bool) : State :=
  let pa := tsbAddr t + 0x170
  let v := s.mem.readNat pa 8
  { s with mem := s.mem.writeNat pa (v / 2 * 2 + bit b) 8 }

/-- The holder's state is written to its TSAVE, SAVED := 1, and there is no holder (Table 5.8). -/
def State.timeSliceSave (s : State) (h : TileOwner) : Own :=
  s.ownAfterTile fun s =>
  match s.areaByPa true 2 (s.tsave h.tsb) (0 :: areaBlocks s.tile.regs.tconf) with
  | .exc s e => .stop (.exc s e)
  | .wait s => .stop (.wait s)
  | .ok s m => .ok ((((s.saveArea m).setSaved h.tsb true).dropSide (fun _ => true)).setOwner none)

/-- A new holder's state is read from its TSAVE, or zeroed (Table 5.8). -/
def State.timeSliceRestore (s : State) : Own :=
  let t := s.bm.tsbp[0]
  s.ownAfterTile fun s =>
  if s.savedBit t then
    let base := s.tsave t
    match s.areaByPa false 3 base [0] with
    | .exc s e => .stop (.exc s e)
    | .wait s => .stop (.wait s)
    | .ok s m =>
      match s.restoreFrom 3 m (fun s bs => s.areaByPa false 3 base bs) with
      | .exc s e => .stop (.exc s e)
      | .wait s => .stop (.wait s)
      | .ok s _ => .ok (s.setSaved t false).becomeHolder
  else .ok s.zeroTile.becomeHolder

/-- The issuer gives way with TILEWAIT = 1 and the next task runs (Table 5.8). -/
def State.tileWaitSwitch (s : State) : State :=
  match s.writeImage 0 1 true with
  | .error f => s.escalateTsb f
  | .ok s1 =>
    let s1 := s1.setReady (s1.bm.ready ++ [s1.runningEntry true])
    match nextReady s1.bm.ready with
    | none => { s1 with core := { s1.core with taskRunning := false } }
    | some e =>
      match (s1.setReady (s1.bm.ready.erase e)).loadTask e.tsb with
      | .error f => s.escalateTsb f
      | .ok s2 => s2.checkLoadedPc

/-- Step 5 of R162: the current context comes to own the tile state (05 R136, Table 5.8, 06 R145). -/
def State.obtainTile (s : State) : Own :=
  let l := s.lvl
  match s.bm.owner with
  | none => if l = 0 then s.timeSliceRestore else s.ownAfterTile fun s => .ok (s.zeroTile.setOwner (some (s.selfOwner l)))
  | some o =>
    if o.level = l ∧ o.pend = false ∧ (l ≠ 0 ∨ o.tsb = s.bm.tsbp[0]) then .ok s
    else if l ≠ 0 then s.lazyFill o
    else if s.bm.left = 0 ∧ s.bm.unlimited = false ∧ s.tsave o.tsb ≠ 0 then
      match s.timeSliceSave o with
      | .ok s => s.timeSliceRestore
      | r => r
    else if s.bm.tsbp[0] = 0 ∨ 64 ≤ s.bm.ready.length ∨ s.levelZeroPinned then .stop (.wait s)
    else .stop (.moved s.tileWaitSwitch)

/-- The release of the tile state by TCFG, at its dispatch (06 R147). -/
def State.releaseByTcfg (s : State) : State := (s.setOwner none).clearTilewait

/-! ### The commands of these steps -/

/-- The end of a commanded step: what the instruction that needs it would meet. -/
def Own.finish : Own → State
  | .ok s => s
  | .stop r => r.finish

/-- LAZY_FILL: the fill that the current level's first tile instruction makes, where the state is lazy-pending (05 R136). -/
def execLazyFill (s : State) : Host.Outcome State Fault Refusal :=
  answer s (match s.bm.owner with
    | some o => if s.canIssue && o.pend && decide (s.lvl ≠ 0) then (s.lazyFill o).finish else s
    | none => s)

/-- LAZY_RESTORE: the restore that the current level's ERET makes, where the level made a fill (05 R137). -/
def execLazyRestore (s : State) : Host.Outcome State Fault Refusal :=
  answer s (match s.bm.displaced with
    | d :: _ =>
      if s.canIssue && decide (d.filler = s.lvl) && decide (s.lvl ≠ 0) then
        (s.releaseTile s.lvl).finish
      else s
    | [] => s)

/-- BUDGET_END: the holder's budget counts down to zero (05 R138); an unlimited one does not. -/
def execBudgetEnd (s : State) : Host.Outcome State Fault Refusal :=
  answer s (if s.bm.unlimited then s else s.endBudget)

/-- A task other than the holder runs at level 0, and could issue a tile instruction. -/
def State.contends (s : State) (o : TileOwner) : Bool :=
  s.canIssue && decide (s.lvl = 0) && decide (o.level = 0) && o.tsb != s.bm.tsbp[0]

/-- TIME_SLICE_SAVE: the holder whose budget has ended is written to its TSAVE for the running task (05 R138). -/
def execTimeSliceSave (s : State) : Host.Outcome State Fault Refusal :=
  answer s (match s.bm.owner with
    | some o =>
      if s.contends o && s.bm.left == 0 && !s.bm.unlimited && s.tsave o.tsb != 0 then (s.timeSliceSave o).finish else s
    | none => s)

/-- TIME_SLICE_RESTORE: the running task, there being no holder, becomes holder with its saved or zeroed state (05 R138). -/
def execTimeSliceRestore (s : State) : Host.Outcome State Fault Refusal :=
  answer s (if s.bm.owner.isNone && s.canIssue && decide (s.lvl = 0) then s.timeSliceRestore.finish else s)

end Sys2Proof.Machine
end

