-- ==== Sys2Proof/Machine/Fills.lean ====
section
/-! DEFINITION. Spare fills, folded mode and retirement (16 R355 to R361, 07 R192 to R195), by the fill machine of each class. -/

namespace Sys2Proof.Machine

/-- Replace the fill machine of a class. -/
def State.setFill (s : State) (c : Fin 5) (m : FillMachine) : State :=
  { s with res := { s.res with fills := s.res.fills.set c m } }

/-- The unit exists and is no spare (16 Table 16.4). -/
def State.fillUnit (s : State) (c : Fin 5) (u : Nat) : Bool :=
  match c with
  | 0 => decide (u < 128)
  | 1 => decide (u / 256 < s.dies) && decide (u % 256 < 192)
  | 2 => decide (u < 1024)
  | 3 => decide (u < s.build.nbank)
  | 4 => decide (u < 16)

/-- The class's domain is on (16 R357). -/
def State.fillDomain (s : State) (c : Fin 5) : Bool :=
  match c with
  | 0 | 2 => decide (s.pwr.tile = .on)
  | 1 => decide (s.pwr.store = .on)
  | 3 | 4 => decide (s.pwr.core = .on)

/-! ### Retirement (16 R360, Table 16.6) -/

/-- Firmware lowers CACHE16 by one through a reassignment that keeps every scratch step (Table 16.6). -/
def State.lowerCache (s : State) : State :=
  let s := s.endReassignment
  let kept := s.tsSteps - (s.ts.cache16.toNat - 1)
  s.reassign (s.ts.cache16 - 1) kept kept

/-- STEPS may have fallen with a retired bank: CACHE16 is lowered, or the highest scratch step is lost (Table 16.6). -/
def State.stepsFell (s : State) (old : Nat) : State :=
  if s.tsSteps = old then s
  else if s.ts.cache16 = 0 then { s with mem := s.mem.zeroScratch (s.tsSteps * 2 ^ 24) (old * 2 ^ 24) }
  else s.lowerCache

/-- PD_TILE is to stay off: its target is lowered, live tile state is lost (07 R195, Table 16.6). -/
def State.retireTile (s : State) : State :=
  let s := s.zeroTile
  { s with
    bm := { s.bm with owner := none }
    tile := { s.tile with queue := [] }
    pwr := { s.pwr with
      targets := s.pwr.targets &&& ~~~2
      tile := match s.pwr.tile with
        | .on => .falling
        | t => t } }

/-- The L2 runs with one way fewer: a set that holds more dirty lines gives one up (Table 16.6). -/
def Mem.loseWay (m : Mem) : Mem :=
  let m := { m with l2ways := m.l2ways - 1 }
  (m.cache.map (·.granule)).foldl (fun m g => if m.l2ways < (m.l2Set g).length + 1 then m.evictL2 g else m) m

/-- What a retirement does to its class (Table 16.6). -/
def State.retireEffect (s : State) (c : Fin 5) (old : Nat) : State :=
  match c with
  | 0 => ({ s with res := { s.res with stopeMode := 2 } }).retireTile
  | 1 => s.stepsFell old
  | 2 => s.retireTile
  | 3 => { s with core := { s.core with mode := .frozen }, pwr := { s.pwr with coreRetired := true },
                  res := { s.res with fatalDue := 1 } }
  | 4 => { s with mem := s.mem.loseWay }

/-- The result of a closed fill, under R11. -/
def FillMachine.result (m : FillMachine) (outcome unit spare restarts first poisoned : Nat) : FillMachine :=
  { m with res :=
      { valid := true, seq := m.res.seq + 1, outcome := BitVec.ofNat 3 outcome, unit := BitVec.ofNat 12 unit,
        spare := BitVec.ofNat 4 spare, restarts := BitVec.ofNat 8 (min restarts 255), first := BitVec.ofNat 13 first,
        poisoned := BitVec.ofNat 13 poisoned } }

/-- Retire a unit (R360): its fill ends with OUTCOME 4. -/
def State.retireUnit (s : State) (c : Fin 5) (unit restarts : Nat) : State :=
  let old := s.tsSteps
  let m := s.res.fills[c]
  let m := { m with openFill := none, fenced := nsErase unit m.fenced, dead := unit :: m.dead, retired := unit :: m.retired }
  let t := (s.setFill c (m.result 4 unit 0 restarts 0 0)).retireEffect c old
  ((((t.tallyInc (0x28 + c.val)).logEvent 4 c.val unit 0 0).raiseVector 11)).sparesChanged s

/-! ### Opening and closing (R357) -/

/-- A fill that opens now, or again after its spare failed: what its source poisoned before is kept (Table 16.5). -/
def State.newFill (s : State) (unit : Nat) (spare : Option Nat) (old : Option OpenFill) : OpenFill :=
  match old with
  | some o => { o with spare := spare, restarts := o.restarts + 1 }
  | none => { unit := unit, spare := spare, restarts := 0, first := none, poisoned := 0, started := s.res.tally[2] }

/-- The fill takes over (R357 step 3): the spare serves, or the folded list; the unit is dead; the result, the tally, the event
log, the spare map. -/
def State.closeFill (s : State) (c : Fin 5) (o : OpenFill) (remap : Bool) : State :=
  let before := s
  let s := s.passTime
  let m := s.res.fills[c]
  let use := match o.spare with
    | some n => [(n, o.unit)]
    | none => []
  let outcome := if remap then 2 else if o.poisoned ≠ 0 then 1 else if o.spare.isNone then 3 else 0
  let m := { m with openFill := none, fenced := nsErase o.unit m.fenced, dead := o.unit :: m.dead, inUse := m.inUse ++ use }
  let m := m.result outcome o.unit (match o.spare with | some n => spareIndex c n | none => 0) o.restarts (o.first.getD 0) o.poisoned
  let s := s.setFill c m
  let s := if o.spare.isNone then ({ s with res := { s.res with stopeMode := 1 } }).tallyInc 0x27 else s
  let s := s.tallyInc (0x20 + c.val)
  let s := if o.poisoned = 0 then s else s.tallyInc 0x26
  let s := s.histAdd 6 (s.res.tally[2] - o.started).toNat
  ((s.logEvent 3 c.val o.unit 0 outcome).raiseVector 11).sparesChanged before

/-- Open a fill of a unit, or go over to the fold fill or retirement (R357 step 2, 07 R194, R195). With no live tile state a
column is only remapped (07 Table 7.4). -/
def State.startFill (s : State) (c : Fin 5) (unit : Nat) (old : Option OpenFill) : State :=
  let s := if c = 0 then s.dropStep else s
  let m := s.res.fills[c]
  let go (spare : Option Nat) : State :=
    let o := s.newFill unit spare old
    let t := (s.setFill c { m with openFill := some o }).logEvent 2 c.val unit 0 0
    if c = 0 ∧ s.bm.owner.isNone then t.closeFill c o true else t
  match (s.sparesFor c unit).find? m.spareFree with
  | some n => go (some n)
  | none =>
    if c = 0 ∧ 64 ≤ ((s.healthyCols).filter (fun p => p != unit)).length then go none
    else s.retireUnit c unit (match old with | some o => o.restarts + 1 | none => 0)

/-- While nothing of the class is open and its domain is on, the oldest queued request opens (R357). -/
def State.openQueued (s : State) (c : Fin 5) : State :=
  let go (s : State) : State :=
    let m := s.res.fills[c]
    match m.queue with
    | u :: q => if m.openFill.isNone && s.fillDomain c then (s.setFill c { m with queue := q }).startFill c u none else s
    | [] => s
  go (go (go (go s)))

/-- A FECMD request (R357 step 1). -/
def State.requestFill (s : State) (c : Fin 5) (u : Nat) : State :=
  let m := s.res.fills[c]
  let open? := match m.openFill with
    | some o => o.unit == u
    | none => false
  if !s.fillUnit c u || m.queue.contains u || m.dead.contains u || open? then s
  else
    let m := { m with fenced := if m.fenced.contains u then m.fenced else nsInsert u m.fenced }
    let s := s.setFill c m
    if 4 ≤ m.queue.length then s.tallyInc 0x2D
    else (s.setFill c { m with queue := m.queue ++ [u] }).openQueued c

/-- FECMD's CLASS; reserved values start nothing (14 Table 14.9). -/
def State.fecmd (s : State) (v : Nat) : State :=
  if h : v % 8 < 5 then s.requestFill ⟨v % 8, h⟩ (v / 16 % 2 ^ 12) else s

/-- The open fill of a class ends its copy and closes; a fold fill first waits for the stope and seam entries that have
started (07 R194). The next queued request then opens. -/
def State.endFill (s : State) (c : Fin 5) : State :=
  match s.res.fills[c].openFill with
  | none => s
  | some o =>
    let waits := o.spare.isNone && s.tile.queue.any (fun e => e.started && (e.op.unit == .stope || e.op.unit == .seam))
    if waits then s
    else
      let t := ((s.closeFill c o false).openQueued c).marginAfterFill
      if c = 1 then t.tuneAfterFill o.unit else t

/-! ### Failures during a fill (Table 16.5, 07 Table 7.4) -/

/-- The spare being filled fails: it is dead, and the fill starts again in the next one. -/
def State.spareFails (s : State) (c : Fin 5) : State :=
  let m := s.res.fills[c]
  match m.openFill with
  | some o =>
    match o.spare with
    | some n =>
      let t := (s.setFill c { m with openFill := none, deadSpares := n :: m.deadSpares }).tallyInc 0x25
      (t.startFill c o.unit (some o)).sparesChanged s
    | none => s
  | none => s

/-- Poison the elements of a logical column in rows from `first` on: each takes the poison value, which sets OVF
where it is the marker (07 R189), its row is marked, and each new mark is an event (07 Table 7.4). -/
def State.poisonColumn (s : State) (col first : Nat) : State :=
  let r := s.tile.regs
  let bad (k : Fin 4) : BitVec 32 := if r.ktype.getLsbD k.val then BitVec.ofNat 32 marker32 else BitVec.ofNat 32 poison32
  let put (k : Fin 4) (x : BitVec 4096) : BitVec 4096 :=
    (x &&& ~~~((0xFFFFFFFF#4096) <<< (32 * col))) ||| (((bad k).setWidth 4096) <<< (32 * col))
  (List.finRange 4).foldl (fun s (k : Fin 4) =>
    let r := s.tile.regs
    let ovf := r.ktype.getLsbD k.val && (List.range 128).any (fun i =>
      decide (first ≤ i) && elemAt ((r.k[k])[i]?.getD 0).toNat 32 col != marker32)
    let s := if ovf then s.setTflags flagOvf else s
    let rows := (List.range 128).filter (fun i => decide (first ≤ i))
    let x : Vector (BitVec 4096) 128 := Vector.ofFn (fun i => if first ≤ i.val then put k (r.k[k])[i] else (r.k[k])[i])
    let new := rows.filter (fun i => !(r.kpois[k]).getLsbD i)
    let s := s.setRegs (r.setK k x (r.kpois[k] ||| markBits rows))
    new.foldl (fun s i => s.markEvent .k k.val i true 0) s) s

/-- The logical columns whose elements a physical column holds: two in folded mode (07 R192, R194). -/
def State.columnsOf (s : State) (u : Nat) : List Nat :=
  if s.res.stopeMode = 1 then
    match s.healthyCols.findIdx? (fun p => p == u) with
    | some h => [2 * h, 2 * h + 1].filter (fun c => decide (c < 128))
    | none => []
  else [u]

/-- The level whose bank a physical bank holds: the resident levels in ascending order (log 51). -/
def State.levelOfBank (s : State) (b : Nat) : Option (Fin 8) := ((List.finRange 8).filter (fun l => s.core.resident[l]))[b]?

/-- The level whose bank a physical bank holds: a dead bank holds none, and the spare bank, number 8, that of the bank it replaces. -/
def State.levelOfPhys (s : State) (b : Nat) : Option (Fin 8) :=
  let used := s.res.fills[3].inUse
  if b = 8 then (used.head?).bind (fun x => s.levelOfBank x.2)
  else if used.any (fun x => x.2 == b) || decide (s.build.nbank ≤ b) then none
  else s.levelOfBank b

/-- A granule of the tile store is poisoned where it stands: a dirty copy in the tile-store cache, or scratch. -/
def Mem.poisonStore (m : Mem) (g : Nat) : Mem :=
  if (lineFind g m.tsc).isSome then
    { m with tsc := m.tsc.map (fun l => if l.granule = g then { l with poison := true } else l) }
  else if inScratch (64 * g) then m.setBackPoison g true else m

/-- A granule that the L2 holds dirty is poisoned there. -/
def Mem.poisonL2 (m : Mem) (g : Nat) : Mem :=
  { m with cache := m.cache.map (fun l => if l.granule = g then { l with poison := true } else l) }

/-- Poison the dirty and scratch lines that a failing bank or way holds, at most `n` of them; clean ones are fetched again. Lines of a
bank have 128 bytes, and lie on its channel; lines of a way have 64 (Tables 16.4 and 16.5, log 53). -/
def State.poisonUnit (s : State) (bank : Option Nat) (n : Nat) : State × Nat :=
  let l := Config.unitGranules s.free
  match bank with
  | some u =>
    let held (g : Nat) : Bool := (lineFind g s.mem.tsc).isSome || inScratch (64 * g)
    let lines := (((l.map (· / 2)).eraseDups).filter (fun k =>
      decide (storeChannel (128 * k) = unitChannel u) && (held (2 * k) || held (2 * k + 1)))).take n
    ({ s.drawn with mem := lines.foldl (fun m k => (m.poisonStore (2 * k)).poisonStore (2 * k + 1)) s.mem }, lines.length)
  | none =>
    let lines := ((l.eraseDups).filter (fun g => (lineFind g s.mem.cache).isSome)).take n
    ({ s.drawn with mem := lines.foldl Mem.poisonL2 s.mem }, lines.length)

/-- The elements that a fill of a class copies (Table 16.4). -/
def fillElements : Fin 5 → Nat
  | 0 => 128
  | 1 => 4096
  | 2 => 1
  | 3 => 43
  | 4 => 2048

/-- The source fails during the copy: the elements not copied yet, from an index that depends on time alone, are poisoned
(Table 16.5). -/
def State.sourceFails (s : State) (c : Fin 5) : State :=
  match s.res.fills[c].openFill with
  | none => s
  | some o =>
    if o.first.isSome then s
    else
      let first := Config.freeCount s.free % fillElements c
      let s := s.drawn
      let note (s : State) (n : Nat) : State :=
        s.setFill c { s.res.fills[c] with openFill := some { o with first := some first, poisoned := n } }
      match c with
      | 0 => note ((s.columnsOf o.unit).foldl (fun s c => s.poisonColumn c first) s) (128 - first)
      | 1 => let (t, n) := s.poisonUnit (some o.unit) (4096 - first); note (t.tallyAdd 0x31 (2 * n)) n
      | 4 => let (t, n) := s.poisonUnit none (2048 - first); note (t.tallyAdd 0x31 n) n
      | 2 =>
        let t := Fin.ofNat 8 (o.unit / 128)
        let i := o.unit % 128
        let r := s.tile.regs
        let t' := s.setRegs { r with tpois := r.tpois.set t (r.tpois[t] ||| markBits [i]) }
        note (if (r.tpois[t]).getLsbD i then t' else t'.markEvent .t t.val i true 0) 1
      | 3 =>
        match s.levelOfBank o.unit with
        | some l => note { s with res := { s.res with bankPoison := s.res.bankPoison.set l true } } (43 - first)
        | none => note s (43 - first)

/-- A fatal trigger freezes the core clocks: open fills are abandoned and queued requests dropped (Table 16.5, 07 Table 7.4); a margin step
or a channel's tuning that waited for one is done (11 Table 11.2). -/
def State.abandonFills (s : State) : State :=
  let t := (List.finRange 5).foldl (fun s c =>
    let m := s.res.fills[c]
    match m.openFill with
    | none => s.setFill c { m with queue := [] }
    | some o =>
      s.setFill c (({ m with openFill := none, queue := [] }).result (if c = 0 then 5 else 3) o.unit
        (match o.spare with | some n => spareIndex c n | none => 0) o.restarts (o.first.getD 0) o.poisoned)) s
  match s.res.fills[1].openFill with
  | some o => t.marginAfterFill.tuneAfterFill o.unit
  | none => t.marginAfterFill

/-! ### Commands -/

/-- STOPE_COLUMN_FILL: FECMD class 0 (07 R193). -/
def execStopeColumnFill (unit : BitVec 12) (s : State) : Host.Outcome State Fault Refusal := answer s (s.requestFill 0 unit.toNat)

/-- TILE_STORE_BANK_FILL: FECMD class 1 (16 R357). -/
def execTileStoreBankFill (unit : BitVec 12) (s : State) : Host.Outcome State Fault Refusal :=
  answer s (s.requestFill 1 unit.toNat)

/-- OPERAND_TILE_ROW_FILL: FECMD class 2 (16 R357). -/
def execOperandTileRowFill (unit : BitVec 12) (s : State) : Host.Outcome State Fault Refusal :=
  answer s (s.requestFill 2 unit.toNat)

/-- REGISTER_BANK_FILL: FECMD class 3 (16 R357). -/
def execRegisterBankFill (unit : BitVec 12) (s : State) : Host.Outcome State Fault Refusal :=
  answer s (s.requestFill 3 unit.toNat)

/-- L2_WAY_FILL: FECMD class 4 (16 R357). -/
def execL2WayFill (unit : BitVec 12) (s : State) : Host.Outcome State Fault Refusal := answer s (s.requestFill 4 unit.toNat)

/-- FILL_CLOSE: the open fill of a class ends (16 R357). Refused where the class is not one of Table 16.4. -/
def execFillClose (cls : BitVec 3) (s : State) : Host.Outcome State Fault Refusal :=
  if fillClass cls then answer s (s.endFill (Fin.ofNat 5 cls.toNat)) else .refused .illFormed

end Sys2Proof.Machine
end

