-- ==== Sys2Proof/Machine/Assay.lean ====
section
/-! DEFINITION. The assay's checks as they complete (11 R248, R249, R252, R253, R256) and the histogram selection. -/

namespace Sys2Proof.Machine

/-- The elements of which the stope's 32 bits differ from the recomputed ones, numbered 16·row + column (11 R248). -/
def Check.differing (p : Check) : List (BitVec 8) :=
  ((List.range 256).filter (fun e => (p.ref[e]?).getD 0 != (p.got[e]?).getD 0)).map (BitVec.ofNat 8)

/-- The physical column of an element of a sample, as of its final promotion (11 R256). -/
def Check.column (p : Check) (e : BitVec 8) : Nat := ((p.cols[e.toNat % 16]?).getD 0).toNat

/-- The mismatching elements lie in one logical column (11 R256). -/
def singleColumn : List (BitVec 8) → Bool
  | [] => false
  | e :: t => t.all (fun x => x.toNat % 16 == e.toNat % 16)

/-- The first mismatching element in row then column order. -/
def firstElement (l : List (BitVec 8)) : BitVec 8 := BitVec.ofNat 8 ((l.map (·.toNat)).foldl min 255)

/-- Capture a mismatch, or count it as missed (11 R249 step 2). -/
def State.captureMismatch (s : State) (p : Check) (l : List (BitVec 8)) : State :=
  let a := s.assay
  { s with assay :=
      if a.misValid then { a with misMissed := satInc a.misMissed }
      else { a with
        misValid := true, misSeq := a.misSeq + 1, misSample := p.sample, misSingle := singleColumn l
        misPcol := BitVec.ofNat 8 (p.column (firstElement l)), misNelem := BitVec.ofNat 9 l.length, misMissed := 0 } }

/-- Firmware counts a single-column sample by the column that made its final promotion, and at COLTHR asks for a fill of the column and
clears its count (11 R256). -/
def State.countColumn (s : State) (p : Check) (l : List (BitVec 8)) : State :=
  if s.firmware && singleColumn l then
    let col := p.column (firstElement l)
    let n := smGet 0 col s.assay.colCount + 1
    let put (s : State) (n : Nat) : State := { s with assay := { s.assay with colCount := smSet 0 col n s.assay.colCount } }
    if s.param 0x5000 8 ≤ n then (put s 0).requestFill 0 col else put s n
  else s

/-- The step takes notice of a mismatch: a first one in its window is its failure, a later one nothing more; one after the window, which
the step has passed, closes the step and is one outside a step (11 R254). -/
def State.stepMismatch (s : State) : State :=
  if !s.assay.stepOpen then s.marginOn
  else if s.assay.stepFail.isSome then s
  else if s.param 0x5000 2 < s.assay.window then (if s.firmware then s.closeStep.marginOn else s)
  else { s with assay := { s.assay with stepFail := some (s.assay.window - 1) } }

/-- A mismatching sample (11 R249): counted, captured, EV44, deputy vector 10, then the margin step and the column count. -/
def State.mismatch (s : State) (p : Check) (l : List (BitVec 8)) : State :=
  let s := { s with assay := { s.assay with mismatch := s.assay.mismatch + 1 } }
  ((((s.tallyInc 0x39).captureMismatch p l).setEvent 44).raiseVector 10).stepMismatch.countColumn p l

/-- The window of the open step is open: after a change of VID_REQ, VID_OK has returned to 1 (17 R375). -/
def State.windowOpen (s : State) : Bool := s.assay.stepOpen && (s.assay.knob || s.pwr.vidOk)

/-- A check of which the assay array gets elements wrong, numbered 16·row + column: the bits it computes instead (11 R248, log 188). -/
def Check.misread (p : Check) (faults : List (BitVec 8 × BitVec 32)) : Check :=
  { p with ref := faults.foldl (fun r x => r.set x.1.toNat x.2) p.ref }

/-- The oldest sample's check completes: its 256 results are compared bit for bit (11 R248). -/
def State.finishCheck (s : State) (faults : List (BitVec 8 × BitVec 32)) : State :=
  match s.assay.pend with
  | [] => s
  | p :: rest =>
    let p := p.misread faults
    let s := ({ s with assay := { s.assay with pend := rest, samples := s.assay.samples + 1 } }).tallyInc 0x38
    let s := if s.windowOpen then { s with assay := { s.assay with window := s.assay.window + 1 } } else s
    let l := p.differing
    if l.isEmpty then s else s.mismatch p l

/-- SAME_FORMAT_CHECK: the oldest sample is compared, the elements that the assay array gets wrong being given (11 R248). -/
def execSameFormatCheck (faults : List (BitVec 8 × BitVec 32)) (s : State) : Host.Outcome State Fault Refusal := answer s (s.finishCheck faults)

/-- Capture a wide alarm where none is held (11 R253). -/
def State.captureAlarm (s : State) (p : WideSample) : State :=
  let a := s.assay
  { s with assay := if a.alValid then a else { a with alValid := true, alSeq := a.alSeq + 1, alSample := p } }

/-- The wide unit finishes its sample (11 R252, R253): the histogram counters, and the alarm at or above ALBKT. -/
def State.finishWide (s : State) : State :=
  match s.assay.widePend with
  | none => s
  | some p =>
    let k := 32 * p.ltag.toNat + p.bucket.toNat
    let a := s.assay
    let a := { a with widePend := none, wides := a.wides + 1, hist := smSet 0 k (satInc (smGet 0 k a.hist)) a.hist }
    let s := { s with assay := a }
    let h := 32 * 5 + p.bucket.toNat
    let s := { s with res := { s.res with hist := smSet 0#64 h (satInc (smGet 0#64 h s.res.hist)) s.res.hist } }
    if a.albkt ≤ p.bucket then ((s.tallyInc 0x3A).captureAlarm p).setEvent 44 else s

/-- WIDE_CHECK: the wide unit finishes (11 R252). -/
def execWideCheck (s : State) : Host.Outcome State Fault Refusal := answer s s.finishWide

/-- Zero the 32 counters of the selected tag (11 Table 11.9). -/
def State.clearTag (s : State) : State :=
  let t := s.assay.selTag.toNat
  { s with assay := { s.assay with hist := s.assay.hist.filter (fun x => x.1 / 32 != t) } }

/-- ASHSEL_CLR: ASHSEL.CLR zeroes the counters of the tag selected (11 Table 11.9). -/
def execAshselClr (s : State) : Host.Outcome State Fault Refusal := answer s s.clearTag

end Sys2Proof.Machine
end

