-- ==== Sys2Proof/Machine/Reduce.lean ====
section
/-! DEFINITION. The reduce of the tram engine: one element with one rounding, and its random bits (13 R296, R297). -/

namespace Sys2Proof.Machine

/-- The bytes of a reduce element: FP32, BF16, INT32 (13 Table 13.7). -/
def redSize (fmt : Nat) : Nat := if fmt = 1 then 2 else 4

/-- Rounding of the exact value v·2^e to a format, nearest-even or with a chunk (13 R296; 07 R185, R187). -/
def roundTo (f : FpFormat) (v e : Int) (negZero : Bool) (chunk : Option Nat) : Nat :=
  let p := fpParams f
  let neg := decide (v < 0)
  let m := v.natAbs
  if v = 0 then fpZero p negZero
  else
    match chunk with
    | none => (fpRound p .nearest neg m e).bits
    | some r =>
      let top : Int := (bitLength m : Int) - 1 + e
      if top ≥ 128 then fpInf p neg
      else
        let q := max (top - (p.prec - 1)) (p.emin - (p.prec - 1))
        if e ≥ q then (fpRound p .nearest neg m e).bits
        else
          let k := (q - e).toNat
          let a := m / 2 ^ k
          let t := m % 2 ^ k * 2 ^ 16 / 2 ^ k
          let isMax := decide (q = 127 - (p.prec - 1 : Int)) && decide (a = 2 ^ p.prec - 1)
          (fpRound p .nearest neg (if 65536 ≤ t + r ∧ !isMax then a + 1 else a) q).bits

/-- The sum of two floating-point elements; a NaN travels as in 07 R188 (log 46). -/
def sumFloat (f : FpFormat) (a b : Nat) (chunk : Option Nat) : Nat :=
  let p := fpParams f
  let x := fpDecode p a
  let y := fpDecode p b
  let nan := if f = .f32 then nanOf a b else fpNan p
  if x.isNan || y.isNan then nan
  else
    match x, y with
    | .fin n1 m1 e1, .fin n2 m2 e2 =>
      let w := addExact n1 m1 e1 n2 m2 e2
      roundTo f w.1 w.2 (n1 && n2 && m1 == 0 && m2 == 0) chunk
    | .inf n, .inf n' => if n = n' then a else nan
    | .inf _, _ => a
    | _, _ => b

/-- The INT32 sum: beyond ±(2^31 − 1) the marker, which absorbs (13 R296). -/
def sumInt (a b : Nat) : Nat :=
  if a = marker32 ∨ b = marker32 then marker32
  else
    let w := int32 a + int32 b
    if w < -(2 ^ 31 - 1) ∨ 2 ^ 31 - 1 < w then marker32 else (w % 2 ^ 32).toNat

/-- The rank of an element for a maximum (13 R296; 07 R191). -/
def rankOf (fmt b : Nat) : Int := if fmt = 2 then rankInt b else if fmt = 1 then rank32 (b * 2 ^ 16) else rank32 b

/-- One element: DST := DST red SRC (13 R296). -/
def reduceElem (red fmt : Nat) (chunk : Option Nat) (d s : Nat) : Nat :=
  if red = 1 then (if rankOf fmt d < rankOf fmt s then s else d)
  else if fmt = 2 then sumInt d s
  else sumFloat (if fmt = 1 then .bf16 else .f32) d s chunk

/-- The random chunk of the element at destination address E (13 R297). -/
def redChunk (seed base : Word) (fmt e : Nat) : Nat :=
  let size := redSize fmt
  let lo := 0x3 * 2 ^ 60 + e / (size * 8) % 2 ^ 60
  let x := philox base.toNat lo seed.toNat
  let n := e / size % 8
  let w := match n / 2 with
    | 0 => x.x0
    | 1 => x.x1
    | 2 => x.x2
    | _ => x.x3
  w / 2 ^ (16 * (n % 2)) % 2 ^ 16

/-- What a reduce needs beside its data. -/
structure RedOp where
  /-- RED: 0 sum, 1 max. -/
  red : Nat
  /-- FMT: 0 FP32, 1 BF16, 2 INT32. -/
  fmt : Nat
  /-- SR. -/
  sr : Bool
  /-- SRSEED. -/
  seed : Word
  /-- SRBASE. -/
  base : Word

/-- Reduce `n` bytes of `s` into `d`, both with byte 0 least significant, the first element at destination address `e`. -/
def reduceBytes (o : RedOp) (e d s : Nat) : Nat → Nat
  | 0 => 0
  | n + 1 =>
    let w := 8 * redSize o.fmt
    let c := if o.sr && o.red == 0 && o.fmt != 2 then some (redChunk o.seed o.base o.fmt e) else none
    reduceElem o.red o.fmt c (d % 2 ^ w) (s % 2 ^ w)
      + 2 ^ w * reduceBytes o (e + redSize o.fmt) (d / 2 ^ w) (s / 2 ^ w) n

end Sys2Proof.Machine
end

