-- ==== Sys2Proof/Machine/Fabric.lean ====
section
/-! DEFINITION. The fabric port: packets, virtual channels and flit credits (17 R383 to R386). -/

namespace Sys2Proof.Machine

/-- A packet with an empty payload from this node. -/
def State.packetTo (s : State) (dst : BitVec 24) : Packet :=
  { src := s.straps.nodeId, dst := dst, sec := false, sr := false, red := 0, fmt := 0, len := 0, status := 0, tag := 0,
    tail := 0, head := 0, addr := 0, pois := 0, inl := 0, data := [] }

/-- The virtual channel of a packet type (Table 17.7). -/
def vcOf (type : BitVec 4) : Fin 4 :=
  if type = 2 ∨ type = 4 ∨ type = 0xB then 1
  else if type = 5 ∨ type = 6 ∨ type = 7 then 2
  else if type = 9 ∨ type = 0xA then 3 else 0

/-- The flits of a packet: one, and one for every 128 bytes of data (R383). -/
def packetFlits (p : Packet) : Nat := 1 + (64 * p.data.length + 127) / 128

/-- Send the packets that wait, in order on each virtual channel, while the credits last: a packet begins only with
credits for all of its flits, since they move in consecutive cycles (R383, R385). -/
def sendWaiting (f : Fabric) : List (BitVec 4 × Packet) → Fabric
  | [] => { f with waiting := [] }
  | x :: rest =>
    let v := vcOf x.1
    let n := packetFlits x.2
    if n ≤ f.credits[v] then
      sendWaiting { f with credits := f.credits.set v (f.credits[v] - n), sent := f.sent ++ [x] } rest
    else
      -- a blocked channel holds back its own later packets only
      let g := sendWaiting { f with credits := f.credits.set v 0 } rest
      { g with waiting := x :: g.waiting, credits := g.credits.set v f.credits[v] }

/-- Hand a packet to the port (R383). -/
def State.sendPacket (s : State) (type : BitVec 4) (p : Packet) : State :=
  { s with fab := sendWaiting s.fab (s.fab.waiting ++ [(type, p)]) }

/-- Hand several packets to the port. -/
def State.sendPackets (s : State) (l : List (BitVec 4 × Packet)) : State :=
  { s with fab := sendWaiting s.fab (s.fab.waiting ++ l) }

/-- FABRIC_CREDIT_RETURN: flit credits come back on a virtual channel, and packets that wait are sent (R385). -/
def execFabricCreditReturn (vc : BitVec 2) (flits : BitVec 8) (s : State) : Host.Outcome State Fault Refusal :=
  answer s
    (let v : Fin 4 := ⟨vc.toNat, vc.isLt⟩
     let f := { s.fab with credits := s.fab.credits.set v (s.fab.credits[v] + flits.toNat) }
     { s with fab := sendWaiting f f.waiting })

/-- A packet other than a data packet arrives: one with a parity error is dropped, and counted as the error was (16 Table 16.1 class 11,
log 182). -/
def State.received (s : State) (f : State → State) : State :=
  if s.fab.bad then { s with fab := { s.fab with bad := false } } else f s

/-- A data packet arrives: one with a parity error brings each of its granules poisoned (16 Table 16.1 class 11). -/
def State.receivedData (s : State) (p : Packet) (f : Packet → State → State) : State :=
  if s.fab.bad then f { p with pois := BitVec.allOnes 64 } { s with fab := { s.fab with bad := false } } else f p s

/-- RESERVED_PACKET_TYPE: dropped and counted in FPCNT (Table 17.7). Refused where the type is not reserved. -/
def execReservedPacketType (type : BitVec 4) (s : State) : Host.Outcome State Fault Refusal :=
  if reservedType type then answer s (s.received fun s => { s with fab := { s.fab with reserved := s.fab.reserved + 1 } })
  else .refused .illFormed

/-- Word `i` of the inline payload. -/
def packetWord (p : Packet) (i : Nat) : Word := p.inl.extractLsb' (64 * i) 64

/-- An inline payload of 64-bit words, word 0 first. -/
def inlineOf (ws : List Word) : BitVec 768 := BitVec.ofNat 768 (packWords 64 (ws.map (·.toNat)))

end Sys2Proof.Machine
end

