-- ==== Sys2Proof/Machine/Branch.lean ====
section
/-! DEFINITION. Branches, CALL, RET and the hardware loop (02 R42 to R47). -/

namespace Sys2Proof.Machine

/-- BRC (R42). -/
def execBrc (cond : BitVec 4) (off : BitVec 22) (s : State) : Host.Outcome State Fault Refusal :=
  s.issue fun s => if condHolds cond s.bank.fl then .jump s (branchTarget s.bank.pc off) else .done s

/-- BR (R42). -/
def execBr (off : BitVec 26) (s : State) : Host.Outcome State Fault Refusal :=
  s.issue fun s => .jump s (branchTarget s.bank.pc off)

/-- The stack access of CALL or RET. -/
def State.stackAccess (s : State) (kind : AccKind) (va : Word) : Access :=
  { kind := kind, va := va, eaddr := va, priv := s.super }

/-- Cause 13 for a misaligned SP: KIND = ATTR, LEVEL = 0b111; bit 32 marks RET (05 Table 5.9). -/
def State.stackMisaligned (s : State) (ret : Bool) (va : Word) : Exc :=
  let a := s.stackAccess (if ret then .load else .store) va
  { cause := 13, eaddr := va, einfo := faultReport a 0 .attr 0 7 false false false + wd (bit ret * 2 ^ 32) }

/-- Cause 13 in place of causes 4 to 11 and 14 of the stack access (R45); other causes stand. -/
def stackFault (ret : Bool) (va : Word) (e : Exc) : Exc :=
  if (4 ≤ e.cause ∧ e.cause ≤ 11) ∨ e.cause = 14 then
    { cause := 13, eaddr := va, einfo := wd (e.einfo.toNat % 2 ^ 32 + bit ret * 2 ^ 32) }
  else e

/-- Push PC + 4 and transfer control (R43). -/
def State.pushAndJump (s : State) (target : Word) : IRes :=
  let a := s.bank.sp - 8
  if s.bank.sp.toNat % 8 ≠ 0 then .exc s (s.stackMisaligned false a)
  else
    match s.store a 8 (s.bank.pc + 4) false with
    | .ok s => .jump (s.setSp a) target
    | .exc s e => .exc s (stackFault false a e)
    | .wait s => .wait s

/-- CALL (R42, R43). -/
def execCall (off : BitVec 26) (s : State) : Host.Outcome State Fault Refusal :=
  s.issue fun s => s.pushAndJump (branchTarget s.bank.pc off)

/-- CALLR: a target that is not a multiple of 4 raises cause 3 before anything is pushed (R42). -/
def execCallr (ra : RegIx) (rsv : BitVec 21) (s : State) : Host.Outcome State Fault Refusal :=
  s.issue fun s =>
    guardRsv (rsv == 0) (encJ 0x23 (rsv.toNat / 2 ^ 16 * 2 ^ 21 + ra.toNat * 2 ^ 16 + rsv.toNat % 2 ^ 16)) s
      (let t := s.readG ra
       if t.toNat % 4 ≠ 0 then .exc s { cause := 3, eaddr := t } else s.pushAndJump t)

/-- The end of RET, once the return address is read: cause 3 where it is misaligned, else SP and PC (R44). -/
def State.returnTo (s : State) (t : Word) : IRes :=
  if t.toNat % 4 ≠ 0 then .exc s { cause := 3, eaddr := t } else .jump (s.setSp (s.bank.sp + 8)) t

/-- RET (R44). -/
def execRet (rsv : BitVec 26) (s : State) : Host.Outcome State Fault Refusal :=
  s.issue fun s =>
    guardRsv (rsv == 0) (encJ 0x24 rsv.toNat) s
      (let a := s.bank.sp
       if a.toNat % 8 ≠ 0 then .exc s (s.stackMisaligned true a)
       else
         match s.load a 8 with
         | .ok s v => s.returnTo (wd v)
         | .device s pa =>
           .wait (s.issueDevice .ret pa 8 a)
         | .exc s e => .exc s (stackFault true a e)
         | .wait s => .wait s)

/-- JR (R42). -/
def execJr (ra : RegIx) (rsv : BitVec 21) (s : State) : Host.Outcome State Fault Refusal :=
  s.issue fun s =>
    guardRsv (rsv == 0) (encJ 0x25 (rsv.toNat / 2 ^ 16 * 2 ^ 21 + ra.toNat * 2 ^ 16 + rsv.toNat % 2 ^ 16)) s
      (let t := s.readG ra
       if t.toNat % 4 ≠ 0 then .exc s { cause := 3, eaddr := t } else .jump s t)

/-- Arm the hardware loop, or skip its body for a count of 0 (R46). -/
def State.armLoop (s : State) (n : Word) (len : BitVec 16) : IRes :=
  let pc := s.bank.pc
  if n = 0 then .jump s (pc + 4 * (len.setWidth 64 + 1))
  else .done (s.setBank { s.bank with lc := n, lb := pc + 4, le := pc + 4 * len.setWidth 64 })

/-- LOOP: a len of 0 is reserved (R46). -/
def execLoop (ra : RegIx) (len : BitVec 16) (rsv : RegIx) (s : State) : Host.Outcome State Fault Refusal :=
  s.issue fun s =>
    guardRsv (rsv == 0 && len != 0) (encJ 0x26 (rsv.toNat * 2 ^ 21 + ra.toNat * 2 ^ 16 + len.toNat)) s
      (s.armLoop (s.readG ra) len)

/-- LOOPI: a len of 0 is reserved (R46). -/
def execLoopi (count : BitVec 10) (len : BitVec 16) (s : State) : Host.Outcome State Fault Refusal :=
  s.issue fun s =>
    guardRsv (len != 0) (encJ 0x27 (count.toNat * 2 ^ 16 + len.toNat)) s (s.armLoop (count.setWidth 64) len)

end Sys2Proof.Machine
end

