-- ==== Sys2Proof/Machine/System.lean ====
section
/-! DEFINITION. System instructions of the scalar core (02 R54): traps, fences, TLB and cache maintenance, events, SLEEP;
and the memory system's own happenings: store-buffer drain, device answers, prefetch (03). -/

namespace Sys2Proof.Machine

/-- TRAP: cause 23 with code12 (R54, 05 Table 5.9). -/
def execTrap (code : BitVec 12) (rsv : BitVec 10) (s : State) : Host.Outcome State Fault Refusal :=
  s.issue fun s =>
    guardRsv (rsv == 0) (encJ 0x2D (rsv.toNat * 2 ^ 16 + code.toNat / 128 * 2 ^ 11 + code.toNat % 128 * 16)) s
      (.exc s { cause := 23, einfo := code.setWidth 64 })

/-- A word of the system group with 22 reserved bits above func[3:0]. -/
def sysWord (op : Nat) (func : Nat) (rsv : BitVec 22) : Word := encJ op (rsv.toNat * 16 + func)

/-- BKPT: cause 24 at its own address (R54, 05 Table 5.9). -/
def execBkpt (rsv : BitVec 22) (s : State) : Host.Outcome State Fault Refusal :=
  s.issue fun s => guardRsv (rsv == 0) (sysWord 0x2D 3 rsv) s (.exc s { cause := 24, eaddr := s.bank.pc })

/-- Earlier stores are performed: the store buffer is empty. -/
def State.drainStores (s : State) : State := { s with mem := s.mem.drain }

/-- FENCE: a mask of 0 is reserved; where stores are among the earlier kinds named, they are performed (03 R70). -/
def execFence (mask : BitVec 4) (rsv : BitVec 18) (s : State) : Host.Outcome State Fault Refusal :=
  s.issue fun s =>
    guardRsv (rsv == 0 && mask != 0)
      (encJ 0x2D (rsv.toNat / 8 * 2 ^ 11 + rsv.toNat % 8 * 2 ^ 8 + mask.toNat * 16 + 2)) s
      (.done (if mask.toNat % 4 = 0 then s else s.drainStores))

/-- Every earlier access of the core is performed, as a FENCE of all kinds and a TFENCE would (04 R105): stores, and tile instructions
where none is blocked. -/
def State.performAll (s : State) : State :=
  let s := s.drainStores
  if s.tileStuck then s else s.drainTile

/-- Once every earlier access of the core is performed, remove the slots that `p` names and every stage-1 entry of the table-entry
cache (04 R105). -/
def State.tlbinv (s : State) (p : TlbSlot → Bool) : IRes :=
  s.drainStores.afterTile fun s => .done { s with xl := ({ s.xl with tec := s.xl.tec.filter (·.stage2) } : Xlat).keepSlots (fun t => !p t) }

/-- TLBINV.ALL (04 Table 4.7). -/
def execTlbinvAll (rsv : BitVec 22) (s : State) : Host.Outcome State Fault Refusal :=
  s.issue fun s =>
    let w := sysWord 0x2E 0 rsv
    guardRsv (rsv == 0) w s (guardPriv w s (s.tlbinv (fun _ => true)))

/-- TLBINV.ASID: slots with G = 0 and the ASID of ra[15:0] (04 Table 4.7). -/
def execTlbinvAsid (ra : RegIx) (rsv : BitVec 17) (s : State) : Host.Outcome State Fault Refusal :=
  s.issue fun s =>
    let w := encJ 0x2E (rsv.toNat / 2 ^ 12 * 2 ^ 21 + ra.toNat * 2 ^ 16 + rsv.toNat % 2 ^ 12 * 16 + 1)
    guardRsv (rsv == 0) w s (guardPriv w s
      (let asid : BitVec 16 := (s.readG ra).setWidth 16
       s.tlbinv (fun t => !t.g && t.asid == asid)))

/-- TLBINV.VA: slots whose page or group contains ra, with G = 1 or the ASID of rb[15:0] (04 Table 4.7). -/
def execTlbinvVa (ra rb : RegIx) (rsv : BitVec 12) (s : State) : Host.Outcome State Fault Refusal :=
  s.issue fun s =>
    let w := encJ 0x2E (rsv.toNat / 2 ^ 7 * 2 ^ 21 + ra.toNat * 2 ^ 16 + rb.toNat * 2 ^ 11 + rsv.toNat % 2 ^ 7 * 16 + 2)
    guardRsv (rsv == 0) w s (guardPriv w s
      (let asid : BitVec 16 := (s.readG rb).setWidth 16
       let va := s.readG ra
       s.tlbinv (fun t => t.covers va asid)))

/-! ### Cache maintenance (03 R83) -/

/-- The word of a cache operation. -/
def cacheWord (func : Nat) (ra : RegIx) (rsv : BitVec 17) : Word :=
  encJ 0x2E (rsv.toNat / 2 ^ 12 * 2 ^ 21 + ra.toNat * 2 ^ 16 + rsv.toNat % 2 ^ 12 * 16 + func)

/-- Translate and check the address of a cache operation, then act on its 128-byte block (R83). -/
def State.cacheOp (s : State) (ra : RegIx) (kind : AccKind) (f : State → Loc → IRes) : IRes :=
  let va := s.readG ra
  match s.translate { kind := kind, va := va, eaddr := va, priv := s.super } with
  | .fault s e => .exc s e
  | .hold s => .wait s
  | .ok s loc => f s.drainStores loc

/-- Act on the two granules of the block of a physical address. -/
def Mem.onBlock (m : Mem) (pa : Nat) (f : Mem → Nat → Mem) : Mem :=
  let g := pa / 128 * 2
  f (f m g) (g + 1)

/-- CLEAN: dirty data written back (Table 3.5); nothing on on-core memory (05 R133). -/
def execClean (ra : RegIx) (rsv : BitVec 17) (s : State) : Host.Outcome State Fault Refusal :=
  s.issue fun s => guardRsv (rsv == 0) (cacheWord 4 ra rsv) s (s.cacheOp ra .load fun s loc =>
    match loc with
    | .onCore _ => .done s
    | .phys pa _ => .done { s with mem := s.mem.onBlock pa Mem.writeBack })

/-- INVAL, Supervisor: lines dropped without write-back, dirty and poisoned data discarded (Table 3.5). -/
def execInval (ra : RegIx) (rsv : BitVec 17) (s : State) : Host.Outcome State Fault Refusal :=
  s.issue fun s =>
    let w := cacheWord 5 ra rsv
    guardRsv (rsv == 0) w s (guardPriv w s (s.cacheOp ra .inval fun s loc =>
      match loc with
      | .onCore _ => .done s
      | .phys pa _ => .done { s with mem := s.mem.onBlock pa Mem.dropLine }))

/-- FLUSH: as CLEAN, then lines invalidated (Table 3.5). -/
def execFlush (ra : RegIx) (rsv : BitVec 17) (s : State) : Host.Outcome State Fault Refusal :=
  s.issue fun s => guardRsv (rsv == 0) (cacheWord 6 ra rsv) s (s.cacheOp ra .load fun s loc =>
    match loc with
    | .onCore _ => .done s
    | .phys pa _ => .done { s with mem := s.mem.onBlock pa (fun m g => (m.writeBack g).dropLine g) })

/-- IINVAL: earlier stores reach the caches; later instructions are fetched again (Table 3.5). -/
def execIinval (ra : RegIx) (rsv : BitVec 17) (s : State) : Host.Outcome State Fault Refusal :=
  s.issue fun s => guardRsv (rsv == 0) (cacheWord 7 ra rsv) s (s.cacheOp ra .load fun s _ => .done s)

/-- ZERO: 128 bytes of zero, clearing poison; cause 14 on a device page (Table 3.5). -/
def execZero (ra : RegIx) (rsv : BitVec 17) (s : State) : Host.Outcome State Fault Refusal :=
  s.issue fun s => guardRsv (rsv == 0) (cacheWord 8 ra rsv) s
    (let va := s.readG ra
     s.cacheOp ra .store fun s loc =>
      match loc with
      | .onCore off =>
        let off := off / 128 * 128
        let m := s.mem.setOnCoreNat off 0 128
        .done { s with mem := { m with onCorePoison := nsErase (off / 64) (nsErase (off / 64 + 1) m.onCorePoison) } }
      | .phys pa ty =>
        if s.waitsForFill pa then .wait s
        else if s.unbacked pa then .done (s.noteUnbacked pa)
        else
          match ty with
          | .device => .exc s (s.attrFault { kind := .store, va := va, eaddr := va, priv := s.super })
          | .uncached =>
            .done { s with mem := s.mem.onBlock pa (fun m g => (m.portWrite 0 (64 * g) 64 0).setBackPoison g false) }
          | _ => .done { s with mem := s.mem.onBlock pa (fun m g => m.writeGranule g 0 false) })

/-! ### Events and SLEEP -/

/-- SEV, Supervisor: event EV48 + func[6:4] is set pending (05 R121). -/
def execSev (ev : BitVec 3) (rsv : BitVec 19) (s : State) : Host.Outcome State Fault Refusal :=
  s.issue fun s =>
    let w := encJ 0x2F (rsv.toNat / 16 * 2 ^ 11 + rsv.toNat % 16 * 2 ^ 7 + ev.toNat * 16 + 7)
    guardRsv (rsv == 0) w s (guardPriv w s (.done (s.setEvent (48 + ev.toNat))))

/-- SLEEP, Supervisor: issue stops until an event is taken or the ready list changes (05 R124). -/
def execSleep (rsv : BitVec 22) (s : State) : Host.Outcome State Fault Refusal :=
  s.issue fun s =>
    let w := sysWord 0x2F 8 rsv
    guardRsv (rsv == 0) w s (guardPriv w s (.done { s with core := { s.core with sleeping := true } }))

/-! ### The memory system's own happenings -/

/-- The buffered store at an index may leave: no earlier store overlaps it, and a release store is the oldest (03 R75). -/
def mayDrain (sb : List StoreEntry) (i : Nat) (e : StoreEntry) : Bool :=
  let earlier := sb.take i
  earlier.all (fun x => !overlaps x.pa x.size e.pa e.size && !(decide (x.ty = .device) && decide (e.ty = .device)))
    && (!e.release || i == 0)

/-- STORE_BUFFER_DRAIN: the store at the index leaves for the L1 data cache where the order of R75 lets it. -/
def execStoreBufferDrain (i : Nat) (s : State) : Host.Outcome State Fault Refusal :=
  answer s (match s.mem.sb[i]? with
    | none => s
    | some e =>
      if mayDrain s.mem.sb i e then
        let m := s.mem.performStore e
        { s with mem := { m with sb := s.mem.sb.eraseIdx i } }
      else s)

/-- A device load left to the background is answered (03 R77): its data goes to the level's bank, or poison is deferred to the level.
A RET so answered is complete, or, where its address is not a multiple of 4, leaves SP and defers cause 3 (02 R44, log 157); an element's
data waits for its string instruction. -/
def State.answerBackground (s : State) (d : DevLoad) (data : Word) (poison : Bool) : State :=
  let b := s.bankOf d.level
  let df := { s.core.deferred[d.level] with
    devOutst := s.core.devLoads.any (fun x => x.background && decide (x.level = d.level)) }
  let setDf (s : State) (df : Deferred) : State := { s with core := { s.core with deferred := s.core.deferred.set d.level df } }
  if poison then setDf (s.setBankOf d.level { b with eaddr := d.va }) { df with devPend := true }
  else
    match d.dest with
    | .reg rd size sx => setDf (s.setBankOf d.level (b.writeG rd (extendBytes data.toNat (sizeBytes size) sx))) df
    | .ret =>
      if data.toNat % 4 ≠ 0 then setDf s { df with retBad := some data }
      else
        let s := setDf (s.setBankOf d.level { b with sp := b.sp + 8, pc := data }) df
        { s with core := { s.core with instret := s.core.instret + 1 } }
    | .element =>
      setDf { s with core := { s.core with
        devData := { level := d.level, pc := b.pc, va := d.va, data := data, poison := false } :: s.core.devData } } df

/-- A device load of level `l` is answered (03 R77, 16 R353). In the foreground its instruction completes, or raises cause
25 on poison; in the background see above. -/
def State.answerDevice (s : State) (d : DevLoad) (data : Word) (poison : Bool) : State :=
  let s := { s with core := { s.core with devLoads := s.core.devLoads.erase d } }
  if d.background then s.answerBackground d data poison
  else
    match d.dest with
    | .element =>
      let pc := (s.bankOf d.level).pc
      { s with core := { s.core with
        devData := { level := d.level, pc := pc, va := d.va, data := data, poison := poison } :: s.core.devData } }
    | .reg rd size sx =>
      if poison then s.takeException (poisonExc d.va)
      else (IRes.done (s.writeG rd (extendBytes data.toNat (sizeBytes size) sx))).finish
    | .ret => if poison then s.takeException (poisonExc d.va) else (s.returnTo data).finish

/-- DEVICE_LOAD_RETURN: the data of the level's outstanding device load arrives (03 R77). -/
def execDeviceLoadReturn (level : BitVec 3) (data : BitVec 64) (poison : Bool) (s : State) :
    Host.Outcome State Fault Refusal :=
  answer s (match s.core.devLoads.find? (fun d => decide (d.level = levelOf level)) with
    | none => s
    | some d => s.answerDevice d data poison)

/-- A confirmed stream of tracker `i` goes on to its next line at `va` (03 R84): it stops at the 16 KB page; the line is dropped where no
TLB slot serves it, where it would fault or is not normal cached; else it is prefetched into the L2, and into the L1 data cache too where
PFCTL.L1 is set. -/
def State.streamOn (s : State) (i : Fin 32) (t : Tracker) (va : Word) : State :=
  let line := va.toNat / 64
  let onward (s : State) : State := { s with pf := s.pf.setTracker i { t with ahead := t.ahead + 1 } }
  let drop (s : State) : State := onward { s with pf := { s.pf with dropped := s.pf.dropped + 1 } }
  if pageOfLine line ≠ pageOfLine t.last then { s with pf := s.pf.freeTracker i }
  else if onCoreBase ≤ va.toNat then drop s
  else match s.lookTlb false va with
    | (s, none) => drop s
    | (s, some slot) =>
      let a : Access := { kind := .load, va := va, eaddr := va, priv := s.super }
      if !slot.serves a then drop s
      else match s.checkPhys a (slot.physical va) slot.mt.toNat with
        | .ok s (.phys pa .cached) =>
          let s := s.portRead 0 false .cached pa 64
          onward { s with pf := { s.pf with issued := s.pf.issued + 1, fetched := some (line, s.pf.l1) } }
        | _ => drop s

/-- STREAM_PREFETCH: an enabled tracker whose stream is confirmed goes on to the line of `va`, which is the next of its stream and no
more than PFCTL.DIST lines ahead of its last miss (03 R84). -/
def execStreamPrefetch (tracker : BitVec 5) (va : BitVec 64) (s : State) : Host.Outcome State Fault Refusal :=
  answer s
    (let i := regFin tracker
     if !s.pf.en || s.pf.trackers.toNat ≤ tracker.toNat then s
     else match s.pf.streams[i] with
       | none => s
       | some t => if t.target s.pf.dist.toNat = some ((va.toNat / 64 : Nat) : Int) then s.streamOn i t va else s)

end Sys2Proof.Machine
end

