-- ==== Sys2Proof/Machine/Sync.lean ====
section
/-! DEFINITION. Sync objects: the operations of an object, POST, WAIT, TRYWAIT, READ and ARM, remote posts, parking and
waking, the wake queue, and record writes (13 R277 to R288). -/

namespace Sys2Proof.Machine

/-! ### Records -/

/-- The record of an object (R278). -/
def State.obj (s : State) (n : BitVec 13) : SyncObj := smGet SyncObj.zero n.toNat s.sy.objs

/-- Replace a record. -/
def State.setObj (s : State) (n : BitVec 13) (o : SyncObj) : State :=
  { s with sy := { s.sy with objs := smSet SyncObj.zero n.toNat o s.sy.objs } }

/-- GEN of a barrier, HEAD of a queue. -/
def SyncObj.hi (o : SyncObj) : Nat := o.count.toNat / 2 ^ 32

/-- ARRIVED of a barrier, QLEN of a queue. -/
def SyncObj.lo (o : SyncObj) : Nat := o.count.toNat % 2 ^ 32

/-- COUNT from its halves; each wraps (R280). -/
def SyncObj.withHalves (o : SyncObj) (hi lo : Nat) : SyncObj := { o with count := wd (hi % 2 ^ 32 * 2 ^ 32 + lo % 2 ^ 32) }

/-- The queue has a ring: LOG2LEN is 3 to 16 (R280). -/
def SyncObj.hasRing (o : SyncObj) : Bool := decide (3 ≤ o.log2len.toNat) && decide (o.log2len.toNat ≤ 16)

/-- The address of the ring entry of a sequence number (Table 13.2). -/
def SyncObj.entryAddr (o : SyncObj) (seq : Nat) : Nat := o.ringpa.toNat * 4096 + 8 * (seq % 2 ^ o.log2len.toNat)

/-- Ready, as tested at the moment of the operation (R280, Table 13.2). -/
def SyncObj.ready (o : SyncObj) : Bool :=
  match o.mode.toNat with
  | 1 => o.target != 0 && decide (o.target.toNat ≤ o.count.toNat)
  | 2 => o.target != 0 && decide (o.target.toNat ≤ (o.lo + 1) % 2 ^ 32)
  | _ => false

/-- The generation step of a barrier (Table 13.2). -/
def SyncObj.genStep (o : SyncObj) : SyncObj :=
  let t := o.target.toNat
  if t = 0 ∨ o.lo < t then o else o.withHalves (o.hi + o.lo / t) (o.lo % t)

/-- `v` arrivals at a barrier (Table 13.2). -/
def SyncObj.arrive (o : SyncObj) (v : Nat) : SyncObj := (o.withHalves o.hi (o.lo + v)).genStep

/-- A WAIT, or a TRYWAIT that succeeds (Table 13.2). -/
def SyncObj.takeOne (o : SyncObj) : SyncObj :=
  if o.mode = 1 then { o with count := o.count - o.target.setWidth 64 } else o.arrive 1

/-! ### Drops and wakes -/

/-- A dropped post: DROPS, and SOERR where none is captured (R288). -/
def State.dropPost (s : State) (reason : Nat) (src : BitVec 24) (n : BitVec 13) : State :=
  let y := { s.sy with drops := s.sy.drops + 1 }
  { s with sy :=
      if y.errValid then y
      else { y with errValid := true, errSeq := y.errSeq + 1, errReason := BitVec.ofNat 4 reason, errSrc := src, errObj := n } }

/-- A push into the wake queue: EV42, and WQOVF where it is full; PD_CORE wakes (R284, 17 R389). -/
def State.pushWake (s : State) (n : BitVec 13) : State :=
  let s := if 64 ≤ s.sy.wakeq.length then { s with sy := { s.sy with wqovf := true } }
           else { s with sy := { s.sy with wakeq := s.sy.wakeq ++ [n] } }
  (s.setEvent 42).wakeCore

/-- A POST to the object would write a queue entry into a scratch step that waits for its zero-fill (03 R82). -/
def State.postWaits (s : State) (n : BitVec 13) : Bool :=
  let o := s.obj n
  decide (o.mode = 3) && s.waitsForFill (o.entryAddr (o.hi + o.lo))

/-- A POST is performed on a local object whose checks have passed (R280): its effect, then the wake of WAKE = 1. -/
def State.postObj (s : State) (n : BitVec 13) (v : Word) (src : BitVec 24) : State :=
  let o := s.obj n
  let s : State := match o.mode.toNat with
    | 1 => s.setObj n { o with count := wd (Nat.min (o.count.toNat + v.toNat) (2 ^ 64 - 1)) }
    | 2 => s.setObj n (o.arrive v.toNat)
    | 3 =>
      if o.hasRing && decide (o.lo < 2 ^ o.log2len.toNat) then
        let a := o.entryAddr (o.hi + o.lo)
        let s := if s.unbacked a then s.noteUnbacked a else { s with mem := s.mem.engineNat a v.toNat 8 }
        s.setObj n (o.withHalves o.hi (o.lo + 1))
      else s.dropPost 8 src n
    | _ => s
  if o.wake = 1 ∧ (s.obj n).ready then s.pushWake n else s

/-! ### Checks (R281, Table 13.3) -/

/-- Why an operation is refused. -/
inductive SoFail where
  /-- Cause 21 with this reason. -/
  | reason (n : Nat)
  /-- The record is poisoned (Table 13.10). -/
  | poison
  deriving DecidableEq, Repr

/-- The object's number and node in a name, and its bits that must be zero (R277). -/
def nameObj (name : Word) : BitVec 13 := name.setWidth 13
/-- The node of a name. -/
def nameNode (name : Word) : BitVec 24 := name.extractLsb' 13 24
/-- Bits [63:37] of a name are zero. -/
def nameOk (name : Word) : Bool := name.toNat / 2 ^ 37 == 0

/-- The checks of a local object: poison, MODE = 0, USER; the first that applies (Table 13.3, Table 13.10, log 42). -/
def State.checkObj (s : State) (n : BitVec 13) (priv : Bool) : Option SoFail :=
  let o := s.obj n
  if o.pois then some .poison
  else if o.mode = 0 then some (.reason 6)
  else if !priv && !o.user then some (.reason 5)
  else none

/-- The checks of WAIT, TRYWAIT, READ and ARM up to the mode (Table 13.3); `queueOk` where the queue mode permits it. -/
def State.checkLocalOp (s : State) (name : Word) (priv queueOk : Bool) : Option SoFail :=
  if !nameOk name then some (.reason 6)
  else if nameNode name ≠ s.straps.nodeId then some (.reason 4)
  else match s.checkObj (nameObj name) priv with
    | some f => some f
    | none => if (s.obj (nameObj name)).mode = 3 && !queueOk then some (.reason 3) else none

/-- The exception of a refused operation: cause 21 with its reason, or cause 25 (Table 13.3, Table 13.10). -/
def SoFail.exc (f : SoFail) (name : Word) : Exc :=
  match f with
  | .reason n => { cause := 21, eaddr := name, einfo := wd n }
  | .poison => { cause := 25, eaddr := name }

/-! ### The instructions -/

/-- An acquire: ordered after an earlier release store (03 R69, R72). -/
def State.acquire (s : State) : State := { s with mem := s.mem.acquire }

/-- The instruction word of a sync instruction: func[3:0] and the reserved bits above it. -/
def syncWord (rd ra rb : RegIx) (func rsv : Nat) : Word := encR 0x2F rd ra rb (rsv * 16 + func)

/-- A POST packet to a remote object (R285, Table 13.4). -/
def State.postPacket (s : State) (name v : Word) (priv : Bool) : State :=
  let w0 := wd (2 ^ 60 + bit priv * 2 ^ 56 + name.toNat % 2 ^ 37)
  s.sendPacket 5 { s.packetTo (nameNode name) with inl := inlineOf [w0, v, wd s.straps.nodeId.toNat, 0] }

/-- A POST from this core (R281, R282, R285). -/
def State.post (s : State) (name v : Word) (priv : Bool) : Except SoFail State :=
  if !nameOk name then .error (.reason 6)
  else if nameNode name ≠ s.straps.nodeId then .ok (s.postPacket name v priv)
  else match s.checkObj (nameObj name) priv with
    | some f => .error f
    | none => .ok (s.postObj (nameObj name) v s.straps.nodeId)

/-- A post by the tram engine or the journal channel: a refused one is dropped into SOERR as a remote one is (R279, R288,
log 43). -/
def State.enginePost (s : State) (name v : Word) : State :=
  match s.post name v true with
  | .ok s => s
  | .error (.reason r) => s.dropPost r s.straps.nodeId (nameObj name)
  | .error .poison => s.dropPost 9 s.straps.nodeId (nameObj name)

/-- POST: after every earlier scalar and tile access has been performed (R282, 03 R72). -/
def execPost (ra rb : RegIx) (rsv : BitVec 12) (s : State) : Host.Outcome State Fault Refusal :=
  s.issue fun s =>
    guardRsv (rsv == 0) (syncWord (BitVec.ofNat 5 (rsv.toNat / 128)) ra rb 0 (rsv.toNat % 128)) s
      (s.drainStores.afterTile fun s =>
       let name := s.readG ra
       match s.post name (s.readG rb) s.super with
       | .ok t => if nameNode name = s.straps.nodeId ∧ s.postWaits (nameObj name) = true then .wait s else .done t
       | .error f => .exc s (f.exc name))

/-- The park of the level-0 task on an object (R283): a barrier waiter arrives, the entry joins the parked list, and the
banksman takes the next task. A TSB fault escalates and changes nothing else (05 R124). -/
def State.parkOn (s : State) (name : Word) : IRes :=
  let n := nameObj name
  let o := s.obj n
  let o' := if o.mode = 2 then o.arrive 1 else o
  let p : Parked := { tsb := s.bm.tsbp[0], obj := n, gen := if o.mode = 2 then BitVec.ofNat 32 o'.hi else 0 }
  let t := (s.acquire.setObj n o').advancePc
  let t := { t with sy := { t.sy with parked := t.sy.parked ++ [p] },
                    core := { t.core with instret := t.core.instret + 1, eretShadow := false } }
  match t.parkTask name.toNat with
  | .error f => .moved (s.escalateTsb f)
  | .ok t => .moved t

/-- WAIT (R280, R281, R283): an acquire where it succeeds (03 R72). -/
def execWait (ra : RegIx) (rsv : BitVec 17) (s : State) : Host.Outcome State Fault Refusal :=
  s.issue fun s =>
    guardRsv (rsv == 0) (encJ 0x2F (rsv.toNat / 2 ^ 12 * 2 ^ 21 + ra.toNat * 2 ^ 16 + rsv.toNat % 2 ^ 12 * 16 + 1)) s
      (let name := s.readG ra
       match s.checkLocalOp name s.super false with
       | some f => .exc s (f.exc name)
       | none =>
         let o := s.obj (nameObj name)
         if o.ready then .done ((s.setObj (nameObj name) o.takeOne).acquire)
         else if s.lvl ≠ 0 then .exc s ((SoFail.reason 1).exc name)
         else if s.bm.tsbp[0] = 0 then .exc s ((SoFail.reason 7).exc name)
         else if 64 ≤ s.sy.parked.length then .exc s ((SoFail.reason 2).exc name)
         else if s.levelZeroPinned then .wait s
         else s.parkOn name)

/-- TRYWAIT (R280): an acquire where it succeeds (03 R72). -/
def execTrywait (rd ra : RegIx) (rsv : BitVec 12) (s : State) : Host.Outcome State Fault Refusal :=
  s.issue fun s =>
    guardRsv (rsv == 0) (syncWord rd ra (BitVec.ofNat 5 (rsv.toNat / 128)) 2 (rsv.toNat % 128)) s
      (let name := s.readG ra
       match s.checkLocalOp name s.super false with
       | some f => .exc s (f.exc name)
       | none =>
         let o := s.obj (nameObj name)
         if o.ready then .done (((s.setObj (nameObj name) o.takeOne).acquire).writeG rd 1) else .done (s.writeG rd 0))

/-- READ (R280). -/
def execRead (rd ra : RegIx) (rsv : BitVec 12) (s : State) : Host.Outcome State Fault Refusal :=
  s.issue fun s =>
    guardRsv (rsv == 0) (syncWord rd ra (BitVec.ofNat 5 (rsv.toNat / 128)) 3 (rsv.toNat % 128)) s
      (let name := s.readG ra
       match s.checkLocalOp name s.super true with
       | some f => .exc s (f.exc name)
       | none => .done (s.writeG rd (s.obj (nameObj name)).count))

/-- ARM: TARGET, and in barrier mode the generation step in the same operation (R280). -/
def SyncObj.arm (o : SyncObj) (t : BitVec 32) : SyncObj :=
  let o := { o with target := t }
  if o.mode = 2 then o.genStep else o

/-- ARM (R280). -/
def execArm (ra rb : RegIx) (rsv : BitVec 12) (s : State) : Host.Outcome State Fault Refusal :=
  s.issue fun s =>
    guardRsv (rsv == 0) (syncWord (BitVec.ofNat 5 (rsv.toNat / 128)) ra rb 4 (rsv.toNat % 128)) s
      (let name := s.readG ra
       match s.checkLocalOp name s.super false with
       | some f => .exc s (f.exc name)
       | none => .done (s.setObj (nameObj name) ((s.obj (nameObj name)).arm ((s.readG rb).setWidth 32))))

/-! ### Remote posts (R285 to R288) -/

/-- A data or control packet reaches this port only where it names this node; the payload of Table 13.4 is word 0 to 3. -/
def execRemotePost (p : Packet) (s : State) : Host.Outcome State Fault Refusal :=
  answer s (s.received fun s =>
    (let w0 := packetWord p 0
     let name := wd (w0.toNat % 2 ^ 37)
     let src : BitVec 24 := (packetWord p 2).setWidth 24
     let n := nameObj name
     if w0.toNat / 2 ^ 60 ≠ 1 then s
     else if nameNode name ≠ s.straps.nodeId then s.dropPost 4 src n
     else match s.checkObj n (w0.getLsbD 56) with
       | some .poison => s.dropPost 9 src n
       | some (.reason r) => s.dropPost r src n
       | none => if s.postWaits n then s else s.postObj n (packetWord p 1) src))

/-! ### Parked waiters (R283) -/

/-- A parked entry may be taken now: its counter is ready, or its barrier has left the generation recorded. -/
def State.mayTake (s : State) (p : Parked) : Bool :=
  let o := s.obj p.obj
  !o.pois && (if o.mode = 1 then o.ready else o.mode == 2 && BitVec.ofNat 32 o.hi != p.gen)

/-- Take the oldest parked waiter that may be taken, while the ready list has a free entry. -/
def State.takeParked (s : State) : Option State :=
  if 64 ≤ s.bm.ready.length ∨ s.core.mode = .held then none
  else
    match s.sy.parked.find? s.mayTake with
    | none => none
    | some p =>
      let o := s.obj p.obj
      let s := if o.mode = 1 then s.setObj p.obj o.takeOne else s
      let s := { s with sy := { s.sy with parked := s.sy.parked.erase p } }
      let sub := s.mem.readNat (tsbAddr p.tsb + 0x150) 8 / 16
      some (s.addReady { tsb := p.tsb, subpri := BitVec.ofNat 4 sub, tilewait := false })

/-- Take waiters one at a time for as long as one may be taken; the list holds at most 64. -/
def State.takeAllParked (s : State) : Nat → State
  | 0 => s
  | n + 1 => match s.takeParked with
    | none => s
    | some s => s.takeAllParked n

/-- PARKED_WAITER_TAKE (R283). -/
def execParkedWaiterTake (s : State) : Host.Outcome State Fault Refusal := answer s (s.takeAllParked 64)

/-! ### Record writes and the wake queue -/

/-- A word of a record as SODATA shows it (Table 13.1). -/
def SyncObj.word (o : SyncObj) (i : Nat) : Word :=
  match i with
  | 0 => o.count
  | 1 => wd (o.target.toNat * 2 ^ 32 + bit o.pois * 256 + bit o.user * 128 + o.wake.toNat * 4 + o.mode.toNat)
  | 2 => wd (o.ringpa.toNat * 4096 + o.log2len.toNat)
  | _ => wd (o.dtab.toNat * 64)

/-- A write of a record word (Table 13.1): reserved codes leave WAKE and LOG2LEN, and word 1 clears POIS. -/
def SyncObj.setWord (o : SyncObj) (i : Nat) (v : Word) : SyncObj :=
  let n := v.toNat
  match i with
  | 0 => { o with count := v }
  | 1 => { o with target := BitVec.ofNat 32 (n / 2 ^ 32), pois := false, user := bitOf n 7,
                  wake := if bitOf n 3 then o.wake else BitVec.ofNat 2 (n / 4), mode := BitVec.ofNat 2 n }
  | 2 =>
    let l : BitVec 5 := BitVec.ofNat 5 n
    { o with ringpa := BitVec.ofNat 35 (n / 4096),
             log2len := if 3 ≤ l.toNat ∧ l.toNat ≤ 16 then l else o.log2len }
  | _ => { o with dtab := BitVec.ofNat 41 (n / 64) }

/-- A write of SODATA: one operation of the object, ignored while PK = 1 (R279, R301). -/
def State.writeSodata (s : State) (v : Word) : State :=
  if s.sy.selPk then s else s.setObj s.sy.selObj ((s.obj s.sy.selObj).setWord s.sy.selWord.toNat v)

/-- SODATA_WRITE (R279). -/
def execSodataWrite (value : BitVec 64) (s : State) : Host.Outcome State Fault Refusal := answer s (s.writeSodata value)

/-- Pop the head of the wake queue (R284). -/
def State.popWake (s : State) : State := { s with sy := { s.sy with wakeq := s.sy.wakeq.drop 1 } }

/-- SOWAKE_POP: 1 is written to SOWAKE.VALID (R284). -/
def execSowakePop (s : State) : Host.Outcome State Fault Refusal := answer s s.popWake

end Sys2Proof.Machine
end

