-- ==== Sys2Proof/Machine/Tram.lean ====
section
/-! DEFINITION. The tram engine: channels, descriptors, the operations of Table 13.8, completion (13 R292 to R299). -/

namespace Sys2Proof.Machine

/-! ### Channels and descriptors -/

/-- A channel number. -/
def tramOf (b : BitVec 5) : Fin 32 := ⟨b.toNat, b.isLt⟩

/-- Replace a channel. -/
def State.setChannel (s : State) (c : Fin 32) (x : Channel) : State := { s with tr := { s.tr with ch := s.tr.ch.set c x } }

/-- The field of a descriptor: byte offset, low bit and width (Table 13.7). -/
def descField (d : BitVec 512) (off lo w : Nat) : Nat := fieldOf d.toNat (8 * off + lo) w

/-- OP. -/
def descOp (d : BitVec 512) : Nat := descField d 0 0 4
/-- SRC. -/
def descSrc (d : BitVec 512) : Nat := descField d 8 0 64
/-- DST. -/
def descDst (d : BitVec 512) : Nat := descField d 0x10 0 64
/-- NODE. -/
def descNode (d : BitVec 512) : BitVec 24 := BitVec.ofNat 24 (descField d 0x18 32 24)
/-- LEN. -/
def descLen (d : BitVec 512) : Nat := descField d 0x18 0 32
/-- GLOG. -/
def descGlog (d : BitVec 512) : Nat := descField d 0 16 5

/-- The reduce that a descriptor names. -/
def descRed (d : BitVec 512) : RedOp :=
  { red := descField d 0 4 2, fmt := descField d 0 6 3, sr := descField d 0 9 1 == 1, seed := wd (descField d 0x30 0 64),
    base := wd (descField d 0x38 0 64) }

/-- The descriptor keeps to Table 13.7 and to the alignment rules of Table 13.8 (R295). -/
def descOk (d : BitVec 512) : Bool :=
  let op := descOp d
  let src := descSrc d
  let dst := descDst d
  let len := descLen d
  let g := 2 ^ descGlog d
  let al (x a : Nat) : Bool := decide (x % a = 0)
  descField d 0 21 43 == 0 && descField d 0 12 4 == 0 && descField d 0x18 56 8 == 0 && descField d 0x20 37 11 == 0
    && descField d 0x28 0 4 == 0 && len != 0 &&
  (match op with
   | 1 | 4 | 5 => true
   | 2 | 6 => decide ((descRed d).red < 2) && decide ((descRed d).fmt < 3) && al src 64 && al dst 64 && al len 64
   | 3 => decide (6 ≤ descGlog d) && decide (descGlog d ≤ 16) && al dst g && al len g
   | 7 => al src 64 && al dst 64 && len == 64
   | 8 => al src 4096 && al len 4096
   | _ => false)

/-! ### Descriptors that wait for a reply (R298) -/

/-- The channel whose oldest open descriptor waits for a tag, with what it waits for: offset and bytes. -/
def State.waiterOf (s : State) (tag : BitVec 12) : Option (Fin 32 × TramOpen × Nat × Nat) :=
  (List.finRange 32).findSome? (fun c => (s.tr.ch[c]).opens.findSome? (fun o =>
    (o.waits.find? (fun w => w.1 == tag)).map (fun w => (c, o, w.2.1, w.2.2))))

/-- Change the open descriptor that waits for a tag. -/
def changeWaiting (tag : BitVec 12) (f : TramOpen → TramOpen) : List TramOpen → List TramOpen
  | [] => []
  | o :: t => if o.waits.any (fun w => w.1 == tag) then f o :: t else o :: changeWaiting tag f t

/-- The wait for a tag ends, in channel `c`. -/
def State.endWait (s : State) (c : Fin 32) (tag : BitVec 12) (f : TramOpen → TramOpen) : State :=
  let x := s.tr.ch[c]
  s.setChannel c { x with opens := changeWaiting tag (fun o => { f o with waits := o.waits.filter (fun w => w.1 != tag) }) x.opens }

/-- The descriptor fails with a status where it has not failed before (R298). -/
def TramOpen.failed (o : TramOpen) (status bytes : Nat) : TramOpen :=
  if 2 ≤ o.status.toNat then o else { o with status := BitVec.ofNat 4 status, bytes := BitVec.ofNat 40 bytes }

/-- Poison has been carried: status 1 where the descriptor has not failed. -/
def TramOpen.poisoned (o : TramOpen) (p : Bool) : TramOpen := if p && o.status == 0 then { o with status := 1 } else o

/-! ### Addresses (R294) -/

/-- A translated tram address. -/
inductive TX where
  /-- The physical address and the memory type (03 R64). -/
  | ok (s : State) (pa : Nat) (ty : MemType)
  /-- The descriptor ends with this status. -/
  | fail (s : State) (status : Nat)
  /-- The access is held at stage 2, or its scratch step waits for its zero-fill: the channel waits. -/
  | hold (s : State)

/-- The check of the final physical address: a valid normal, non-secure region or scratch (R294, 04 R98). -/
def State.tramRegion (s : State) (pa : Nat) (mt : Nat) : Bool :=
  if inScratch pa then mt == 2 || mt == 4
  else mt != 3 && mt != 2 && (match s.region pa with | some r => !r.device && !r.secure | none => false)

/-- The final check of a physical address with its MT code: status 8 where it is refused, and the wait for a scratch step that a
reassignment has still to fill (03 R82). -/
def State.tramFinal (s : State) (pa mt : Nat) : TX :=
  if !s.tramRegion pa mt then .fail s 8
  else if s.waitsForFill pa then .hold s
  else .ok s pa (s.typeOf mt pa)

/-- Translation with the fields of S1ROOT's layout that `root` holds (04 Table 4.10). -/
def Xlat.withRoot (x : Xlat) (root : Nat) : Xlat :=
  { x with asid := BitVec.ofNat 16 (root / 2 ^ 48), s1root := BitVec.ofNat 33 (root / 2 ^ 14), levels := BitVec.ofNat 2 (root / 4)
           s1en := bitOf root 0 }

/-- Translation with the core's own root again. -/
def Xlat.withCore (x core : Xlat) : Xlat :=
  { x with asid := core.asid, s1root := core.s1root, levels := core.levels, s1en := core.s1en }

/-- Translate an address of a channel for a kind of access (R294): a PA as it stands, or a VA through the channel's own
stage-1 root and stage 2, by a TLB slot or a walk (04 R95), a stage-2 fault being held for this part of the descriptor. -/
def State.tramAddr (s : State) (c : Fin 32) (part : TramPart) (addr : Nat) (kind : AccKind) : TX :=
  let x := s.tr.ch[c]
  if x.pa then (if addr < 2 ^ 47 then s.tramFinal addr 4 else .fail s 8)
  else
    let back (t : State) : State := { t with xl := t.xl.withCore s.xl }
    let own : State := { s with xl := s.xl.withRoot x.root.toNat }
    let a : Access := { kind := kind, va := wd addr, eaddr := wd addr, priv := true }
    let walk (s : State) : TX :=
      match s.walkStages a with
      | .fault t _ => .fail (back t) 2
      | .restart t => .hold (back t)
      | .held t f => .hold ((back t).holdFault f a.va 2 false (.tram c.val part))
      | .ok t ia pa l1 l2 =>
        let mt := combineMt t.xl.s1en t.xl.s2en l1.mt l2.mt
        let slot := t.makeSlot a ia pa l1 l2 mt
        let t := if t.tramRegion pa mt then (t.insertShared slot).heatFill ia else t
        (back t).tramFinal pa mt
    if !own.vaSizeOk a.va then .fail s 2
    else
      match own.lookL2 a.va with
      | (t, none) => walk t
      | (t, some slot) => if slot.serves a then (back t).tramFinal (slot.physical a.va) slot.mt.toNat else walk t

/-! ### Moving bytes -/

/-- The state of an operation under way: bytes done and whether poison was carried. -/
structure Move where
  /-- The machine. -/
  s : State
  /-- Bytes completed. -/
  done : Nat
  /-- Poison was carried. -/
  poison : Bool

/-- How a unit of an operation ends. -/
inductive TramEnd where
  /-- All of its accesses are made. -/
  | done (m : Move)
  /-- It ended with a status. -/
  | fail (m : Move) (status : Nat)
  /-- It is held: what is done stays done, and it goes on from there. -/
  | hold (m : Move)

/-- Read `n` bytes of one granule as an agent coherent with the core (03 R66): value and poison; scratch beyond the backed
steps reads zero and is noted (03 R81). -/
def State.tramRead (s : State) (ty : MemType) (pa n : Nat) : State × Nat × Bool :=
  if s.unbacked pa then (s.noteUnbacked pa, 0, false)
  else
    let s := s.portRead 4 false ty pa n
    (s, s.mem.readTy ty pa n, s.mem.poisonedTy ty pa)

/-- Write `n` bytes within one granule; a whole granule is written by one operation, poisoned or clean (16 R354). -/
def State.tramWrite (s : State) (ty : MemType) (pa n v : Nat) (p : Bool) : State :=
  if s.unbacked pa then s.noteUnbacked pa
  else if n = 64 ∧ pa % 64 = 0 then s.putGranule 4 ty pa (BitVec.ofNat 512 v) p
  else s.putPart 4 ty pa n v p

/-- Read `n` bytes, at most 64, at an address of the channel; the two granules they may span are translated apart. -/
def State.fetchBytes (s : State) (c : Fin 32) (addr n : Nat) : Except TramEnd (State × Nat × Bool) :=
  let k := Nat.min n (64 - addr % 64)
  match s.tramAddr c .data addr .load with
  | .hold s => .error (.hold { s := s, done := 0, poison := false })
  | .fail s st => .error (.fail { s := s, done := 0, poison := false } st)
  | .ok s pa ty =>
    let r := s.tramRead ty pa k
    if n ≤ k then .ok r
    else
      match r.1.tramAddr c .data (addr + k) .load with
      | .hold s => .error (.hold { s := s, done := 0, poison := false })
      | .fail s st => .error (.fail { s := s, done := 0, poison := false } st)
      | .ok s pa2 ty2 =>
        let q := s.tramRead ty2 pa2 (n - k)
        .ok (q.1, r.2.1 + 2 ^ (8 * k) * q.2.1, r.2.2 || q.2.2)

/-- The end of an operation with the bytes done before it. -/
def TramEnd.after (e : TramEnd) (m : Move) : TramEnd :=
  match e with
  | .fail x st => .fail { m with s := x.s } st
  | .hold x => .hold { m with s := x.s }
  | e => e

/-- The low `n` bytes of a value of `k` bytes repeated: what an ascending copy onto its own source `k` bytes on leaves. -/
def repeatBytes (v k n : Nat) : Nat :=
  if k = 0 then 0
  else ((List.range ((n + k - 1) / k)).foldl (fun acc i => acc + v * 2 ^ (8 * k * i)) 0) % 2 ^ (8 * n)

/-- One piece of a copy, within a destination granule, as if ascending: where the destination begins `k` bytes after the source within
the piece, those `k` bytes repeat (Table 13.8). Without `write` it reads only. -/
def State.movePiece (c : Fin 32) (src dst n : Nat) (write : Bool) (m : Move) : Except TramEnd Move :=
  let k := if src < dst ∧ dst - src < n then dst - src else n
  match m.s.fetchBytes c src k with
  | .error e => .error (e.after m)
  | .ok (s, v, p) =>
    if !write then .ok { s := s, done := m.done + n, poison := m.poison || p }
    else
      match s.tramAddr c .data dst .store with
      | .hold s => .error (.hold { m with s := s })
      | .fail s st => .error (.fail { m with s := s } st)
      | .ok s pa ty => .ok { s := s.tramWrite ty pa n (repeatBytes v k n) p, done := m.done + n, poison := m.poison || p }

/-- Copy `n` bytes in pieces. -/
def State.moveBytes (c : Fin 32) (src dst n : Nat) (write : Bool) : Nat → Move → TramEnd
  | 0, m => .done m
  | fuel + 1, m =>
    if n = 0 then .done m
    else
      let k := Nat.min n (64 - dst % 64)
      match State.movePiece c src dst k write m with
      | .error e => e
      | .ok m => State.moveBytes c (src + k) (dst + k) (n - k) write fuel m

/-- Bytes from `done` to the end of its 4 KB unit of an operation of `len` bytes (R292). -/
def unitLeft (done len : Nat) : Nat := Nat.min (4096 - done % 4096) (len - done)

/-- A unit of COPY; DST = 0 with TRCFG.PA = 0 fills the tile-store cache from SRC and writes nothing (Table 13.8). -/
def State.tramCopy (c : Fin 32) (d : BitVec 512) (m : Move) : TramEnd :=
  let n := unitLeft m.done (descLen d)
  let write := !(descDst d == 0 && !m.s.tr.ch[c].pa)
  State.moveBytes c (descSrc d + m.done) (descDst d + m.done) n write n m

/-- One granule of a reduce: read both, combine, write the destination (R296, R299). -/
def State.reduceGranule (c : Fin 32) (o : RedOp) (src dst : Nat) (m : Move) : Except TramEnd Move :=
  match m.s.fetchBytes c src 64 with
  | .error e => .error (e.after m)
  | .ok (s, v, p) =>
    match s.tramAddr c .data dst .atomic with
    | .hold s => .error (.hold { m with s := s })
    | .fail s st => .error (.fail { m with s := s } st)
    | .ok s pa ty =>
      let r := s.tramRead ty pa 64
      let w := reduceBytes o dst r.2.1 v (64 / redSize o.fmt)
      .ok { s := r.1.tramWrite ty pa 64 w (p || r.2.2), done := m.done + 64, poison := m.poison || p || r.2.2 }

/-- Granules of COPY_REDUCE (Table 13.8, R296). -/
def State.tramReduce (c : Fin 32) (o : RedOp) (src dst : Nat) : Nat → Move → TramEnd
  | 0, m => .done m
  | n + 1, m =>
    match State.reduceGranule c o src dst m with
    | .error e => e
    | .ok m => State.tramReduce c o (src + 64) (dst + 64) n m

/-- Every listed address of a GATHER is aligned to its block: otherwise it ends with status 6 before any block is copied (R295). -/
def State.gatherAligned (c : Fin 32) (g list : Nat) : Nat → Move → Except TramEnd Move
  | 0, m => .ok m
  | n + 1, m =>
    match m.s.fetchBytes c list 8 with
    | .error e => .error (e.after m)
    | .ok (s, a, _) =>
      if a % g ≠ 0 then .error (.fail { m with s := s } 6) else State.gatherAligned c g (list + 8) n { m with s := s }

/-- GATHER, `n` bytes from where it stands: the listed blocks are copied in list order (Table 13.8). -/
def State.tramGather (c : Fin 32) (g list dst n : Nat) : Nat → Move → TramEnd
  | 0, m => .done m
  | fuel + 1, m =>
    if n = 0 then .done m
    else
      let i := m.done / g
      let k := m.done % g
      match m.s.fetchBytes c (list + 8 * i) 8 with
      | .error e => e.after m
      | .ok (s, a, p) =>
        if a % g ≠ 0 then .fail { m with s := s } 6
        else
          let x := Nat.min n (g - k)
          match State.moveBytes c (a + k) (dst + m.done) x true x { s := s, done := m.done, poison := m.poison || p } with
          | .done m => State.tramGather c g list dst (n - x) fuel m
          | e => e

/-- Read one block of 4,096 bytes for a digest. -/
def State.readBlock (c : Fin 32) (addr : Nat) : Nat → Move → Nat → Except TramEnd (Move × Nat)
  | 0, m, acc => .ok (m, acc)
  | n + 1, m, acc =>
    match m.s.fetchBytes c addr 64 with
    | .error e => .error (e.after m)
    | .ok (s, v, p) =>
      State.readBlock c (addr + 64) n { s := s, done := m.done + 64, poison := m.poison || p }
        (acc + v * 2 ^ (512 * (64 - (n + 1))))

/-- A block of DIGEST: the sum of the CRC-64 of each block with the address that names it (10 R244). -/
def State.tramDigest (c : Fin 32) (addr : Nat) (m : Move) (acc : Nat) : TramEnd × Word :=
  match State.readBlock c addr 64 m 0 with
  | .error e => (e.after m, wd acc)
  | .ok (m, block) => (.done m, wd (acc + crc64 (block + addr % 2 ^ 64 * 2 ^ (8 * 4096)) 4104))

/-- A 64-byte write to the log tier by one write: memory, not the caches, holds it (R295, 10 R241). -/
def State.logWrite (s : State) (pa : Nat) (data : BitVec 512) (p : Bool) : State :=
  let m := (s.mem.dropLine (pa / 64)).portWrite 4 pa 64 data.toNat
  let s := if p then s.tallyInc 0x31 else s
  { s with mem := m.setBackPoison (pa / 64) p }

/-- The address lies in a valid normal region with TIER = LOG. -/
def State.inLog (s : State) (pa : Nat) : Bool :=
  !inScratch pa && (match s.region pa with | some r => !r.device && !r.secure && r.tier == 2 | none => false)

/-- JOURNAL_APPEND: one 64-byte write into a LOG region, else status 8 (Table 13.8). -/
def State.tramAppend (s : State) (c : Fin 32) (d : BitVec 512) : TramEnd :=
  let m : Move := { s := s, done := 0, poison := false }
  match s.fetchBytes c (descSrc d) 64 with
  | .error e => e.after m
  | .ok (s, v, p) =>
    match s.tramAddr c .data (descDst d) .store with
    | .hold s => .hold { m with s := s }
    | .fail s st => .fail { m with s := s } st
    | .ok s pa _ =>
      if s.inLog pa then .done { s := s.logWrite pa (BitVec.ofNat 512 v) p, done := 64, poison := p }
      else .fail { m with s := s } 8

/-! ### Remote operations (R294, 17 R383) -/

/-- A tag for one remote packet. -/
def State.takeTag (s : State) : State × BitVec 12 :=
  ({ s with tr := { s.tr with nextTag := s.tr.nextTag + 1 } }, s.tr.nextTag)

/-- A packet that a descriptor sends: remote address of its first byte, offset of its first byte, bytes. At most 4,096
bytes of whole granules. -/
def remotePieces (addr off n : Nat) : Nat → List (Nat × Nat × Nat)
  | 0 => []
  | fuel + 1 =>
    if n = 0 then []
    else
      let k := Nat.min n (4096 - addr % 64)
      (addr, off, k) :: remotePieces (addr + k) (off + k) (n - k) fuel

/-- The whole granules of a piece. -/
def pieceGranules (addr k : Nat) : Nat := (addr % 64 + k + 63) / 64

/-- The packets of a piece list and their waits, each with its tag. -/
structure Sending where
  /-- The machine. -/
  s : State
  /-- Packets, oldest first. -/
  out : List (BitVec 4 × Packet)
  /-- The replies awaited. -/
  waits : List (BitVec 12 × Nat × Nat)
  /-- Bytes sent. -/
  done : Nat
  /-- Poison was carried. -/
  poison : Bool

/-- READ packets (Table 13.8 REMOTE_READ). -/
def State.sendReads (node : BitVec 24) : List (Nat × Nat × Nat) → Sending → Sending
  | [], x => x
  | (addr, off, k) :: t, x =>
    let y := x.s.takeTag
    let p := { y.1.packetTo node with tag := y.2, addr := BitVec.ofNat 47 (addr / 64 * 64),
                                      len := BitVec.ofNat 13 (64 * pieceGranules addr k) }
    State.sendReads node t { x with s := y.1, out := x.out ++ [(1, p)], waits := x.waits ++ [(y.2, off, k)] }

/-- Read the local bytes of a piece, 64 at a time, with the poison of each destination granule. -/
def State.gatherPiece (c : Fin 32) (src remote : Nat) (k : Nat) : Nat → Move → Nat → Nat → Nat → Except TramEnd (Move × Nat × Nat)
  | 0, m, _, data, pois => .ok (m, data, pois)
  | fuel + 1, m, off, data, pois =>
    if k ≤ off then .ok (m, data, pois)
    else
      let n := Nat.min (k - off) (64 - (remote + off) % 64)
      match m.s.fetchBytes c (src + off) n with
      | .error e => .error (e.after m)
      | .ok (s, v, p) =>
        let at' := remote % 64 + off
        State.gatherPiece c src remote k fuel { s := s, done := m.done + n, poison := m.poison || p } (off + n)
          (data + v * 2 ^ (8 * at')) (if p then pois + 2 ^ (at' / 64) else pois)

/-- Cut a value into granules. -/
def granules (v : Nat) : Nat → List (BitVec 512)
  | 0 => []
  | n + 1 => BitVec.ofNat 512 v :: granules (v / 2 ^ 512) n

/-- WRITE or REDUCE packets of a descriptor; the local reads end at the first failure (Table 13.8). -/
def State.sendWrites (c : Fin 32) (d : BitVec 512) (type : BitVec 4) : List (Nat × Nat × Nat) → Sending → Sending × Option TramEnd
  | [], x => (x, none)
  | (addr, off, k) :: t, x =>
    let n := pieceGranules addr k
    match State.gatherPiece c (descSrc d + off) addr k (k + 1) { s := x.s, done := x.done, poison := x.poison } 0 0 0 with
    | .error e => (x, some e)
    | .ok (m, data, pois) =>
      let y := m.s.takeTag
      let o := descRed d
      let p := { y.1.packetTo (descNode d) with
        tag := y.2, addr := BitVec.ofNat 47 (addr / 64 * 64), len := BitVec.ofNat 13 (64 * n),
        head := BitVec.ofNat 6 (addr % 64), tail := BitVec.ofNat 6 ((64 * n - (addr % 64 + k)) % 64),
        pois := wd pois, data := granules data n,
        sr := type == 8 && o.sr, red := if type = 8 then BitVec.ofNat 2 o.red else 0,
        fmt := if type = 8 then BitVec.ofNat 3 o.fmt else 0,
        inl := if type = 8 then inlineOf [o.seed, o.base] else 0 }
      State.sendWrites c d type t
        { s := y.1, out := x.out ++ [(type, p)], waits := x.waits ++ [(y.2, off, k)], done := m.done, poison := m.poison }

/-- Touch every page that a remote read will write, so that a held fault stops it before anything is sent (log 47). -/
def State.touchPages (c : Fin 32) : List Nat → State → Option TramEnd × State
  | [], s => (none, s)
  | a :: t, s =>
    match s.tramAddr c .data a .store with
    | .hold s => (some (.hold { s := s, done := 0, poison := false }), s)
    | .fail s st => (some (.fail { s := s, done := 0, poison := false } st), s)
    | .ok s _ _ => State.touchPages c t s

/-- The addresses of the pages of a range. -/
def pagesOf (a n : Nat) : List Nat :=
  a :: (List.range ((a % 16384 + n - 1) / 16384)).map (fun i => (a / 16384 + i + 1) * 16384)

/-! ### Performing a descriptor -/

/-- Replace the first descriptor that has not made its accesses. -/
def setOldest (f : TramOpen → TramOpen) : List TramOpen → List TramOpen
  | [] => []
  | o :: t => if o.issued then o :: setOldest f t else f o :: t

/-- Note how the oldest unissued descriptor of a channel ended its accesses; a failure that it has had stands. -/
def State.noteIssued (s : State) (c : Fin 32) (status bytes : Nat) (result : Word) (waits : List (BitVec 12 × Nat × Nat)) :
    State :=
  let x := s.tr.ch[c]
  s.setChannel c { x with opens := setOldest (fun o =>
    { o.failed status bytes with issued := true, ending := false, result := result, waits := waits }) x.opens }

/-- Note what the oldest unissued descriptor of a channel has done, so that it goes on from there. -/
def State.noteProgress (s : State) (c : Fin 32) (bytes : Nat) (poison : Bool) (result : Word)
    (waits : List (BitVec 12 × Nat × Nat)) : State :=
  let x := s.tr.ch[c]
  s.setChannel c { x with opens := setOldest (fun o =>
    { o.failed (bit poison) bytes with result := result, waits := waits }) x.opens }

/-- What a unit of a descriptor leaves: it is held, it has failed (Table 13.9), it has made its last access, it ends with status 7
because TRCFG.EN was cleared within the unit (R299), or its next unit is to come. -/
def TramEnd.note (e : TramEnd) (c : Fin 32) (o : TramOpen) (result : Word) (waits : List (BitVec 12 × Nat × Nat)) : State :=
  match e with
  | .hold m => m.s.noteProgress c m.done m.poison o.result waits
  | .fail m st => m.s.noteIssued c st m.done 0 waits
  | .done m =>
    if descLen o.desc ≤ m.done then m.s.noteIssued c (bit m.poison) m.done result waits
    else if o.ending && m.done % 4096 == 0 then m.s.noteIssued c 7 m.done 0 waits
    else m.s.noteProgress c m.done m.poison result waits

/-- The oldest open descriptor of a channel with accesses to make, where the channel may make them: TRCFG.EN, or a unit to end (R299). -/
def Channel.current (x : Channel) : Option TramOpen := (x.opens.find? (fun o => !o.issued)).filter (fun o => x.en || o.ending)

/-- A held stage-2 fault keeps the channel's accesses waiting (R294, R300). -/
def State.channelHeld (s : State) (c : Fin 32) : Bool :=
  s.xl.held.toList.any (fun r => r.valid && r.waiters.contains (.tram c.val .data))

/-- The channel whose unit comes next, round-robin among the channels with accesses to make (R292). -/
def State.tramTurn (s : State) : Option (Fin 32) :=
  ((List.range 32).map (fun i => Fin.ofNat 32 (s.tr.served.val + 1 + i))).find? (fun c =>
    (s.tr.ch[c]).current.isSome && !s.channelHeld c)

/-- A unit of the current descriptor of a channel, where it has this OP and it is the channel's turn (R292). -/
def State.tramOp (s : State) (c : Fin 32) (op : Nat) (f : State → TramOpen → State) : State :=
  match (s.tr.ch[c]).current with
  | some o => if descOp o.desc = op ∧ s.tramTurn = some c then f { s with tr := { s.tr with served := c } } o else s
  | none => s

/-- An operation at its start, or where it stands. -/
def TramOpen.move (o : TramOpen) (s : State) : Move := { s := s, done := o.bytes.toNat, poison := decide (o.status = 1) }

/-- COPY: its next unit. -/
def execCopy (channel : BitVec 5) (s : State) : Host.Outcome State Fault Refusal :=
  answer s (let c := tramOf channel; s.tramOp c 1 fun s o => (State.tramCopy c o.desc (o.move s)).note c o 0 o.waits)

/-- COPY_REDUCE: its next unit. -/
def execCopyReduce (channel : BitVec 5) (s : State) : Host.Outcome State Fault Refusal :=
  answer s (let c := tramOf channel; s.tramOp c 2 fun s o =>
    let d := o.desc
    let n := o.bytes.toNat
    (State.tramReduce c (descRed d) (descSrc d + n) (descDst d + n) (unitLeft n (descLen d) / 64) (o.move s)).note c o 0 o.waits)

/-- GATHER: its next unit; before its first the listed addresses are checked (R295). -/
def execGather (channel : BitVec 5) (s : State) : Host.Outcome State Fault Refusal :=
  answer s (let c := tramOf channel; s.tramOp c 3 fun s o =>
    let d := o.desc
    let g := 2 ^ descGlog d
    let n := o.bytes.toNat
    match (if n = 0 then State.gatherAligned c g (descSrc d) (descLen d / g) (o.move s) else .ok (o.move s)) with
    | .error e => e.note c o 0 o.waits
    | .ok m =>
      let k := unitLeft n (descLen d)
      (State.tramGather c g (descSrc d) (descDst d) k k m).note c o 0 o.waits)

/-- REMOTE_READ: the READ packets of its next unit leave; the replies are awaited (17 R383). A destination page that is held stops it
before the unit is sent (log 47). -/
def execRemoteRead (channel : BitVec 5) (s : State) : Host.Outcome State Fault Refusal :=
  answer s (let c := tramOf channel; s.tramOp c 4 fun s o =>
    let d := o.desc
    let n := o.bytes.toNat
    let k := unitLeft n (descLen d)
    match State.touchPages c (pagesOf (descDst d + n) k) s with
    | (some e, _) => (e.after (o.move s)).note c o 0 o.waits
    | (none, s) =>
      let x := State.sendReads (descNode d) (remotePieces (descSrc d + n) n k k)
        { s := s, out := [], waits := o.waits, done := n, poison := false }
      (TramEnd.done { s := x.s.sendPackets x.out, done := n + k, poison := decide (o.status = 1) }).note c o 0 x.waits)

/-- The packets of the next unit of a remote write or reduce leave; the acknowledgements are awaited (17 R383). -/
def State.tramSend (s : State) (c : Fin 32) (o : TramOpen) (type : BitVec 4) : State :=
  let d := o.desc
  let n := o.bytes.toNat
  let k := unitLeft n (descLen d)
  match State.sendWrites c d type (remotePieces (descDst d + n) n k k)
      { s := s, out := [], waits := o.waits, done := n, poison := decide (o.status = 1) } with
  | (x, some (.hold m)) =>
    (TramEnd.hold { s := m.s.sendPackets x.out, done := x.done, poison := x.poison }).note c o 0 x.waits
  | (x, some (.fail m st)) => (TramEnd.fail { m with s := m.s.sendPackets x.out } st).note c o 0 x.waits
  | (x, _) => (TramEnd.done { s := x.s.sendPackets x.out, done := n + k, poison := x.poison }).note c o 0 x.waits

/-- REMOTE_WRITE: its next unit. -/
def execRemoteWrite (channel : BitVec 5) (s : State) : Host.Outcome State Fault Refusal :=
  answer s (let c := tramOf channel; s.tramOp c 5 fun s o => s.tramSend c o 3)

/-- REMOTE_REDUCE: its next unit. -/
def execRemoteReduce (channel : BitVec 5) (s : State) : Host.Outcome State Fault Refusal :=
  answer s (let c := tramOf channel; s.tramOp c 6 fun s o => s.tramSend c o 8)

/-- JOURNAL_APPEND. -/
def execJournalAppend (channel : BitVec 5) (s : State) : Host.Outcome State Fault Refusal :=
  answer s (let c := tramOf channel; s.tramOp c 7 fun s o => (s.tramAppend c o.desc).note c o 0 o.waits)

/-- DIGEST: its next block; with poison met, status 1, and its result stands (10 R244). -/
def execDigest (channel : BitVec 5) (s : State) : Host.Outcome State Fault Refusal :=
  answer s (let c := tramOf channel; s.tramOp c 8 fun s o =>
    let i := o.bytes.toNat / 4096
    let x := State.tramDigest c (descSrc o.desc + 4096 * i) (o.move s) o.result.toNat
    x.1.note c o x.2 o.waits)

/-! ### The ring (R292, R293) -/

/-- The ring of a channel has a length: LOG2LEN is 3 to 12. -/
def Channel.hasRing (x : Channel) : Bool := decide (3 ≤ x.log2len.toNat) && decide (x.log2len.toNat ≤ 12)

/-- The ring index of a position. -/
def Channel.index (x : Channel) (i : BitVec 12) : Nat := i.toNat % 2 ^ x.log2len.toNat

/-- Records wait for the journal channel, or it is to serve them (R293). -/
def State.journalWants (s : State) : Bool := s.jnl.en || !s.jnl.pend.isEmpty

/-- Channel 31 belongs to the journal: EN, or not yet handed back (R292, R293). -/
def State.journalHolds (s : State) : Bool := s.journalWants || s.jnl.jch

/-- JNLSTAT.JCH follows the hand-over of channel 31: to the journal once its ring is done and it is not halted, records that were
pending when EN was cleared among what it serves, back once nothing is pending (R293). -/
def State.settleJch (s : State) : State :=
  let x := s.tr.ch[31]
  if s.journalWants then
    (if x.index x.tail = x.index x.head ∧ x.opens = [] ∧ !x.halt then { s with jnl := { s.jnl with jch := true } } else s)
  else { s with jnl := { s.jnl with jch := false } }

/-- A write of TRHEADn, the doorbell; ignored on channel 31 while the journal holds it (R292, R293). -/
def State.writeTrhead (s : State) (c : Fin 32) (head : BitVec 12) : State :=
  if c = 31 ∧ s.journalHolds then s else s.setChannel c { s.tr.ch[c] with head := head }

/-- TRHEAD (R292). -/
def execTrhead (channel : BitVec 5) (head : BitVec 12) (s : State) : Host.Outcome State Fault Refusal :=
  answer s (s.writeTrhead (tramOf channel) head)

/-- DESCRIPTOR_START: the next descriptor in ring order, after every earlier one where it has FENCE; one that breaks its
layout ends with status 6 and performs no access (R292, R295). The ring itself must lie in a normal region (R294). -/
def execDescriptorStart (channel : BitVec 5) (s : State) : Host.Outcome State Fault Refusal :=
  answer s
    (let c := tramOf channel
     let x := s.tr.ch[c]
     if !x.en || x.halt || !x.hasRing || x.index x.tail == x.index x.head || (c == 31 && s.jnl.jch) then s
     else
       let pa := x.ring.toNat * 4096 + 64 * x.index x.tail
       let ok := s.tramRegion pa 4
       let d : BitVec 512 := if ok then BitVec.ofNat 512 (s.mem.readNat pa 64) else 0
       let s := if ok then s.portRead 4 false (s.typeOf 4 pa) pa 64 else s
       if ok && descField d 0 10 1 == 1 && !x.opens.isEmpty then s
       else
         let st : Nat := if !ok then 8 else if !descOk d then 6 else 0
         let o : TramOpen := { desc := d, issued := decide (st ≠ 0), ending := false, noRecord := false, waits := [], status := BitVec.ofNat 4 st, bytes := 0, result := 0 }
         s.setChannel c { x with tail := BitVec.ofNat 12 ((x.index x.tail + 1) % 2 ^ x.log2len.toNat), opens := x.opens ++ [o] })

/-- The completion record (Table 13.9). -/
def completionWord (done : BitVec 32) (o : TramOpen) : Word :=
  wd (2 ^ 63 + done.toNat % 2 ^ 16 * 2 ^ 47 + o.status.toNat * 2 ^ 43 + o.bytes.toNat)

/-- The completion record is written at CREC as one write (R298): `.fail` where CREC's address is refused, which is an error status of
the descriptor (R294), and `.hold` where it is held, so that the channel waits (R300). -/
def State.writeRecord (s : State) (c : Fin 32) (o : TramOpen) (done : BitVec 32) : TX :=
  let crec := descField o.desc 0x28 4 60 * 16
  if crec = 0 ∨ o.noRecord then .ok s 0 .cached
  else
    match s.tramAddr c .record crec .store with
    | .ok s pa ty => .ok (s.tramWrite ty pa 16 ((completionWord done o).toNat + o.result.toNat * 2 ^ 64) false) pa ty
    | r => r

/-- A descriptor has completed: DONE, HALT and LAST, its post and EV43 (R298, R299). -/
def State.completeDesc (s : State) (c : Fin 32) (o : TramOpen) (rest : List TramOpen) : State :=
  let bad := decide (2 ≤ o.status.toNat)
  let x := s.tr.ch[c]
  let s := s.setChannel c
    { x with done := x.done + 1, opens := rest, halt := x.halt || bad, last := if bad then o.status else x.last }
  let s := if descField o.desc 0x20 63 1 = 1 then
      s.enginePost (wd (descField o.desc 0x20 0 37)) (wd (descField o.desc 0x20 48 15)) else s
  let s := if descField o.desc 0 11 1 = 1 ∨ bad then s.setEvent 43 else s
  s.settleJch

/-- DESCRIPTOR_COMPLETE: the oldest open descriptor, once every access of it is performed: record, post, event; a status of 2
or above halts the channel (R298, R299). -/
def execDescriptorComplete (channel : BitVec 5) (s : State) : Host.Outcome State Fault Refusal :=
  answer s
    (let c := tramOf channel
     let x := s.tr.ch[c]
     match x.opens with
     | [] => s
     | o :: rest =>
       if !o.issued || !o.waits.isEmpty then s
       else
         let o := if 2 ≤ o.status.toNat then o else { o with bytes := BitVec.ofNat 40 (descLen o.desc) }
         match s.writeRecord c o (x.done + 1) with
         | .hold s => s
         | .fail s st => s.completeDesc c (o.failed st o.bytes.toNat) rest
         | .ok s _ _ => s.completeDesc c o rest)

/-- A write of TRSTAT for the channel of TRSEL: 1 to HALT resumes it (R299). -/
def State.writeTrstat (s : State) (v : Word) : State :=
  let c := tramOf s.tr.sel
  if v.getLsbD 31 then (s.setChannel c { s.tr.ch[c] with halt := false }).settleJch else s

/-- TRSTAT_WRITE. -/
def execTrstatWrite (value : BitVec 64) (s : State) : Host.Outcome State Fault Refusal := answer s (s.writeTrstat value)

/-- The accesses of a channel wait no longer on any held record. -/
def State.dropTramWaiter (s : State) (c : Fin 32) : State :=
  { s with xl := { s.xl with held := s.xl.held.map (fun r =>
      { r with waiters := r.waiters.filter (fun w => w != .tram c.val .data) }) } }

/-- TRCFG.EN is cleared: a descriptor with accesses to make ends with status 7, at once where it stands at the boundary of a 4 KB unit,
else when the unit under way ends (R299). -/
def TramOpen.abort (o : TramOpen) : TramOpen :=
  if o.issued then o
  else if o.bytes.toNat % 4096 = 0 then { o.failed 7 o.bytes.toNat with issued := true } else { o with ending := true }

/-- A write of TRCFG for the channel of TRSEL (R299). -/
def State.writeTrcfg (s : State) (v : Word) : State :=
  let c := tramOf s.tr.sel
  let x := s.tr.ch[c]
  let en := v.getLsbD 63
  let opens := if x.en && !en then x.opens.map TramOpen.abort else x.opens
  let s := if opens.any (fun o => !o.issued) then s else s.dropTramWaiter c
  s.setChannel c { x with en := en, pa := v.getLsbD 62, opens := opens }

/-- TRCFG_WRITE. -/
def execTrcfgWrite (value : BitVec 64) (s : State) : Host.Outcome State Fault Refusal := answer s (s.writeTrcfg value)

end Sys2Proof.Machine
end

