-- ==== Sys2Proof/Machine/Held.lean ====
section
/-! DEFINITION. Held stage-2 faults resolved (04 R101, R102), S2INV (04 R103), and the tile-store reassignment as commands
(03 R82). -/

namespace Sys2Proof.Machine

/-- The held part of a channel's descriptor ends with status 3: its accesses, its completion record, which is not written, or the reply
that it awaits (13 R294, R300). -/
def State.declineTram (s : State) (c : Fin 32) (part : TramPart) : State :=
  let x := s.tr.ch[c]
  match part with
  | .data => s.setChannel c { x with opens := setOldest (fun o => { o.failed 3 o.bytes.toNat with issued := true }) x.opens }
  | .record =>
    s.setChannel c { x with opens := match x.opens with
      | o :: t => { o.failed 3 o.bytes.toNat with noRecord := true } :: t
      | [] => [] }
  | .reply tag =>
    match s.waiterOf tag with
    | some (_, _, off, _) => s.endWait c tag (fun o => o.failed 3 off)
    | none => s

/-- The access that waited is refused: the core's instruction raises its exception, EINFO[14] telling a hold limit (04 R101,
Table 4.4); a tram descriptor ends with status 3. -/
def State.declineWaiter (timeout : Bool) (s : State) : HeldWaiter → State
  | .core cause eaddr einfo =>
    if s.core.mode = .frozen ∨ s.core.mode = .held then s
    else s.takeException { cause := cause, eaddr := eaddr, einfo := if timeout then einfo ||| 0x4000 else einfo }
  | .tram c part => if h : c < 32 then s.declineTram ⟨c, h⟩ part else s

/-- Release a record; the accesses that waited walk again when they are next attempted (R101, log 7). -/
def State.releaseHeld (s : State) (i : Fin 4) : State :=
  { s with xl := { s.xl with held := s.xl.held.set i { s.xl.held[i] with valid := false, waiters := [] } } }

/-- RETRY of a record (R101, R102). -/
def State.retryHeld (s : State) (i : Fin 4) : State := if s.xl.held[i].valid then s.releaseHeld i else s

/-- A record is declined, by the deputy or by the hold limit: counted in XLCNT and in the tally (R101, 16 Table 16.8). -/
def State.declineHeld (s : State) (i : Fin 4) (timeout : Bool) : State :=
  let r := s.xl.held[i]
  if !r.valid then s
  else
    let s := s.releaseHeld i
    let s : State :=
      if timeout then ({ s with xl := { s.xl with cntTimeouts := satInc s.xl.cntTimeouts } }).tallyInc 0x4B
      else ({ s with xl := { s.xl with cntDeclined := satInc s.xl.cntDeclined } }).tallyInc 0x4A
    r.waiters.foldl (State.declineWaiter timeout) s

/-- A walker slot. -/
def slotOf (b : BitVec 2) : Fin 4 := ⟨b.toNat, b.isLt⟩

/-- RETRY (R102). -/
def execRetry (slot : BitVec 2) (s : State) : Host.Outcome State Fault Refusal := answer s (s.retryHeld (slotOf slot))

/-- The page is under open migration, as home or as member (12 R266). -/
def State.underMigration (s : State) (page : Nat) : Bool :=
  s.hl.migrations.any (fun m => m.page.toNat == page) || s.hl.revoked.any (fun p => p.toNat == page)

/-- DECLINE (R102); a record on a page under open migration is left open (12 R266). -/
def execDecline (slot : BitVec 2) (s : State) : Host.Outcome State Fault Refusal :=
  answer s (if s.underMigration (s.xl.held[slotOf slot].ia.toNat / 2 ^ 14) then s else s.declineHeld (slotOf slot) false)

/-- HOLD_LIMIT: a record reaches HOLDLIM; with HOLDLIM = 0 there is no limit (R101). -/
def execHoldLimit (slot : BitVec 2) (s : State) : Host.Outcome State Fault Refusal :=
  answer s (if s.xl.holdlim = 0 then s else s.declineHeld (slotOf slot) true)

/-! ### S2INV (R103) -/

/-- The slot's stage-2 part covers an IA page. -/
def TlbSlot.coversIa (t : TlbSlot) (page : Nat) : Bool := decide (t.ipage ≤ page) && decide (page < t.ipage + t.span)

/-- S2INV of a page, or of all: slots and the stage-2 entries of the table-entry cache go, and every earlier access of the
core that used them is performed (R103). -/
def State.s2inv (s : State) (page : Option (BitVec 33)) : State :=
  let s := s.performAll
  let keep (t : TlbSlot) : Bool := match page with
    | none => false
    | some p => !t.coversIa p.toNat
  { s with xl := ({ s.xl with tec := s.xl.tec.filter (fun e => !e.stage2) } : Xlat).keepSlots keep }

/-- S2INVGO: the slots that S2INVPG names go, and S2INVST.BUSY is set until completion; ignored while BUSY (14 Table 14.9). -/
def State.s2go (s : State) : State :=
  if s.win.s2busy then s
  else
    let t := s.s2inv (if s.win.s2all then none else some s.win.s2page)
    { t with win := { t.win with s2busy := true } }

/-- S2INV. -/
def execS2inv (s : State) : Host.Outcome State Fault Refusal := answer s s.s2go

/-- S2INV_COMPLETE: completion is signalled to the deputy once every earlier access of the core is performed (R103). -/
def execS2invComplete (s : State) : Host.Outcome State Fault Refusal :=
  answer s
    (if s.tileStuck then s
     else let s := s.performAll
          { s with win := { s.win with s2busy := false } })

/-! ### Tile-store reassignment (03 R82) -/

/-- TSCFG_WRITE: a write while BUSY waits (03 R82, log 7). -/
def execTscfgWrite (value : BitVec 64) (s : State) : Host.Outcome State Fault Refusal :=
  answer s ((s.writeTscfg (value.setWidth 4)).getD s)

/-- REASSIGNMENT_END. -/
def execReassignmentEnd (s : State) : Host.Outcome State Fault Refusal := answer s s.endReassignment

end Sys2Proof.Machine
end

