-- ==== Sys2Proof/Machine/CopyEngine.lean ====
section
/-! DEFINITION. The copy engine of the deputy (14 Table 14.9, R318; 12 R265, R269; 17 R377): COPY, CLEANPA and INVPA. An
operation is performed as it starts and its result shows at COPY_ENGINE_COMPLETION. -/

namespace Sys2Proof.Machine

/-- The boot window contains the address (17 R377). -/
def State.inBootWindow (s : State) (pa : Nat) : Bool :=
  decide (s.straps.bootBase.toNat * 2 ^ 14 ≤ pa) && decide (pa < s.straps.bootBase.toNat * 2 ^ 14 + 0x80000)

/-- An access of the copy engine is permitted: the region decides, or the boot window where no region does (17 R377). -/
def State.ceRegion (s : State) (pa : Nat) (sec : Bool) : Bool :=
  if inScratch pa then true
  else match s.region pa with
    | some r => !r.device && (sec || !r.secure)
    | none => s.inBootWindow pa

/-- Where a word address of program SRAM is kept: the spare block, kept from 0x4000, in place of the block that PMCTL names (14 R304). -/
def Deputy.progKey (d : Deputy) (a : Nat) : Nat :=
  if d.spen && a / 1024 == d.spblk.toNat then 0x4000 + a % 1024 else a

/-- A word of program SRAM. -/
def Deputy.progGet (d : Deputy) (a : Nat) : BitVec 14 := smGet (0x3EFF#14) (d.progKey a) d.prog

/-- Write a word of program SRAM, whose parity is then good. -/
def Deputy.progSet (d : Deputy) (a : Nat) (w : BitVec 14) : Deputy :=
  { d with prog := smSet (0x3EFF#14) (d.progKey a) w d.prog, progBad := nsErase (d.progKey a) d.progBad }

/-- Bytes of data SRAM, byte 0 least significant, and whether one of them is in parity error. -/
def Deputy.sramNat (d : Deputy) (a n : Nat) : Nat × Bool :=
  (natOf ((List.range n).map (fun i => smGet 0#8 (a + i) d.data)), (List.range n).any (fun i => nsMem (a + i) d.dataBad))

/-- Write one byte of data SRAM, in parity error or not. -/
def Deputy.setSram (d : Deputy) (a : Nat) (v : Byte) (bad : Bool) : Deputy :=
  { d with data := smSet 0#8 a v d.data, dataBad := if bad then nsInsert a d.dataBad else nsErase a d.dataBad }

/-- Write bytes of data SRAM. -/
def Deputy.setSramNat (d : Deputy) (a v n : Nat) (bad : Bool) : Deputy :=
  (List.range n).foldl (fun d i => d.setSram (a + i) (BitVec.ofNat 8 (v / 256 ^ i)) bad) d

/-- The granules of a range are permitted. -/
def State.ceRange (s : State) (sec : Bool) (pa n : Nat) : Bool := s.ceRegion pa sec && s.ceRegion (pa + n - 1) sec

/-- Write `n` bytes within one granule in memory, behind the caches of this core, whose line is written back and dropped first;
poison is carried (12 R269), and a whole granule of clean data clears it (16 R354). -/
def State.ceWrite (s : State) (sec : Bool) (pa n v : Nat) (bad : Bool) : State :=
  if s.unbacked pa then s.noteUnbacked pa
  else
    let g := pa / 64
    let m := ((s.mem.writeBack g).dropLine g).setBackNat pa v n
    let m := if bad then m.setBackPoison g true else if n = 64 then m.setBackPoison g false else m
    let m := if inScratch pa then m else m.offerWrite { pa := pa, src := 5, dev := false, sec := sec, size := 0, aop := 0 }
    let s := { s with mem := m }
    if bad then s.tallyInc 0x31 else s

/-- Read `n` bytes within one granule coherently: the value and its poison. -/
def State.ceRead (s : State) (sec : Bool) (pa n : Nat) : State × Nat × Bool :=
  if s.unbacked pa then (s.noteUnbacked pa, 0, false)
  else (s.portRead 5 sec .cached pa n, s.mem.readNat pa n, s.mem.poisoned (pa / 64))

/-- Read up to 64 bytes coherently, which may lie in two granules. -/
def State.ceGather (s : State) (sec : Bool) (pa n : Nat) : State × Nat × Bool :=
  let k := Nat.min n (64 - pa % 64)
  let x := s.ceRead sec pa k
  if k = n then x
  else
    let y := x.1.ceRead sec (pa + k) (n - k)
    (y.1, x.2.1 + 256 ^ k * y.2.1, x.2.2 || y.2.2)

/-- One side of a copy. -/
structure CeSide where
  /-- Data SRAM. -/
  local_ : Bool
  /-- PA or offset. -/
  addr : Nat
  deriving DecidableEq, Repr

/-- The side further on. -/
def CeSide.plus (x : CeSide) (k : Nat) : CeSide := { x with addr := x.addr + k }

/-- An access of a side is permitted: data SRAM always is. -/
def State.ceAllows (s : State) (sec : Bool) (x : CeSide) (n : Nat) : Bool := x.local_ || s.ceRange sec x.addr n

/-- Copy the pieces of a range in ascending order, each the part that lies in one granule of the destination, so that a granule which
the copy covers is written by one operation: the STATUS that results. Data SRAM bytes that take poison are left in parity error
(log 60). The fuel bounds the pieces. -/
def State.ceCopy (s : State) (sec : Bool) (src dst : CeSide) (len : Nat) (carried : Bool) : Nat → State × Nat
  | 0 => (s, bit carried)
  | fuel + 1 =>
    let k := Nat.min len (64 - dst.addr % 64)
    if len = 0 then (s, bit carried)
    else if !s.ceAllows sec src k || !s.ceAllows sec dst k then (s, 8)
    else
      let x : State × Nat × Bool :=
        if src.local_ then let r := s.dep.sramNat src.addr k; (s, r.1, r.2) else s.ceGather sec src.addr k
      let t : State :=
        if dst.local_ then { x.1 with dep := x.1.dep.setSramNat dst.addr x.2.1 k x.2.2 }
        else x.1.ceWrite sec dst.addr k x.2.1 x.2.2
      t.ceCopy sec (src.plus k) (dst.plus k) (len - k) (carried || x.2.2) fuel

/-- The operation starts: BUSY until its completion, which will report `status` (14 Table 14.9). -/
def State.ceBusy (s : State) (status : Nat) (irq : Bool) : State :=
  { s with ce := { s.ce with busy := true, irq := irq, next := BitVec.ofNat 4 status, waiting := none } }

/-- A side reaches a scratch step that waits for its zero-fill (03 R82). -/
def State.ceWaits (s : State) (x : CeSide) (len : Nat) : Bool :=
  !x.local_ && s.ts.busy && (List.range ((x.addr % 64 + len + 63) / 64)).any (fun i => s.waitsForFill (x.addr / 64 * 64 + 64 * i))

/-- COPY over the registers as they stand (14 Table 14.9): a length that CELEN does not admit is a bad command. One that reaches a
scratch step under zero-fill waits for it (03 R82, log 177). -/
def State.ceStartCopy (s : State) (srcl dstl sec irq : Bool) : State :=
  if s.ce.busy then s
  else
    let len := s.ce.len.toNat
    let past (l : Bool) (a : Nat) : Bool := l && decide (32768 < a + len)
    let src : CeSide := { local_ := srcl, addr := s.ce.src.toNat }
    let dst : CeSide := { local_ := dstl, addr := s.ce.dst.toNat }
    if len = 0 || past srcl src.addr || past dstl dst.addr then s.ceBusy 6 irq
    else if s.ceWaits src len || s.ceWaits dst len then
      let t := s.ceBusy 0 irq
      { t with ce := { t.ce with waiting := some (srcl, dstl, sec, src.addr, dst.addr, len) } }
    else
      let r := s.ceCopy sec src dst len false len
      r.1.ceBusy r.2 irq

/-- CLEANPA of a physical page: every dirty line is written back and stays valid, clean (12 R265). -/
def State.cleanPage (s : State) (page : Nat) : State :=
  { s with mem := (List.range 256).foldl (fun m i => m.writeBack (256 * page + i)) s.mem }

/-- INVPA of a physical page: every line goes without being written back; scratch is no cache (12 R265, 03 R80). -/
def State.invPage (s : State) (page : Nat) : State :=
  if inScratch (page * 2 ^ 14) then s
  else { s with mem := (List.range 256).foldl (fun m i => m.dropLine (256 * page + i)) s.mem }

/-- CECMD (14 Table 14.9): a reserved OP is a bad command. -/
def State.ceCmd (s : State) (v : Nat) : State :=
  if s.ce.busy then s
  else
    let irq := bitOf v 6
    match v % 8 with
    | 1 => s.ceStartCopy (bitOf v 3) (bitOf v 4) (bitOf v 5) irq
    | 2 => (s.cleanPage (s.ce.dst.toNat / 2 ^ 14)).ceBusy 0 irq
    | 3 => (s.invPage (s.ce.dst.toNat / 2 ^ 14)).ceBusy 0 irq
    | _ => s.ceBusy 6 irq

/-- CECMD as a value: OP, SRCL, DSTL, SEC, IRQ. -/
def ceWord (op : Nat) (srcl dstl sec irq : Bool) : Nat := op + bit srcl * 8 + bit dstl * 16 + bit sec * 32 + bit irq * 64

/-- COPY_ENGINE_COPY. -/
def execCopyEngineCopy (srcl dstl sec irq : Bool) (s : State) : Host.Outcome State Fault Refusal :=
  answer s (s.ceCmd (ceWord 1 srcl dstl sec irq))

/-- CLEANPA. -/
def execCleanpa (irq : Bool) (s : State) : Host.Outcome State Fault Refusal :=
  answer s (s.ceCmd (ceWord 2 false false false irq))

/-- INVPA. -/
def execInvpa (irq : Bool) (s : State) : Host.Outcome State Fault Refusal :=
  answer s (s.ceCmd (ceWord 3 false false false irq))

/-- A COPY that waited is performed once the scratch steps it reaches are zero-filled. -/
def State.ceGoesOn (s : State) : State :=
  match s.ce.waiting with
  | none => s
  | some (srcl, dstl, sec, src, dst, len) =>
    let a : CeSide := { local_ := srcl, addr := src }
    let b : CeSide := { local_ := dstl, addr := dst }
    if s.ceWaits a len || s.ceWaits b len then s
    else
      let r := s.ceCopy sec a b len false len
      r.1.ceBusy r.2 s.ce.irq

/-- The engine finishes: CESTAT takes the result, and vector 12 is raised where IRQ asked for it (14 Table 14.9). A COPY that still waits
does not finish. -/
def State.ceFinish (s : State) (portError : Bool) : State :=
  let s := s.ceGoesOn
  if !s.ce.busy || s.ce.waiting.isSome then s
  else
    let t := { s with ce := { s.ce with
      busy := false, valid := true, seq := s.ce.seq + 1, status := if portError then 4 else s.ce.next } }
    if s.ce.irq then t.raiseVector 12 else t

/-- The bytes from a physical address as secure reads of the copy engine give them; none where a piece is refused or poisoned. -/
def State.ceBytes (s : State) (pa n : Nat) : Option (List Byte) :=
  if (List.range ((pa % 64 + n + 63) / 64)).all (fun i => s.ceRegion (pa / 64 * 64 + 64 * i) true && !s.mem.poisoned (pa / 64 + i)) then
    some ((List.range n).map (fun i => if s.unbacked (pa + i) then 0 else s.mem.byte (pa + i)))
  else none

/-- MRQ_ATTR and MW_ATTR of a request (17 Table 17.3): SRC, OTAG, which is 1 for a device access, DEV, SEC, and the stack and tier that the
physical map gives the address; in the boot window, where no region decides, STACK 0 and TIER LOG (R377). -/
def State.portAttr (s : State) (r : PortReq) : BitVec 16 :=
  let place : Nat := match s.region r.pa with
    | some x => (if x.tier = 0 then x.stack r.pa else 0) * 4 + x.tier.toNat
    | none => 2
  BitVec.ofNat 16 (r.src.toNat * 2 ^ 13 + bit r.dev * 2 ^ 9 + bit r.dev * 2 ^ 8 + bit r.sec * 2 ^ 7 + place)

/-- The secure read request that the engine offers for the last granule of such a range (17 R379). -/
def State.ceOffer (s : State) (pa n : Nat) : State :=
  if n = 0 || inScratch pa then s else s.portRead 5 true .cached (pa + n - 1) 1

end Sys2Proof.Machine
end

