-- ==== Sys2Proof/Machine/TramPackets.lean ====
section
/-! DEFINITION. The fabric packets of the tram engine: remote reads, writes and reduces at their destination, their replies,
refused packets (13 R294, R296, R298; 17 R383 to R386), and the deputy's doorbells (12 R267, 14 R315). -/

namespace Sys2Proof.Machine

/-! ### At the destination -/

/-- The granules from `addr` lie in TRRWIN (13 R294). -/
def State.inWindow (s : State) (addr n : Nat) : Bool :=
  let k := s.tr.winLog.toNat
  let base := s.tr.winBase.toNat * 2 ^ 14
  s.tr.winEn && addr / 2 ^ k == base / 2 ^ k && (addr + 64 * n - 1) / 2 ^ k == base / 2 ^ k

/-- The STATUS with which an arriving access is refused: outside the window 1, a refused region 2, else 0 (Table 17.6). -/
def State.remoteStatus (s : State) (addr n : Nat) : Nat :=
  if !s.inWindow addr n then 1
  else if (List.range n).all (fun i => s.tramRegion (addr + 64 * i) 4) then 0 else 2

/-- A granule that an arriving access names waits for its scratch step's zero-fill: the packet is taken once it is filled (03 R82). -/
def State.remoteWaits (s : State) (addr n : Nat) : Bool :=
  decide (s.remoteStatus addr n = 0) && (List.range n).any (fun i => s.waitsForFill (addr + 64 * i))

/-- The reply to a packet. -/
def State.replyTo (s : State) (p : Packet) (status : Nat) : Packet :=
  { s.packetTo p.src with tag := p.tag, status := BitVec.ofNat 4 status }

/-- Read granules: data and POIS. -/
def State.readGranules (s : State) (addr : Nat) : Nat → Nat → State × List (BitVec 512) × Nat
  | 0, _ => (s, [], 0)
  | n + 1, i =>
    let x := s.tramRead (s.typeOf 4 (addr + 64 * i)) (addr + 64 * i) 64
    let y := x.1.readGranules addr n (i + 1)
    (y.1, BitVec.ofNat 512 x.2.1 :: y.2.1, (if x.2.2 then 2 ^ i else 0) + y.2.2)

/-- READ_PACKET: whole granules from ADDR come back in a READREPLY; a refused read returns no data (17 R383, Table 17.7). -/
def execReadPacket (p : Packet) (s : State) : Host.Outcome State Fault Refusal :=
  if !readFrame p then .refused .illFormed
  else answer s (s.received fun s =>
    (let n := p.len.toNat / 64
     let st := s.remoteStatus p.addr.toNat n
     if s.remoteWaits p.addr.toNat n then s
     else if st ≠ 0 then s.sendPacket 2 (s.replyTo p st)
     else
       let x := s.readGranules p.addr.toNat n 0
       x.1.sendPacket 2 { x.1.replyTo p 0 with len := p.len, data := x.2.1, pois := wd x.2.2 }))

/-- The bytes of granule `i` of `n` that HEAD and TAIL leave to be written: first byte and end (17 R383). -/
def granuleSpan (p : Packet) (n i : Nat) : Nat × Nat :=
  (if i = 0 then p.head.toNat else 0, if i + 1 = n then 64 - p.tail.toNat else 64)

/-- Write the granules of a WRITE, or reduce those of a REDUCE into memory, in order. -/
def State.putGranules (s : State) (p : Packet) (red : Option RedOp) (n : Nat) : List (BitVec 512) → Nat → State
  | [], _ => s
  | g :: rest, i =>
    let a := p.addr.toNat + 64 * i
    let lo := (granuleSpan p n i).1
    let hi := (granuleSpan p n i).2
    let bad := p.pois.getLsbD i
    let ty := s.typeOf 4 a
    let s : State := match red with
      | none => s.tramWrite ty (a + lo) (hi - lo) (g.toNat / 2 ^ (8 * lo) % 2 ^ (8 * (hi - lo))) bad
      | some o =>
        let r := s.tramRead ty a 64
        let w := reduceBytes o a r.2.1 g.toNat (64 / redSize o.fmt)
        r.1.tramWrite ty (a + lo) (hi - lo) (w / 2 ^ (8 * lo) % 2 ^ (8 * (hi - lo))) (bad || r.2.2)
    s.putGranules p red n rest (i + 1)

/-- Perform an arriving write or reduce and acknowledge it (Table 17.7). -/
def State.servePut (s : State) (p : Packet) (red : Option RedOp) : State :=
  let n := p.data.length
  let st := s.remoteStatus p.addr.toNat n
  if s.remoteWaits p.addr.toNat n then s
  else if st ≠ 0 then s.sendPacket 4 (s.replyTo p st)
  else
    let t := s.putGranules p red n p.data 0
    t.sendPacket 4 (t.replyTo p 0)

/-- WRITE_PACKET (17 R383). -/
def execWritePacket (p : Packet) (s : State) : Host.Outcome State Fault Refusal :=
  if !dataFrame p then .refused .illFormed else answer s (s.receivedData p fun p s => s.servePut p none)

/-- The reduce that a packet carries: SRSEED and SRBASE in bytes 32 to 47 (Table 17.7). -/
def packetRed (p : Packet) : RedOp :=
  { red := p.red.toNat, fmt := p.fmt.toNat, sr := p.sr, seed := packetWord p 0, base := packetWord p 1 }

/-- REDUCE_PACKET: applied in arrival order (13 R296). -/
def execReducePacket (p : Packet) (s : State) : Host.Outcome State Fault Refusal :=
  if !reduceFrame p then .refused .illFormed else answer s (s.receivedData p fun p s => s.servePut p (some (packetRed p)))

/-! ### At the requester -/

/-- The completion status for a reply's STATUS (log 45). -/
def replyStatus (st : Nat) : Nat := if st = 2 then 8 else if st = 4 then 4 else 5

/-- Write the `k` bytes of a read reply to the channel's local destination, granule by granule (Table 13.8). -/
def State.storeReply (c : Fin 32) (p : Packet) (skip dst k : Nat) : Nat → Move → TramEnd
  | 0, m => .done m
  | fuel + 1, m =>
    let o := m.done
    if k ≤ o then .done m
    else
      let n := Nat.min (k - o) (64 - (dst + o) % 64)
      match m.s.tramAddr c (.reply p.tag) (dst + o) .store with
      | .hold s => .hold { m with s := s }
      | .fail s st => .fail { m with s := s } st
      | .ok s pa ty =>
        let at' := skip + o
        let v := packWords 512 (p.data.map (·.toNat)) / 2 ^ (8 * at') % 2 ^ (8 * n)
        let bad := p.pois.getLsbD (at' / 64) || p.pois.getLsbD ((at' + n - 1) / 64)
        State.storeReply c p skip dst k fuel { s := s.tramWrite ty pa n v bad, done := o + n, poison := m.poison || bad }

/-- READREPLY: the named bytes are written locally; a destination that is held at stage 2 leaves the reply to come again
(17 R383, log 47). A reply that nothing waits for is ignored. -/
def execReadreply (p : Packet) (s : State) : Host.Outcome State Fault Refusal :=
  answer s (s.receivedData p fun p s =>
    (match s.waiterOf p.tag with
     | none => s
     | some (c, o, off, k) =>
       if p.status ≠ 0 then s.endWait c p.tag (fun o => o.failed (replyStatus p.status.toNat) off)
       else if 2 ≤ o.status.toNat then s.endWait c p.tag id
       else
         match State.storeReply c p ((descSrc o.desc + off) % 64) (descDst o.desc + off) k (k + 1)
             { s := s, done := 0, poison := false } with
         | .hold m => { s with xl := m.s.xl, dep := m.s.dep, free := m.s.free }
         | .fail m st => m.s.endWait c p.tag (fun o => o.failed st (off + m.done))
         | .done m => m.s.endWait c p.tag (fun o => o.poisoned m.poison)))

/-- ACK_PACKET: a remote write or reduce has been performed, or refused (13 R298). -/
def execAckPacket (p : Packet) (s : State) : Host.Outcome State Fault Refusal :=
  answer s (s.received fun s =>
    (match s.waiterOf p.tag with
     | none => s
     | some (c, _, off, _) =>
       s.endWait c p.tag (fun o => if p.status = 0 then o else o.failed (replyStatus p.status.toNat) off)))

/-- NACK: counted, and handled by the type in the refused packet's header, bytes 32 to 63 (Table 17.9, log 49). -/
def execNack (p : Packet) (s : State) : Host.Outcome State Fault Refusal :=
  answer s (s.received fun s =>
    (let type := (packetWord p 0).toNat % 16
     let tag : BitVec 12 := (packetWord p 1).setWidth 12
     let s := { s with fab := { s.fab with nacks := s.fab.nacks + 1 } }
     if type = 1 ∨ type = 3 ∨ type = 8 then
       match s.waiterOf tag with
       | none => s
       | some (c, _, off, _) => s.endWait c tag (fun o => o.failed 5 off)
     else if type = 9 then { s with win := { s.win with dbunrt := true } }
     else s))

/-! ### Doorbells (12 R267, 14 R315) -/

/-- A doorbell to a node. -/
def State.sendDoorbell (s : State) (node : BitVec 24) (payload : BitVec 128) : State :=
  s.sendPacket 9 { s.packetTo node with sec := true, inl := payload.setWidth 768 }

/-- DBSEND: DBOUT leaves for the node in DBDEST; ignored while BUSY (14 Table 14.9). The packet is handed over at once, so
BUSY is not seen set. -/
def State.dbSend (s : State) : State := if s.win.dbbusy then s else s.sendDoorbell s.win.dbdest s.win.dbout

/-- DOORBELL_SEND. -/
def execDoorbellSend (s : State) : Host.Outcome State Fault Refusal := answer s s.dbSend

/-- DOORBELL_RECEIVE: into the queue of 8 with vector 6; while it is full the fabric's credits hold it back (14 Table 14.9). -/
def execDoorbellReceive (p : Packet) (s : State) : Host.Outcome State Fault Refusal :=
  answer s (s.received fun s =>
    (if 8 ≤ s.win.dbin.length then s
     else ({ s with win := { s.win with dbin := s.win.dbin ++ [p.inl.setWidth 128] } }).raiseVector 6))

/-- Remove the oldest inbound doorbell. -/
def State.dbPop (s : State) : State := { s with win := { s.win with dbin := s.win.dbin.drop 1 } }

/-- DBPOP (14 Table 14.9). -/
def execDbpop (s : State) : Host.Outcome State Fault Refusal := answer s s.dbPop

end Sys2Proof.Machine
end

