-- ==== Sys2Proof/Machine/Haulage.lean ====
section
/-! DEFINITION. Haulage (12 R260 to R275): the heat table, migrations by the home with its copy engine, doorbells between
deputies, requests, and the epoch's choices. Firmware's part is performed by the command named for it (log 61). -/

namespace Sys2Proof.Machine

/-! ### The heat table (R262 to R264) -/

/-- heat = HFILLW·FILL + MISS (R263). -/
def State.heatOf (s : State) (e : HeatEntry) : Nat := s.hl.hfillw.toNat * e.fill.toNat + e.miss.toNat

/-- Write a heat table entry. -/
def State.setHeat (s : State) (n : Nat) (e : Option HeatEntry) : State :=
  { s with hl := { s.hl with heat := smSet none n e s.hl.heat } }

/-- The way of a set that a new page takes: the first invalid one, else the first of the least heat (R263). -/
def State.heatVictim (s : State) (set : Nat) : Nat :=
  let at' (w : Nat) : Option HeatEntry := smGet none (4 * set + w) s.hl.heat
  let key (w : Nat) : Nat := match at' w with | none => 0 | some e => s.heatOf e + 1
  [1, 2, 3].foldl (fun b w => if key w < key b then w else b) 0

/-- Apply one event to the table (R263). -/
def State.heatApply (s : State) (miss : Bool) (page : BitVec 33) : State :=
  let set := page.toNat % 4096
  let hit := [0, 1, 2, 3].find? (fun w => match smGet none (4 * set + w) s.hl.heat with
    | some e => e.iapg == page
    | none => false)
  match hit with
  | some w =>
    match smGet none (4 * set + w) s.hl.heat with
    | some e => s.setHeat (4 * set + w) (some (if miss then { e with miss := satInc e.miss } else { e with fill := satInc e.fill }))
    | none => s
  | none => s.setHeat (4 * set + s.heatVictim set) (some { iapg := page, fill := if miss then 0 else 1, miss := if miss then 1 else 0 })

/-- HEAT_EVENT: a MISS of a page, where one is given, joins the queue; then the oldest queued event is applied, to a set that an aging
pass has reached or not. Nothing is counted while stage 2 is off (R262 to R264). -/
def execHeatEvent (miss : Option (BitVec 33)) (s : State) : Host.Outcome State Fault Refusal :=
  answer s
    (let s := match miss with
      | some p => if s.xl.s2en then s.heatPush true p else s
      | none => s
     match s.hl.queue with
     | [] => s
     | (m, p) :: t => (({ s with hl := { s.hl with queue := t } } : State).ageOn).heatApply m p)

/-- An aging pass begins: ignored while one runs (R264). -/
def State.agePass (s : State) : State := if s.hl.aging then s else { s with hl := { s.hl with aging := true, aged := 0 } }

/-- HTAGE. -/
def execHtage (s : State) : Host.Outcome State Fault Refusal := answer s s.agePass

/-- The aging pass ends: every set is aged. -/
def State.ageEnd (s : State) : State :=
  if s.hl.aging then
    let t := s.ageTo 4096
    { t with hl := { t.hl with aging := false } }
  else s

/-- AGING_PASS_END. -/
def execAgingPassEnd (s : State) : Host.Outcome State Fault Refusal := answer s s.ageEnd

/-- The snapshot that a read of bytes 0 to 1 of HTWDATA takes (14 Table 14.9). -/
def State.heatSnap (s : State) : State :=
  let t := s.ageOn
  { t with hl := { t.hl with htwsnap := t.heatWord t.hl.htwsel.toNat } }

/-! ### Doorbells (R267) -/

/-- A doorbell payload (Table 12.3): word 1 holds the sender and a low field. -/
def doorWord (op status migid reqop lstack page node low : Nat) : BitVec 128 :=
  BitVec.ofNat 128 (op * 2 ^ 60 + status * 2 ^ 56 + migid * 2 ^ 48 + reqop * 2 ^ 44 + lstack * 2 ^ 34 + page
    + 2 ^ 64 * (node * 2 ^ 33 + low))

/-- IAPG of a payload. -/
def doorPage (d : Nat) : BitVec 33 := BitVec.ofNat 33 d
/-- SRCNODE of a payload. -/
def doorNode (d : Nat) : BitVec 24 := BitVec.ofNat 24 (fieldOf d 97 24)
/-- MIGID of a payload. -/
def doorMig (d : Nat) : BitVec 8 := BitVec.ofNat 8 (fieldOf d 48 8)
/-- The low field of word 1. -/
def doorLow (d : Nat) : Nat := fieldOf d 64 33

/-- OP of a payload is reserved: it is ignored (Table 12.3). -/
def doorReserved (d : BitVec 128) : Bool := fieldOf d.toNat 60 4 == 0 || decide (8 < fieldOf d.toNat 60 4)

/-- Firmware takes the oldest inbound doorbell where its OP is the one wanted; reserved ones before it go. -/
def State.takeDoor (s : State) (op : Nat) : Option (State × Nat) :=
  if !s.firmware then none
  else
    match s.win.dbin.dropWhile doorReserved with
    | d :: t => if fieldOf d.toNat 60 4 = op then some ({ s with win := { s.win with dbin := t } }, d.toNat) else none
    | [] => none

/-- The node of this deputy's home (Table 12.4). -/
def State.home (s : State) : BitVec 24 := BitVec.ofNat 24 (s.param 0x6000 0xB)

/-- This deputy is a member: HOME names another node (R271). -/
def State.isMember (s : State) : Bool := s.home != s.straps.nodeId

/-- ACK to a doorbell. -/
def State.ackDoor (s : State) (d : Nat) (status low : Nat) : State :=
  s.sendDoorbell (doorNode d) (doorWord 8 status (doorMig d).toNat 0 0 (doorPage d).toNat s.straps.nodeId.toNat low)

/-- The held records on an IA page are resolved with RETRY. -/
def State.retryPage (s : State) (page : BitVec 33) : State :=
  (List.finRange 4).foldl (fun s i =>
    if s.xl.held[i].valid && s.xl.held[i].ia.toNat / 2 ^ 14 == page.toNat then s.retryHeld i else s) s

/-- A member notes that its home's migration of a page is open, or closed (R266). -/
def State.notePage (s : State) (page : BitVec 33) (isOpen : Bool) : State :=
  let l := s.hl.revoked.filter (fun p => p != page)
  { s with hl := { s.hl with revoked := if isOpen then l ++ [page] else l } }

/-- A member handles a doorbell of its home; one whose sender is not its home is answered with STATUS 1 (Table 12.3, log 63). -/
def State.memberDoor (s : State) (op : Nat) (act : State → Nat → State) : State :=
  match s.takeDoor op with
  | none => s
  | some (t, d) => if doorNode d = t.home then (act t d).ackDoor d 0 0 else t.ackDoor d 1 0

/-- REVOKE: S2INV of the page, CLEANPA of O, ACK (Table 12.2 step 5). -/
def execRevoke (s : State) : Host.Outcome State Fault Refusal :=
  answer s (s.memberDoor 1 (fun s d => ((s.s2inv (some (doorPage d))).cleanPage (doorLow d)).notePage (doorPage d) true))

/-- REMAP: S2INV of the page, INVPA of O, ACK; held records stay held (Table 12.2 step 10). -/
def execRemap (s : State) : Host.Outcome State Fault Refusal :=
  answer s (s.memberDoor 2 (fun s d => (s.s2inv (some (doorPage d))).invPage (doorLow d)))

/-- ABORT: S2INV of the page, its held records retried, ACK (R268). -/
def execAbort (s : State) : Host.Outcome State Fault Refusal :=
  answer s (s.memberDoor 3 (fun s d => ((s.s2inv (some (doorPage d))).notePage (doorPage d) false).retryPage (doorPage d)))

/-- S2INV_DOORBELL: of the page, or of all pages, and ACK (R267). -/
def execS2invDoorbell (s : State) : Host.Outcome State Fault Refusal :=
  answer s (s.memberDoor 4 (fun s d => s.s2inv (if bitOf d 33 then none else some (doorPage d))))

/-- RELEASE: held records on the page are retried; no reply (Table 12.2 step 12). -/
def execRelease (s : State) : Host.Outcome State Fault Refusal :=
  answer s (match s.takeDoor 5 with
    | none => s
    | some (t, d) => (t.notePage (doorPage d) false).retryPage (doorPage d))

/-! ### Pages and pools (R260, R261) -/

/-- The stage-2 page entry of an IA page, as firmware finds it from a table: its address and value. -/
def State.entryWalk (s : State) (ia table : Nat) : List Nat → Option (Nat × Nat)
  | [] => none
  | lvl :: rest =>
    let pa := table + 8 * fieldOf ia (36 - 11 * lvl) 11
    let e := s.mem.readNat pa 8
    if entryInvalid e lvl 3 || s.mem.poisoned (pa / 64) then none
    else if lvl < 2 then s.entryWalk ia (entryOa e) rest else some (pa, e)

/-- The valid page entry of an IA page: none while stage 2 is off. -/
def State.pageEntry (s : State) (page : BitVec 33) : Option (Nat × Nat) :=
  if s.xl.s2en then s.entryWalk (page.toNat * 2 ^ 14) (s.xl.s2root.toNat * 2 ^ 14) [0, 1, 2] else none

/-- The pool in which a PA page lies (R260). -/
def State.poolAt (s : State) (page : Nat) : Option Pmat :=
  if inScratch (page * 2 ^ 14) then none
  else match s.region (page * 2 ^ 14) with
    | some r => if r.isPool then some r else none
    | none => none

/-- A single-stack NEAR pool of a stack (R260). -/
def Pmat.isNear (r : Pmat) (stack : BitVec 5) : Bool := r.tier == 0 && r.ilways == 0 && r.ilfirst == stack

/-- A PA page lies where a migration is to take it: the NEAR pool of a stack, or EXP. -/
def State.liesIn (s : State) (page : Nat) (dest : Option (BitVec 5)) : Bool :=
  match s.poolAt page with
  | none => false
  | some r => match dest with
    | some k => r.isNear k
    | none => r.tier == 1

/-- The page may move (R261): the address of its entry and its PA page. -/
def State.mayMove (s : State) (page : BitVec 33) : Option (Nat × Nat) :=
  match s.pageEntry page with
  | none => none
  | some (a, e) =>
    if bitOf e 14 || fieldOf e 9 3 == 3 || (s.poolAt (fieldOf e 16 33)).isNone || s.hl.migrations.any (fun m => m.page == page)
    then none else some (a, fieldOf e 16 33)

/-- The first free page of a target. -/
def State.freePage (s : State) (dest : Option (BitVec 5)) : Option (BitVec 33) := s.hl.free.find? (fun p => s.liesIn p.toNat dest)

/-! ### Migrations (R265 to R269, Table 12.2) -/

/-- Change an entry by one 8-byte store of the copy engine, made secure. -/
def State.editEntry (s : State) (a : Nat) (f : Nat → Nat) : State := s.ceWrite true a 8 (f (s.mem.readNat a 8)) false

/-- An entry with a bit set or clear. -/
def putFlag (e i : Nat) (b : Bool) : Nat := if bitOf e i = b then e else if b then e + 2 ^ i else e - 2 ^ i

/-- An entry with OA replaced and W set; every other field stays (Table 12.2 step 7, log 64). -/
def pointEntry (page : BitVec 33) (e : Nat) : Nat := putFlag (e - fieldOf e 16 33 * 2 ^ 16 + page.toNat * 2 ^ 16) 3 true

/-- Replace an open migration. -/
def State.setMig (s : State) (m : Migration) : State :=
  { s with hl := { s.hl with migrations := s.hl.migrations.map (fun x => if x.migid = m.migid then m else x) } }

/-- Remove a migration. -/
def State.dropMig (s : State) (m : Migration) : State :=
  { s with hl := { s.hl with migrations := s.hl.migrations.filter (fun x => x.migid != m.migid) } }

/-- A doorbell of the home to every member. -/
def State.tellMembers (s : State) (op : Nat) (m : Migration) : State :=
  s.hl.members.foldl (fun s n =>
    s.sendDoorbell n (doorWord op 0 m.migid.toNat 0 0 m.page.toNat s.straps.nodeId.toNat (if op = 5 then 0 else m.old.toNat))) s

/-- Raise EV46 and capture a notice, or count it as missed (R272). -/
def State.notice (s : State) (page : BitVec 33) (reason : Nat) : State :=
  let h := s.hl
  ({ s with hl :=
      if h.noteValid then { h with noteMissed := satInc h.noteMissed }
      else { h with
        noteValid := true, noteSeq := h.noteSeq + 1, notePage := page, noteReason := BitVec.ofNat 3 reason, noteMissed := 0 } }).setEvent 46

/-- Step 6: while the copy engine is free, the oldest migration that waits for it is copied. -/
def State.startCopies (s : State) : State :=
  if s.ce.busy then s
  else match s.hl.migrations.find? (fun m => decide (m.phase = .copy)) with
    | none => s
    | some m =>
      ({ s with ce := { s.ce with src := BitVec.ofNat 47 (m.old.toNat * 2 ^ 14), dst := BitVec.ofNat 47 (m.new.toNat * 2 ^ 14), len := 16384 } }).ceStartCopy
        false false false false

/-- Write HLRES (R272, Table 12.8) and raise EV46. -/
def State.hlResult (s : State) (outcome done : Nat) : State :=
  ({ s with hl := { s.hl with
      resValid := true, resSeq := s.hl.resSeq + 1, resOutcome := BitVec.ofNat 3 outcome, resDone := BitVec.ofNat 9 done } }).setEvent 46

/-- Haulage is enabled (Table 12.4). -/
def State.hen (s : State) : Bool := s.param 0x6000 1 == 1

/-- A request has ended: HLRES, or an ACK to the member that asked (R271, R272). -/
def State.answerRequest (s : State) (sender : Option (BitVec 24 × BitVec 8)) (outcome done : Nat) : State :=
  match sender with
  | none => s.hlResult outcome done
  | some (node, mig) =>
    s.sendDoorbell node (doorWord 8 (if outcome = 0 then 0 else outcome + 1) mig.toNat 0 0 0 s.straps.nodeId.toNat done)

/-- An identifier that no open migration holds, from the next one on. -/
def State.freshMig (s : State) : BitVec 8 :=
  (((List.range 5).map (fun i => s.hl.nextMig + BitVec.ofNat 8 i)).find? (fun x => !s.hl.migrations.any (fun m => m.migid == x))).getD s.hl.nextMig

/-- Steps 1 to 4: open a migration of a page to a target, where the page may move and a free page is there. -/
def State.openMigration (s : State) (page : BitVec 33) (dest : Option (BitVec 5)) (requested : Bool) : Option State :=
  match s.mayMove page, s.freePage dest with
  | some (entry, old), some n =>
    let id := s.freshMig
    let m : Migration :=
      { migid := id, page := page, old := BitVec.ofNat 33 old, new := n, entry := entry,
        phase := if s.hl.members = [] then .copy else .revoke, waits := s.hl.members, reason := 0, requested := requested }
    let s := { s with hl := { s.hl with
      free := s.hl.free.erase n, migrations := s.hl.migrations ++ [m], nextMig := id + 1, begun := s.hl.begun + 1 } }
    let s := ((s.editEntry entry (fun e => putFlag e 3 false)).s2inv (some page)).cleanPage old
    some ((s.tellMembers 1 m).startCopies)
  | _, _ => none

/-- S2INV of a page on this core and, by doorbell, on every member: for a stage-2 change that is no migration (R267). -/
def State.invalidateAll (s : State) (page : BitVec 33) : State :=
  let id := s.freshMig
  let t := ({ s with hl := { s.hl with nextMig := id + 1 } } : State).s2inv (some page)
  t.hl.members.foldl (fun s n => s.sendDoorbell n (doorWord 4 0 id.toNat 0 0 page.toNat s.straps.nodeId.toNat 0)) t

/-- One page of the request being served; none while a migration that it needs must wait for another to close (R265). -/
def State.servePage (s : State) (r : HlRequest) (p : BitVec 33) : Option State :=
  let put (s : State) (r : HlRequest) : State := { s with hl := { s.hl with requests := r :: s.hl.requests.drop 1 } }
  let r := { r with todo := r.todo.drop 1 }
  let counted := { r with done := r.done + 1 }
  let dest : Option (BitVec 5) := if r.op = 3 then some r.stack else none
  match s.pageEntry p with
  | none => some (put s r)
  | some (a, e) =>
    if r.op = 1 ∨ r.op = 2 then 
      some (put ((s.editEntry a (fun e => putFlag e 14 (decide (r.op = 1)))).invalidateAll p) counted)
    else if (s.mayMove p).isNone then some (put s r)
    else if s.liesIn (fieldOf e 16 33) dest then some (put s counted)
    else if 4 ≤ s.hl.migrations.length then none
    else some (((put s r).openMigration p dest true).getD (put s r))

/-- The next of the epoch's choices begins, within HMIGMAX (R270). -/
def State.pumpChosen (s : State) : Option State :=
  match s.hl.chosen with
  | [] => none
  | (p, dest) :: t =>
    if 4 ≤ s.hl.migrations.length || decide (s.param 0x6000 6 ≤ s.hl.begun) || !s.hen || s.isMember then none
    else
      let s := { s with hl := { s.hl with chosen := t } }
      some ((s.openMigration p dest false).getD s)

/-- One step of the home's work: requests are served ahead of the epoch's choices; with HEN = 0 no migration starts and a request
ends with OUTCOME 3 (R270, R272). A member migrates nothing: its requests are its home's to serve (R271). -/
def State.pumpOne (s : State) : Option State :=
  match s.hl.requests with
  | [] => s.pumpChosen
  | r :: rest =>
    let fin (o : Nat) : State := ({ s with hl := { s.hl with requests := rest } }).answerRequest r.sender o r.done
    if s.isMember && s.hen then none
    else if s.hl.migrations.any (·.requested) && (r.todo.isEmpty || !s.hen) then s.pumpChosen
    else if !s.hen then some (fin 3)
    else match r.todo with
      | p :: _ => s.servePage r p
      | [] => some (fin (if r.done = r.count then 0 else if r.done = 0 then 2 else 1))

/-- As many steps as are given. -/
def State.pumpN : Nat → State → State
  | 0, s => s
  | n + 1, s => match s.pumpOne with
    | none => s
    | some t => State.pumpN n t

/-- The home goes on until it must wait. -/
def State.pump (s : State) : State :=
  s.pumpN ((s.hl.requests.map (fun r => r.todo.length + 1)).foldl (· + ·) 0 + s.hl.chosen.length + 1)

/-- Step 11, and the end of a migration. -/
def State.closeMig (s : State) (m : Migration) : State :=
  let s := ((s.retryPage m.page).tellMembers 5 m).dropMig m
  let s := { s with hl := { s.hl with
    free := s.hl.free ++ [m.old], migs := s.hl.migs + 1
    requests := match s.hl.requests with
      | r :: t => if m.requested then { r with done := r.done + 1 } :: t else r :: t
      | [] => [] } }
  s.pump

/-- The last step of an abort (R268). -/
def State.closeAbort (s : State) (m : Migration) : State :=
  let s := (s.retryPage m.page).dropMig m
  let s := { s with hl := { s.hl with free := s.hl.free ++ [m.new], aborts := satInc s.hl.aborts } }
  (s.notice m.page m.reason.toNat).pump

/-- An abort begins: the entry goes back to O with W set, S2INV, ABORT to every member (R268). A member that has not answered the doorbell
before owes that ACK as well, which comes first (R267). -/
def State.abortMig (s : State) (m : Migration) (reason : Nat) : State :=
  let m := { m with phase := .abort, waits := m.waits ++ s.hl.members, reason := BitVec.ofNat 3 reason }
  let s := ((s.editEntry m.entry (pointEntry m.old)).s2inv (some m.page)).setMig m
  if s.hl.members = [] then s.closeAbort m else s.tellMembers 3 m

/-- Steps 7 to 9, or the abort of a failed copy. -/
def State.copyDone (s : State) (m : Migration) : State :=
  if s.ce.status.toNat ≤ 1 then
    let s := ((s.editEntry m.entry (pointEntry m.new)).s2inv (some m.page)).invPage m.old.toNat
    let m := { m with phase := .remap, waits := s.hl.members }
    let s := s.setMig m
    if s.hl.members = [] then s.closeMig m else s.tellMembers 2 m
  else s.abortMig m 3

/-- COPY_ENGINE_COMPLETION: CESTAT and vector 12; firmware goes on with the migration that was copied (14 Table 14.9, Table 12.2). -/
def execCopyEngineCompletion (portError : Bool) (s : State) : Host.Outcome State Fault Refusal :=
  answer s
    (if !s.ce.busy then s
     else
       let s := s.ceFinish portError
       if !s.firmware || s.ce.busy then s
       else match s.hl.migrations.find? (fun m => decide (m.phase = .copy) && m.old.toNat * 2 ^ 14 == s.ce.src.toNat
           && m.new.toNat * 2 ^ 14 == s.ce.dst.toNat) with
         | some m => (s.copyDone m).startCopies
         | none => s.startCopies)

/-- MIGRATION_TIMEOUT: a migration still open is aborted; one whose abort is not answered ends without the answers (R268, log 65). -/
def execMigrationTimeout (migid : BitVec 8) (s : State) : Host.Outcome State Fault Refusal :=
  answer s
    (if !s.firmware then s
     else match s.hl.migrations.find? (fun m => m.migid == migid) with
       | none => s
       | some m => if m.phase = .abort then s.closeAbort m else s.abortMig m 1)

/-- A member's ACK to a migration's doorbell (Table 12.2 steps 4 and 9, R268). -/
def State.ackMig (s : State) (m : Migration) (node : BitVec 24) (status : Nat) : State :=
  let m := { m with waits := m.waits.erase node }
  if status ≠ 0 ∧ m.phase ≠ .abort then s.abortMig m 1
  else if m.waits = [] then
    match m.phase with
    | .revoke => (s.setMig { m with phase := .copy }).startCopies
    | .remap => s.closeMig m
    | .abort => s.closeAbort m
    | .copy => s.setMig m
  else s.setMig m

/-- OUTCOME of a REQUEST's answer (R271). -/
def requestOutcome (status : Nat) : Nat := match status with | 0 => 0 | 2 => 1 | 4 => 3 | _ => 2

/-- ACK: the answer to this member's REQUEST, or a member's ACK to a migration (R267, R271). -/
def execAck (s : State) : Host.Outcome State Fault Refusal :=
  answer s
    (match s.takeDoor 8 with
     | none => s
     | some (t, d) =>
       if t.hl.asked = some (doorMig d) ∧ doorNode d = t.home ∧ t.isMember = true then
         ({ t with hl := { t.hl with asked := none } }).hlResult (requestOutcome (fieldOf d 56 4)) (fieldOf d 64 9)
       else match t.hl.migrations.find? (fun m => m.migid == doorMig d && m.waits.contains (doorNode d)) with
         | some m => t.ackMig m (doorNode d) (fieldOf d 56 4)
         | none => t)

/-! ### Requests (R271, R272) -/

/-- REQBUSY (Table 12.11). -/
def State.reqBusy (s : State) : Bool := s.hl.requests.any (fun r => r.sender.isNone) || s.hl.asked.isSome

/-- The pages of a request that exist, ascending. -/
def requestPages (page : BitVec 33) (count : Nat) : List (BitVec 33) :=
  ((List.range (count + 1)).filter (fun i => decide (page.toNat + i < 2 ^ 33))).map (fun i => BitVec.ofNat 33 (page.toNat + i))

/-- A request as it is served. -/
def requestOf (op count : Nat) (page : BitVec 33) (stack : BitVec 5) (sender : Option (BitVec 24 × BitVec 8)) : HlRequest :=
  { op := BitVec.ofNat 4 op, todo := requestPages page count, count := count + 1, done := 0, stack := stack, sender := sender }

/-- Firmware takes up what HLREQ asked: a member passes it to its home, unless haulage is disabled (R271, log 66). -/
def State.serveRequests (s : State) : State :=
  if !s.isMember || !s.hen then s.pump
  else match s.hl.requests with
    | r :: t =>
      if r.sender.isSome then s.pump
      else
        let page := (r.todo.head?).getD 0
        let s := { s with hl := { s.hl with requests := t, asked := some s.hl.nextMig, nextMig := s.hl.nextMig + 1 } }
        s.sendDoorbell s.home (doorWord 7 0 (s.hl.nextMig - 1).toNat r.op.toNat (if r.op = 3 then s.hl.lstack.toNat else 0) page.toNat
          s.straps.nodeId.toNat (r.count - 1))
    | [] => s

/-- A write of HLREQ (R272): counted and ignored while REQBUSY; a reserved OP asks nothing. -/
def State.hlRequest (s : State) (op count : Nat) (page : BitVec 33) : State :=
  if s.reqBusy then { s with hl := { s.hl with reqign := satInc s.hl.reqign } }
  else if op = 0 ∨ 4 < op then s
  else
    let s := { s with hl := { s.hl with requests := s.hl.requests ++ [requestOf op count page s.hl.lstack none] } }
    if s.firmware then s.serveRequests else s

/-- PIN. -/
def execPin (count : BitVec 8) (iapg : BitVec 33) (s : State) : Host.Outcome State Fault Refusal := answer s (s.hlRequest 1 count.toNat iapg)

/-- UNPIN. -/
def execUnpin (count : BitVec 8) (iapg : BitVec 33) (s : State) : Host.Outcome State Fault Refusal := answer s (s.hlRequest 2 count.toNat iapg)

/-- PROMOTE. -/
def execPromote (count : BitVec 8) (iapg : BitVec 33) (s : State) : Host.Outcome State Fault Refusal :=
  answer s (s.hlRequest 3 count.toNat iapg)

/-- DEMOTE. -/
def execDemote (count : BitVec 8) (iapg : BitVec 33) (s : State) : Host.Outcome State Fault Refusal :=
  answer s (s.hlRequest 4 count.toNat iapg)

/-- REQUEST: the home serves a member's request as its own and answers with ACK (R271). A reserved REQOP is refused; a member, which is no home,
answers STATUS 1 (log 63). -/
def execRequest (s : State) : Host.Outcome State Fault Refusal :=
  answer s
    (match s.takeDoor 7 with
     | none => s
     | some (t, d) =>
       let op := fieldOf d 44 4
       if t.isMember then t.ackDoor d 1 0
       else if op = 0 ∨ 4 < op then t.ackDoor d 3 0
       else
         let r := requestOf op (fieldOf d 64 8) (doorPage d) (BitVec.ofNat 5 (fieldOf d 34 5)) (some (doorNode d, doorMig d))
         ({ t with hl := { t.hl with requests := t.hl.requests ++ [r] } }).pump)

/-- MEMBER_REQUEST_TIMEOUT: no answer within the limit (R271). -/
def execMemberRequestTimeout (s : State) : Host.Outcome State Fault Refusal :=
  answer s (if s.firmware && s.hl.asked.isSome then ({ s with hl := { s.hl with asked := none } }).hlResult 2 0 else s)

/-- HINT: the highest heat of a page stands; a new page in a full store is dropped (R271). -/
def execHint (s : State) : Host.Outcome State Fault Refusal :=
  answer s
    (match s.takeDoor 6 with
     | none => s
     | some (t, d) =>
       let h : Hint := { page := doorPage d, heat := BitVec.ofNat 33 (doorLow d), stack := BitVec.ofNat 5 (fieldOf d 34 5) }
       let l := t.hl.hints
       if l.any (fun x => x.page == h.page) then
         { t with hl := { t.hl with hints := l.map (fun x => if x.page = h.page ∧ x.heat < h.heat then h else x) } }
       else if 256 ≤ l.length then t
       else { t with hl := { t.hl with hints := l ++ [h] } })

/-! ### The epoch (R270, R271) -/

/-- Insertion into a list that falls by its number, after its equals. -/
def insertHot {α : Type} (x : Nat × α) : List (Nat × α) → List (Nat × α)
  | [] => [x]
  | y :: t => if y.1 < x.1 then x :: y :: t else y :: insertHot x t

/-- A list in falling order of its numbers, equals in the order they had. -/
def hottest {α : Type} (l : List (Nat × α)) : List (Nat × α) := l.foldl (fun acc x => insertHot x acc) []

/-- The first candidate of each page. -/
def firstOfPage : List (Nat × BitVec 33 × BitVec 5) → List (Nat × BitVec 33 × BitVec 5)
  | [] => []
  | x :: t => x :: (firstOfPage t).filter (fun y => y.2.1 != x.2.1)

/-- The heat entries in use, in table order. -/
def State.heatEntries (s : State) : List HeatEntry := s.hl.heat.filterMap (fun x => x.2)

/-- Step 1: hot pages of this core outside its near-tier stack (R270). -/
def State.candidates (s : State) : List (Nat × BitVec 33 × BitVec 5) :=
  ((s.heatEntries.map (fun e => (s.heatOf e, e.iapg, s.hl.lstack))).filter (fun x => decide (s.param 0x6000 4 ≤ x.1))).filter (fun x =>
    match s.mayMove x.2.1 with
    | some (_, p) => !s.liesIn p (some s.hl.lstack)
    | none => false)

/-- Every IA page with a valid page entry below a table, with its PA page. -/
def State.tablePages (s : State) (table base : Nat) : List Nat → List (Nat × Nat)
  | [] => []
  | lvl :: rest => (List.range 2048).flatMap (fun i =>
      let e := s.mem.readNat (table + 8 * i) 8
      if entryInvalid e lvl 3 then []
      else if lvl < 2 then s.tablePages (entryOa e) (base * 2048 + i) rest
      else [(base * 2048 + i, fieldOf e 16 33)])

/-- The heat of a page by this table and the hints held; none where it has no entry. -/
def State.pageHeat (s : State) (page : BitVec 33) : Option Nat :=
  let l := (s.heatEntries.filter (fun e => e.iapg == page)).map s.heatOf
    ++ (s.hl.hints.filter (fun h => h.page == page)).map (fun h => h.heat.toNat)
  if l.isEmpty then none else some (l.foldl Nat.max 0)

/-- The cold pages of a region that may move, the coldest first (R270 step 2). -/
def State.coldPages (s : State) (r : Pmat) : List (BitVec 33) :=
  let all := if s.xl.s2en then s.tablePages (s.xl.s2root.toNat * 2 ^ 14) 0 [0, 1, 2] else []
  let mine := (all.filter (fun x => s.poolAt x.2 == some r && (s.mayMove (BitVec.ofNat 33 x.1)).isSome)).map (fun x => BitVec.ofNat 33 x.1)
  let key (p : BitVec 33) : Nat := match s.pageHeat p with | none => 0 | some h => h + 1
  let cold := mine.filter (fun p => decide (key p ≤ s.param 0x6000 5 + 1))
  ((hottest ((cold.reverse).map (fun p => (key p, p)))).reverse).map (·.2)

/-- Pages that a pool lacks of its reserve (R270 step 2). -/
def State.lacks (s : State) (r : Pmat) : Nat := s.param 0x6000 7 - (s.hl.free.filter (fun p => s.poolAt p.toNat == some r)).length

/-- The NEAR pools that lack pages of their reserve. -/
def State.shortPools (s : State) : List (Fin 32 × Pmat) := s.pools.filter (fun x => x.2.tier == 0 && decide (s.lacks x.2 ≠ 0))

/-- A notice for each NEAR pool that lacked pages when the last epoch began and lacks some still, whatever the reason (R272, log 103). -/
def State.owedNotices (s : State) : State :=
  ((s.shortPools.map (·.1)).filter s.hl.owed.contains).foldl (fun s _ => s.notice 0 2) s

/-- Steps 1 to 3 of the home: its choices (R270). -/
def State.choose (s : State) : State :=
  let short := s.shortPools
  let demote := (short.flatMap (fun x => (s.coldPages x.2).take (s.lacks x.2))).map (fun p => (p, (none : Option (BitVec 5))))
  let hints := (s.hl.hints.map (fun h => (h.heat.toNat, h.page, h.stack))).filter (fun x =>
    match s.mayMove x.2.1 with
    | some (_, p) => !s.liesIn p (some x.2.2)
    | none => false)
  let promote := (firstOfPage (hottest (s.candidates ++ hints))).map (fun x => (x.2.1, some x.2.2))
  { s with hl := { s.hl with chosen := demote ++ promote, hints := [], owed := short.map (·.1) } }

/-- A member's hints: one to its home for each candidate, hottest first, at most HMIGMAX (R271). -/
def State.sendHints (s : State) : State :=
  ((hottest s.candidates).take (s.param 0x6000 6)).foldl (fun s x =>
    s.sendDoorbell s.home (doorWord 6 0 0 0 s.hl.lstack.toNat x.2.1.toNat s.straps.nodeId.toNat (Nat.min x.1 (2 ^ 33 - 1)))) s

/-- HAULAGE_EPOCH: a home chooses and begins, a member hints; both age the table (R270, R271). -/
def execHaulageEpoch (s : State) : Host.Outcome State Fault Refusal :=
  answer s
    (if !s.firmware then s
     else
       let s := { s with hl := { s.hl with begun := 0, chosen := [] } }
       if s.isMember then s.serveRequests.sendHints.agePass
       else
         let s := s.owedNotices
         let s := if s.hen then s.choose else { s with hl := { s.hl with hints := [], owed := [] } }
         s.pump.agePass)

end Sys2Proof.Machine
end

