-- ==== Sys2Proof/Machine/Power.lean ====
section
/-! DEFINITION. Power domains and resets (17 R388 to R391, Tables 17.11 to 17.13): the sequencer, the handshakes, CORE reset and
its release, and what firmware writes before it releases the core (17 R393, Table 17.14 step 11). -/

namespace Sys2Proof.Machine

/-! ### Resets (R391) -/

/-- BANKPOL.BOUND after reset: the lowest NBANK − 2 of levels 1 to 6 (05 Table 5.13). -/
def resetBound (b : Build) : BitVec 6 := BitVec.ofNat 6 (2 ^ (b.nbank - 2) - 1)

/-- The levels that own a bank (05 R114). -/
def ownedBanks (b : Build) (bound : BitVec 6) : Vector Bool 8 := Vector.ofFn (fun l => ownsStrict b.nbank bound l)

/-- The tile extension's logic in reset, and the samples and side buffer it had made: queued entries are abandoned, and with them
the journal records that they were to build. -/
def State.resetTile (s : State) : State :=
  { s with
    tile := { Tile.reset with uen := s.tile.uen, en := s.tile.en, evtValid := s.tile.evtValid, evtSeq := s.tile.evtSeq
                              evtIndex := s.tile.evtIndex, evtClass := s.tile.evtClass, evtReg := s.tile.evtReg
                              evtStorage := s.tile.evtStorage, evtMissed := s.tile.evtMissed, evtAddr := s.tile.evtAddr }
    jnl := { s.jnl with pend := s.jnl.pend.filter (fun r => r.data.isSome) }
    assay := { s.assay with side := [], pend := [], widePend := none } }

/-- The tile store's logic and contents in reset: scratch zero, the cache empty, CACHE16 at STEPS. -/
def State.resetStore (s : State) : State :=
  { s with
    mem := { s.mem.writeBackAll.zeroScratch 0 (2 ^ 28) with tsSets := s.tsSteps * 8192 }
    ts := { TileStore.reset with cache16 := BitVec.ofNat 4 s.tsSteps } }

/-- CORE reset (R391): buffered stores and dirty lines are written back, every PD_CORE register takes its reset value, and the
logic of PD_TILE is reset; the vector store and urgent RAM stay. -/
def State.resetCore (s : State) : State :=
  let t : State := ({ s with mem := s.mem.drain }).resetStore.resetTile
  let bound := resetBound s.build
  { t with
    core := { Core.reset with resident := ownedBanks s.build bound }
    wz := Winze.reset, bm := { Banksman.reset with bound := bound }, xl := Xlat.reset, pf := Prefetch.reset, tile := Tile.reset
    jnl := { t.jnl with stepcnt := 0, mbatch := 0, dcur := 0, qword := 0, qstream := 0 }
    assay := { t.assay with
      qs := Assay.reset.qs, albkt := Assay.reset.albkt, rate := Assay.reset.rate, wide := Assay.reset.wide, en := Assay.reset.en
      samples := 0, mismatch := 0, wides := 0, skipped := 0, wskip := 0 }
    res := { t.res with bankPoison := Vector.replicate 8 false } }

/-- A power handshake has completed: CORESTAT.PWRCHG and vector 13 (14 Table 14.9, Table 14.7). -/
def State.powerChanged (s : State) : State :=
  ({ s with dep := { s.dep with pwrchg := true } }).raiseVector 13

/-! ### Firmware's targets (R389) -/

/-- PWRPOL (15 Table 15.4). -/
def State.pwrpol (s : State) : Nat := s.param 0x2000 6

/-- The targets that firmware keeps for TILE, STORE and STORE retention beside CORE: on, unless PWRPOL or a retirement asks
otherwise (R389). -/
def State.policyTargets (s : State) : BitVec 4 :=
  let off := bitOf s.pwrpol 0
  BitVec.ofNat 4 (2 * bit (!off && !s.tileRetired) + 4 * bit (!(off && bitOf s.pwrpol 2)) + 8 * bit (off && bitOf s.pwrpol 1))

/-- Set PWRCTL. -/
def State.setTargets (s : State) (t : BitVec 4) : State := { s with pwr := { s.pwr with targets := t } }

/-- Firmware carries out PWRPOL while PD_CORE is on (R389). -/
def State.applyPolicy (s : State) : State :=
  if s.firmware && decide (s.pwr.core = .on) then s.setTargets ((s.pwr.targets &&& 1) ||| s.policyTargets) else s

/-! ### The sequencer (R389, Table 17.11) -/

/-- No fill of these classes is open (16 R357). -/
def State.noFill (s : State) (l : List (Fin 5)) : Bool := l.all (fun c => s.res.fills[c].openFill.isNone)

/-- What PD_CORE off waits for. -/
def State.coreMayStop (s : State) : Bool :=
  decide (s.pwr.tile = .off) && (decide (s.pwr.store = .off) || decide (s.pwr.store = .retained)) && decide (s.core.mode = .run)
    && s.core.sleeping && s.pickEvent.isNone && s.noFill [3, 4]

/-- Set PD_CORE's state. -/
def State.setCorePower (s : State) (p : PowerSt) : State := { s with pwr := { s.pwr with core := p } }
/-- Set PD_TILE's state. -/
def State.setTilePower (s : State) (p : PowerSt) : State := { s with pwr := { s.pwr with tile := p } }
/-- Set PD_STORE's state. -/
def State.setStorePower (s : State) (p : PowerSt) : State := { s with pwr := { s.pwr with store := p } }

/-- The PD_CORE off sequence: write back, freeze, latch EVPEND bits 32 to 55, lower the request. -/
def State.stopCore (s : State) : State :=
  let t : State := { s with mem := s.mem.drain.writeBackAll, core := { s.core with mode := .held } }
  { t with pwr := { t.pwr with
      core := .falling, wakeLatch := t.bm.evpend &&& 0x00FFFFFF00000000, latching := true } }

/-- PD_CORE follows its target. -/
def State.seqCore (s : State) : State :=
  let on := s.pwr.targets.getLsbD 0
  match s.pwr.core with
  | .off => if on then s.setCorePower .rising else s
  | .on => if !on && s.coreMayStop then s.stopCore else s
  | _ => s

/-- PD_TILE follows its target (06 R148, 16 R357). -/
def State.seqTile (s : State) : State :=
  let on := s.pwr.targets.getLsbD 1 && !s.tileRetired
  match s.pwr.tile with
  | .off => if on && decide (s.pwr.core = .on) && decide (s.pwr.store = .on) then s.setTilePower .rising else s
  | .on =>
    if !on && s.bm.owner.isNone && s.tile.queue.isEmpty && s.noFill [0, 2] then s.resetTile.setTilePower .falling else s
  | _ => s

/-- Scratch and cache are left to a power-down: the cache is written back and dropped, scratch is lost. -/
def State.loseStore (s : State) : State := { s with mem := s.mem.writeBackAll.zeroScratch 0 (2 ^ 28) }

/-- PD_STORE follows its targets; it leaves retention only while PD_CORE is on, whether to serve or to go off (01 R19, log 174). -/
def State.seqStore (s : State) : State :=
  let keep := s.pwr.targets.getLsbD 3
  let on := s.pwr.targets.getLsbD 2 && !keep
  match s.pwr.store with
  | .off => if on && decide (s.pwr.core = .on) then s.setStorePower .rising else s
  | .on =>
    if on || decide (s.pwr.tile ≠ .off) || !s.noFill [1] then s
    else if keep then s.setStorePower .retaining
    else s.loseStore.setStorePower .falling
  | .retained =>
    if keep || decide (s.pwr.core ≠ .on) then s
    else { s with pwr := { s.pwr with store := .retaining, fromRetention := true } }
  | _ => s

/-- The sequencer takes the steps that are permitted, an off sequence from PD_TILE up and an on sequence from PD_CORE down. -/
def State.sequence (s : State) : State := s.seqTile.seqStore.seqCore

/-! ### Before the release (Table 17.14 step 11) -/

/-- A write of a half of a region (04 Tables 4.14 and 4.15): reserved sizes, tiers and ways leave their fields. -/
def Pmat.write (r : Pmat) (second : Bool) (v : Word) : Pmat :=
  let f (lo w : Nat) : BitVec w := v.extractLsb' lo w
  if second then
    { r with
      device := v.getLsbD 0, tier := if f 1 2 = 3 then r.tier else f 1 2, secure := v.getLsbD 3
      ilways := if 5 < (f 4 3).toNat then r.ilways else f 4 3, ilgran := f 7 2, ilfirst := f 9 5 }
  else
    let l := f 0 6
    { r with valid := v.getLsbD 63, base := f 14 33, log2size := if 14 ≤ l.toNat ∧ l.toNat ≤ 47 then l else r.log2size }

/-- Region `n` of TIERMAP; a region not given is invalid (15 Table 15.4). -/
def tierRegion (l : List Byte) (n : Nat) : Pmat :=
  let w (off : Nat) : Word := wd (natOf ((l.drop off).take 8))
  if l.length < 16 * n + 16 then Xlat.reset.pmat[0]
  else (Xlat.reset.pmat[0].write false (w (16 * n))).write true (w (16 * n + 8))

/-- Firmware writes the physical map attribute table from TIERMAP. -/
def State.applyTiermap (s : State) : State :=
  let l := s.storedBytes 0x2000 1 0xA
  s.setPmat (Vector.ofFn (fun n => tierRegion l n.val))

/-- Firmware writes BANKPOL from 0x2000.04, unless its bit 7 keeps the reset value (15 Table 15.4, 05 R116). -/
def State.applyBankpol (s : State) : State :=
  let v := s.param 0x2000 4
  if bitOf v 7 then s
  else
    let b : BitVec 6 := BitVec.ofNat 6 (v / 2)
    let b := if s.build.nbank - 2 < ((List.range 6).filter (fun i => b.getLsbD i)).length then s.bm.bound else b
    { s with bm := { s.bm with bound := b, spill := bitOf v 0 }
             core := { s.core with resident := ownedBanks s.build b } }

/-! ### CORE reset (R391) -/

/-- The vector of cause 0 and level 0's exception registers for it: EINFO[1:0] is 0 at the first release after PD_AON reset, 2 after
a power-up, else 1 (05 Table 5.9). -/
def Bank.atReset (b : Bank) (p : Power) : Bank :=
  { b with
    ecause := 0, eaddr := 0, pc := vectorOf 0, excm := true
    einfo := if p.firstRelease then 0 else if p.poweredUp then 2 else 1 }

/-- The release of CORE reset: WZCFG is sampled (02 R57), the events of the wake latch go into EVPEND, and the core starts at
cause 0 (R391, Table 17.12). -/
def State.startCore (s : State) : State :=
  let d := s.straps.wzDecl
  let t : State := s.setBankOf 0 ((s.bankOf 0).atReset s.pwr)
  { t with
    core := { t.core with mode := .run, taskRunning := true }
    wz := { t.wz with
      maxlat := if d.extractLsb' 3 12 = 0 then 4095 else d.extractLsb' 3 12, idemp := d.getLsbD 2, specsafe := d.getLsbD 1 }
    bm := { t.bm with evpend := (t.bm.evpend &&& 0xFFFFFFFF00000000) ||| t.pwr.wakeLatch ||| t.pwr.irq.setWidth 64 }
    pwr := { t.pwr with
      coreReset := false, firstRelease := false, poweredUp := false, tail := false, wakeLatch := 0, latching := false } }

/-- CORERST.RELEASE: ignored while PD_CORE is off, out of reset, or with the core retired (Table 17.12, 16 Table 16.6). Clocks frozen in
reset stay frozen (R391). -/
def State.releaseCore (s : State) : State :=
  if s.pwr.core ≠ .on ∨ s.pwr.coreReset = false ∨ s.pwr.coreRetired then s
  else
    let t := s.startCore
    if s.core.heldFrozen then { t with core := { t.core with mode := .frozen, heldFrozen := false } } else t

/-- Firmware's release: steps 10 and 11 of the tail come first where they are due (R393); the vector store's contents are firmware's
own (log 61). -/
def State.releaseTail (s : State) : State :=
  if s.pwr.tail && s.pwr.coreReset && s.firmware && decide (s.pwr.core = .on) then s.applyTiermap.applyBankpol.releaseCore
  else s.releaseCore

/-- Firmware begins the restart tail: it switches on what is off (R393 steps 7 and 8). -/
def State.beginTail (s : State) : State :=
  if s.firmware && !s.pwr.coreRetired then
    let t : State := s.setTargets (1 ||| s.policyTargets)
    { t with pwr := { t.pwr with tail := true } }
  else s

/-- CORERST.ASSERT (R391): the clocks run again, the caches are written back, and PD_CORE and PD_TILE are held in reset; ignored while
PD_CORE is off (Table 17.12). Events wait in the wake latch until the release (log 69). -/
def State.assertCore (s : State) : State :=
  if s.pwr.core ≠ .on then s
  else
    let t : State := s.resetCore
    { t with pwr := { t.pwr with coreReset := true, latching := true, wakeLatch := 0 } }

/-! ### Handshakes (R388) -/

/-- PD_CORE has been powered: CORE reset is held, and firmware begins the restart tail. -/
def State.coreUp (s : State) : State :=
  let t : State := (s.setCorePower .on).resetCore
  let u : State := { t with pwr := { t.pwr with coreReset := true, poweredUp := true } }
  ((u.powerChanged.openQueued 3).openQueued 4).beginTail

/-- PD_CORE has lost its power: nothing of it is kept; a wake source that came since lets the on sequence follow (R390). -/
def State.coreDown (s : State) : State :=
  let t : State := s.resetCore
  let u : State := { t with
    mem := { t.mem with onCore := [], onCorePoison := [] }, pwr := { t.pwr with core := .off, wakeAgain := false } }
  u.powerChanged

/-- PWR_ACK of a domain reaches a level; it means something only where the request waits for that level. -/
def State.powerAck (s : State) (d : Domain) (level : Bool) : State :=
  match d with
  | .core =>
    match s.pwr.core, level with
    | .rising, true => s.coreUp
    | .falling, false => s.coreDown
    | _, _ => s
  | .tile =>
    match s.pwr.tile, level with
    | .rising, true => (((s.setTilePower .on).resetTile.powerChanged).openQueued 0).openQueued 2
    | .falling, false => (s.setTilePower .off).powerChanged
    | _, _ => s
  | .store =>
    match s.pwr.store, level with
    | .rising, true => (((s.setStorePower .on).loseStore).powerChanged).openQueued 1
    | .falling, false => (s.setStorePower .off).powerChanged
    | _, _ => s

/-- PWR_RETACK_STORE reaches a level. -/
def State.retAck (s : State) (level : Bool) : State :=
  match s.pwr.store with
  | .retaining =>
    if s.pwr.fromRetention = level then s
    else if level then (s.setStorePower .retained).powerChanged
    else
      let t : State := { s with pwr := { s.pwr with store := .on, fromRetention := false } }
      t.powerChanged.openQueued 1
  | _ => s

/-- A request of the domain waits for its acknowledgement. -/
def PowerSt.moving (p : PowerSt) : Bool := p == .rising || p == .falling || p == .retaining

/-- The state of a domain. -/
def Power.of (p : Power) : Domain → PowerSt
  | .core => p.core
  | .tile => p.tile
  | .store => p.store

/-- PWR_ACK does not follow in time: PWRSTAT.ERR and vector 13; the request stays (R388). -/
def State.ackTimeout (s : State) (d : Domain) : State :=
  if (s.pwr.of d).moving then ({ s with pwr := { s.pwr with err := true } }).raiseVector 13 else s

/-! ### Commands -/

/-- PD_CORE_OFF: the target of PD_CORE is off (R389). -/
def execPdCoreOff (s : State) : Host.Outcome State Fault Refusal := answer s (s.setTargets (s.pwr.targets &&& 0xE)).sequence

/-- PD_CORE_ON. -/
def execPdCoreOn (s : State) : Host.Outcome State Fault Refusal := answer s (s.setTargets (s.pwr.targets ||| 1)).sequence

/-- PD_TILE_OFF. -/
def execPdTileOff (s : State) : Host.Outcome State Fault Refusal := answer s (s.setTargets (s.pwr.targets &&& 0xD)).sequence

/-- PD_TILE_ON. -/
def execPdTileOn (s : State) : Host.Outcome State Fault Refusal := answer s (s.setTargets (s.pwr.targets ||| 2)).sequence

/-- PD_STORE_OFF. -/
def execPdStoreOff (s : State) : Host.Outcome State Fault Refusal := answer s (s.setTargets (s.pwr.targets &&& 3)).sequence

/-- PD_STORE_RETENTION. -/
def execPdStoreRetention (s : State) : Host.Outcome State Fault Refusal := answer s (s.setTargets (s.pwr.targets ||| 8)).sequence

/-- PD_STORE_ON. -/
def execPdStoreOn (s : State) : Host.Outcome State Fault Refusal :=
  answer s (s.setTargets ((s.pwr.targets &&& 7) ||| 4)).sequence

/-- PWR_ACK (R388). -/
def execPwrAck (domain : Domain) (level : Bool) (s : State) : Host.Outcome State Fault Refusal :=
  answer s (s.powerAck domain level).sequence

/-- PWR_RETACK_STORE (R388). -/
def execPwrRetackStore (level : Bool) (s : State) : Host.Outcome State Fault Refusal := answer s (s.retAck level).sequence

/-- PWR_ACK_TIMEOUT (R388). -/
def execPwrAckTimeout (domain : Domain) (s : State) : Host.Outcome State Fault Refusal := answer s (s.ackTimeout domain)

/-- VID_OK: the supply has settled at VID_REQ (R375). -/
def execVidOk (s : State) : Host.Outcome State Fault Refusal := answer s { s with pwr := { s.pwr with vidOk := true } }

/-- CORERST_ASSERT: CORERST.ASSERT, after which firmware runs the restart tail up to the release (R391, R393). -/
def execCorerstAssert (s : State) : Host.Outcome State Fault Refusal :=
  answer s (if s.pwr.core = .on then s.assertCore.beginTail.sequence else s)

/-- CORERST_RELEASE (R391, R393). -/
def execCorerstRelease (s : State) : Host.Outcome State Fault Refusal := answer s s.releaseTail

end Sys2Proof.Machine
end

