-- ==== Sys2Proof/Machine/Rom.lean ====
section
/-! DEFINITION. Secure boot of the deputy (14 R318 to R322): SHA-384, ECDSA over P-384, the checks of the firmware image and its
loading into program SRAM, and the deputy's reset (R302, R324). -/

namespace Sys2Proof.Machine

/-! ### SHA-384 (R319)

FIPS 180-4 gives the round constants as the first 64 bits of the fractional parts of the cube roots of the first 80 primes, and the
initial hash value as those of the square roots of the 9th to the 16th. Both are computed here. The chaining value is kept as two
histories, newest first: the words that the standard calls a to d, and e to h. -/

/-- The largest number from `r` upward, its `n` low bits free, whose `k`-th power does not exceed `t`. -/
def rootFrom (k t : Nat) : Nat → Nat → Nat
  | 0, r => r
  | n + 1, r => rootFrom k t n (if (r + 2 ^ n) ^ k ≤ t then r + 2 ^ n else r)

/-- The first 64 bits of the fractional part of the `k`-th root of `p`. -/
def rootFraction (k p : Nat) : Word := wd (rootFrom k (p * 2 ^ (64 * k)) 70 0)

/-- The primes up to 409: 80 of them. -/
def shaPrimes : List Nat := (List.range 410).filter (fun p => decide (2 ≤ p) && (List.range 21).all (fun d => d < 2 || p ≤ d || p % d != 0))

/-- The exclusive or of a word's rotations to the right, and of the word shifted right where `shift` is not 0. -/
def turns (rot : List Nat) (shift : Nat) (x : Word) : Word :=
  rot.foldl (fun v r => v ^^^ x.rotateRight r) (if shift = 0 then 0 else x >>> shift)

/-- The chaining value. -/
structure ShaChain where
  /-- a, b, c, d. -/
  left : List Word
  /-- e, f, g, h. -/
  right : List Word
  deriving DecidableEq, Repr

/-- The initial hash value of SHA-384. -/
def ShaChain.init : ShaChain :=
  let h := ((shaPrimes.drop 8).take 8).map (rootFraction 2)
  { left := h.take 4, right := h.drop 4 }

/-- One round, its constant and schedule word added up: each history gains its newest word and loses its oldest. -/
def ShaChain.next (x : ShaChain) (kw : Word) : ShaChain :=
  match x.left, x.right with
  | [a0, a1, a2, a3], [e0, e1, e2, e3] =>
    let add := e3 + kw + turns [14, 18, 41] 0 e0 + ((e0 &&& e1) ||| (~~~e0 &&& e2))
    { left := [add + turns [28, 34, 39] 0 a0 + ((a0 &&& a1) ||| (a2 &&& (a0 ||| a1))), a0, a1, a2]
      right := [a3 + add, e0, e1, e2] }
  | _, _ => x

/-- Grow a message schedule, newest first, by `n` words. -/
def shaSchedule : Nat → List Word → List Word
  | 0, w => w
  | n + 1, w =>
    let back (i : Nat) : Word := (w[i]?).getD 0
    shaSchedule n ((turns [19, 61] 6 (back 1) + back 6 + turns [1, 8] 7 (back 14) + back 15) :: w)

/-- The number whose bytes are these, the first most significant. -/
def natBig (l : List Byte) : Nat := l.foldl (fun n b => n * 256 + b.toNat) 0

/-- The bytes of a number, the most significant first. -/
def bytesBig (n v : Nat) : List Byte := (bytesOf n v).reverse

/-- Fold a block of 128 bytes into the chaining value, the round constants being given. -/
def ShaChain.absorb (ks : List Word) (x : ShaChain) (block : List Byte) : ShaChain :=
  let first := (List.range 16).map (fun i => wd (natBig ((block.drop (8 * i)).take 8)))
  let y := (List.zipWith (· + ·) ks (shaSchedule 64 first.reverse).reverse).foldl ShaChain.next x
  { left := List.zipWith (· + ·) x.left y.left, right := List.zipWith (· + ·) x.right y.right }

/-- SHA-384 of a byte string: 48 bytes. -/
def sha384 (m : List Byte) : List Byte :=
  let padded := m ++ [0x80#8] ++ List.replicate ((239 - m.length % 128) % 128) 0 ++ bytesBig 16 (8 * m.length)
  let ks := shaPrimes.map (rootFraction 3)
  let x := (List.range (padded.length / 128)).foldl (fun x i => x.absorb ks ((padded.drop (128 * i)).take 128)) ShaChain.init
  ((x.left ++ x.right).take 6).flatMap (fun v => bytesBig 8 v.toNat)

/-! ### ECDSA over P-384 (R319) -/

/-- The field prime of P-384. -/
def p384 : Nat := 2 ^ 384 - 2 ^ 128 - 2 ^ 96 + 2 ^ 32 - 1
/-- The coefficient b of P-384. -/
def p384b : Nat := 0xb3312fa7e23ee7e4988e056be3f82d19181d9c6efe8141120314088f5013875ac656398d8a2ed19d2a85c8edd3ec2aef
/-- The order of P-384's base point. -/
def p384n : Nat := 0xffffffffffffffffffffffffffffffffffffffffffffffffc7634d81f4372ddf581a0db248b0a77aecec196accc52973
/-- The base point's x. -/
def p384x : Nat := 0xaa87ca22be8b05378eb1c71ef320ad746e1d3b628ba79b9859f741e082542a385502f25dbf55296c3a545e3872760ab7
/-- The base point's y. -/
def p384y : Nat := 0x3617de4a96262c6f5d9e98bf9292dc29f8f41dbd289a147ce9da3113b5f0b8c00a60b1ce1d7e819d7a431d7c90ea0e5f

/-- A power modulo `m`; the fuel bounds the bits of the exponent. -/
def powMod (m : Nat) : Nat → Nat → Nat → Nat
  | 0, _, _ => 1 % m
  | n + 1, b, e =>
    if e = 0 then 1 % m
    else
      let r := powMod m n (b * b % m) (e / 2)
      if e % 2 = 1 then r * b % m else r

/-- The inverse modulo a prime of 384 bits. -/
def invMod (m a : Nat) : Nat := powMod m 384 (a % m) (m - 2)

/-- A point in Jacobian coordinates; z = 0 is the point at infinity. -/
structure Pt where
  x : Nat
  y : Nat
  z : Nat
  deriving DecidableEq, Repr

/-- Difference modulo the field prime. -/
def subP (a b : Nat) : Nat := (a + p384 - b % p384) % p384

/-- Doubling on P-384, where a = -3. -/
def Pt.double (q : Pt) : Pt :=
  if q.z = 0 ∨ q.y = 0 then { x := 1, y := 1, z := 0 }
  else
    let d := q.z * q.z % p384
    let g := q.y * q.y % p384
    let b := q.x * g % p384
    let al := 3 * (subP q.x d * ((q.x + d) % p384)) % p384
    let x := subP (al * al % p384) (8 * b)
    { x := x, y := subP (al * subP (4 * b) x % p384) (8 * (g * g % p384)), z := 2 * (q.y * q.z) % p384 }

/-- Addition on P-384. -/
def Pt.add (q r : Pt) : Pt :=
  if q.z = 0 then r else if r.z = 0 then q
  else
    let zq := q.z * q.z % p384
    let zr := r.z * r.z % p384
    let u1 := q.x * zr % p384
    let u2 := r.x * zq % p384
    let s1 := q.y * (r.z * zr % p384) % p384
    let s2 := r.y * (q.z * zq % p384) % p384
    if u1 = u2 then (if s1 = s2 then q.double else { x := 1, y := 1, z := 0 })
    else
      let h := subP u2 u1
      let k := subP s2 s1
      let h2 := h * h % p384
      let h3 := h * h2 % p384
      let v := u1 * h2 % p384
      let x := subP (subP (k * k % p384) h3) (2 * v)
      { x := x, y := subP (k * subP v x % p384) (s1 * h3), z := h * (q.z * r.z % p384) % p384 }

/-- A multiple of a point; the fuel bounds the bits of the factor. -/
def Pt.mul : Nat → Nat → Pt → Pt
  | 0, _, _ => { x := 1, y := 1, z := 0 }
  | n + 1, k, q =>
    if k = 0 then { x := 1, y := 1, z := 0 }
    else
      let r := Pt.mul n (k / 2) q.double
      if k % 2 = 1 then r.add q else r

/-- ECDSA verification of a digest of 384 bits under a public key. -/
def ecdsaVerify (qx qy r s : Nat) (digest : List Byte) : Bool :=
  let z := natBig digest
  let inRange (v : Nat) : Bool := decide (1 ≤ v) && decide (v < p384n)
  let onCurve := decide (qx < p384) && decide (qy < p384) && (qy * qy % p384 == subP ((qx * qx * qx + p384b) % p384) (3 * qx))
  if !inRange r || !inRange s || !onCurve then false
  else
    let w := invMod p384n s
    let pt := (Pt.mul 384 (z * w % p384n) { x := p384x, y := p384y, z := 1 }).add (Pt.mul 384 (r * w % p384n) { x := qx, y := qy, z := 1 })
    if pt.z = 0 then false
    else
      let iz := invMod p384 pt.z
      pt.x * (iz * iz % p384) % p384 % p384n == r

/-! ### The image (Table 14.11) -/

/-- A field of the image's bytes. -/
def imageField (l : List Byte) (off n : Nat) : Nat := natOf ((l.drop off).take n)

/-- The 14-bit words of a section, two bytes each. -/
def imageWords : List Byte → List Nat
  | a :: b :: t => (a.toNat + 256 * b.toNat) :: imageWords t
  | _ => []

/-- Load words into program SRAM upward from an address. -/
def Deputy.loadWords (d : Deputy) : Nat → List Nat → Deputy
  | _, [] => d
  | a, w :: t => (d.progSet a (BitVec.ofNat 14 w)).loadWords (a + 1) t

/-- The vendor words as they are read back, each two bytes with bits [15:14] zero (R319). -/
def Deputy.readBack (d : Deputy) (n : Nat) : List Byte := (List.range n).flatMap (fun a => bytesOf 2 (d.progGet a).toNat)

/-- The bytes of an image whose header is this: its length. -/
def imageLength (h : List Byte) : Nat := 0x100 + 2 * imageField h 0x0C 2 + 2 * imageField h 0x0E 2

/-- The image has the form of Table 14.11 (R319, first check). -/
def imageFormed (l : List Byte) : Bool :=
  let v := imageField l 0x0C 2
  imageField l 0 4 == 0x44505447 && imageField l 4 2 == 1 && imageField l 6 2 == 0 && decide (1 ≤ v) && decide (v ≤ 14336)
    && decide (imageField l 0x0E 2 ≤ 2048) && imageField l 0xD8 40 == 0 && decide (imageLength l ≤ l.length)
    && ((imageWords ((l.drop 0x100).take (2 * v))).all (fun w => decide (w < 2 ^ 14)))

/-- The deputy's registers and window state after its reset; WDREC, CORESTAT, the ROM and the data SRAM stay (R302, R324). -/
def Deputy.restart (d : Deputy) : Deputy :=
  { Deputy.reset with
    rom := d.rom, data := d.data, dataBad := d.dataBad, recValid := d.recValid, recSeq := d.recSeq, recCause := d.recCause
    recPc := d.recPc, recBlock := d.recBlock, esc2 := d.esc2, dumpreq := d.dumpreq, pwrchg := d.pwrchg }

/-- BOOTSTAT is notified where it differs from what it was before (15 R341). -/
def State.bootChanged (s before : State) : State := if s.dep.boot = before.dep.boot then s else s.notifyBoot

/-- ROM stops: BOOTSTAT takes a status, which is notified (R319, 15 R341). -/
def State.bootStop (s : State) (status : Nat) : State :=
  ({ s with dep := { s.dep with bootStatus := BitVec.ofNat 4 status } }).notifyBoot

/-- The boot has failed: the status of the failed check, then ROM enables the CAN controller at rate code 0 and waits for a recovery
image; with MGMT_NODE = 0 the controller stays disabled (R321, 15 R338). -/
def State.bootFail (s : State) (status : Nat) : State :=
  let s := s.bootStop status
  ({ s with can := { s.can with en := decide (s.straps.mgmtNode ≠ 0), drate := 0 } }).bootStop 6

/-- The checks of R319 on an image, and what follows from them (R320, R321); the image came over the field network where
`recovery` says so. -/
def State.checkImage (s : State) (l : List Byte) (recovery : Bool) : State :=
  let s : State := { s with dep := { s.dep with prog := [], progBad := [] } }
  if !imageFormed l then s.bootFail 2
  else
    let v := imageField l 0x0C 2
    let x := imageField l 0x0E 2
    let s : State := { s with dep := s.dep.loadWords 0 (imageWords ((l.drop 0x100).take (2 * v))) }
    let key := (l.drop 0x10).take 96
    if s.straps.fuseHash = 0 ∨ natOf (sha384 key) ≠ s.straps.fuseHash.toNat then s.bootFail 3
    else if !ecdsaVerify (natBig (key.take 48)) (natBig (key.drop 48)) (natBig ((l.drop 0x70).take 48)) (natBig ((l.drop 0xA0).take 48))
        (sha384 (l.take 0x70 ++ s.dep.readBack v)) then s.bootFail 4
    else
      let ext := (l.drop (0x100 + 2 * v)).take (2 * x)
      let ok := decide (0 < x) && crc64 (natOf ext) (2 * x) == imageField l 0xD0 8
      let d := if ok then s.dep.loadWords 0x3800 (imageWords ext) else s.dep
      ({ s with dep := { d with
          extEn := ok, xok := ok, recov := recovery, lock := true, fwver := BitVec.ofNat 32 (imageField l 8 4)
          pc := 0, sp := 0x8000, splo := 0x7F00, sphi := 0x7FFF, bank := 0, ie := false, winsel := 0, pair := none, waiting := false
          retiShadow := false } }).bootStop 1

/-- The image at BOOT_BASE, as ROM reads it (R318, 17 R377). -/
def State.bootImage (s : State) : List Byte :=
  let base := s.straps.bootBase.toNat * 2 ^ 14
  match s.ceBytes base 0x100 with
  | none => []
  | some h => (s.ceBytes base (imageLength h)).getD []

/-- ROM goes on once the fuse port is ready: while it is not, it waits before the key check (17 R373, R319). -/
def State.romImage (s : State) : State :=
  let s := s.ceOffer (s.straps.bootBase.toNat * 2 ^ 14) 0x100
  let l := s.bootImage
  if !imageFormed l then ({ s with dep := { s.dep with prog := [], progBad := [] } }).bootFail 2
  else if s.straps.fuseRdy then s.checkImage l false else s

/-- ROM from deputy reset: the blocks that fail its test, of which it can spare one (R318); then the image. -/
def State.romBoot (s : State) (failing : List (BitVec 4)) : State :=
  let s : State := { s with dep := { s.dep with prog := [], progBad := [] } }
  match failing with
  | [] => s.romImage
  | [b] => ({ s with dep := { s.dep with spen := true, spblk := b } }).romImage
  | _ => ({ s with dep := { s.dep with halted := true } }).bootStop 5

/-- Deputy reset: the deputy alone, its staging buffers discarded, the open request of the dictionary left for its answer; ROM boots
again, sparing the blocks that fail (R304, R318, R324). -/
def State.deputyReset (s : State) (bad : Option (BitVec 4)) : State :=
  let old := if s.dep.spen then [s.dep.spblk] else []
  let failing := old ++ bad.toList.filter (fun b => !old.contains b)
  -- the spare block fails where the block named is already spared
  let failing := if bad.isSome && old == bad.toList then old ++ old else failing
  let t : State := { s with dep := s.dep.restart, dict := { s.dict with staging := Vector.replicate 3 none } }
  (((t.bootChanged s).romBoot failing).blockSpared s)

/-- FUSE_RDY: the key hash on the fuse port is valid (17 R373); the boot may proceed to its key check. -/
def execFuseRdy (s : State) : Host.Outcome State Fault Refusal := answer s { s with straps := { s.straps with fuseRdy := true } }

end Sys2Proof.Machine
end

