-- ==== Sys2Proof/Machine/Dict.lean ====
section
/-! DEFINITION. The dictionary engine (15 R328 to R344, R349): requests of the field network, the fabric and the CSR path, the order
in which they are served, READ, WRITE and BLOCK READ, and the answers. -/

namespace Sys2Proof.Machine

/-! ### Requests -/

/-- Fields of a request's frame (Table 15.13). -/
def DictReq.field (r : DictReq) (lo w : Nat) : Nat := fieldOf r.frame.toNat lo w
/-- INDEX. -/
def DictReq.index (r : DictReq) : Nat := r.field 0 16
/-- SUBINDEX. -/
def DictReq.sub (r : DictReq) : Nat := r.field 16 8
/-- TYPE. -/
def DictReq.type (r : DictReq) : Nat := r.field 28 4
/-- OFFSET. -/
def DictReq.off (r : DictReq) : Nat := r.field 32 24
/-- LEN. -/
def DictReq.len (r : DictReq) : Nat := r.field 56 6
/-- LAST. -/
def DictReq.last (r : DictReq) : Bool := bitOf r.frame.toNat 62
/-- The data bytes. -/
def DictReq.data (r : DictReq) : List Byte := bytesOf r.len (r.field 64 448)
/-- COUNT of a block read (R340). -/
def DictReq.count (r : DictReq) : Nat := r.field 64 32

/-- A malformed request, one shorter than its LEN, or one with a reserved field set: answered SERVICE (R339, Table 15.14, R340, log 67). -/
def DictReq.malformed (r : DictReq) : Bool :=
  decide (r.bytes < 8 + r.len) || r.field 24 4 != 0 || bitOf r.frame.toNat 63 || decide (56 < r.len)
    || (match r.service.toNat with
        | 1 => r.type != 0 || r.len != 0
        | 2 => false
        | 3 => r.type != 0 || r.len != 4 || decide (r.count < 1) || decide (3584 < r.count)
        | _ => true)

/-- The requester is secure (R330). -/
def State.reqSecure (s : State) (r : DictReq) : Bool :=
  match r.path with
  | 0 => !s.straps.secen || s.param 0x8000 3 == 1
  | 1 => !s.straps.secen || r.secure
  | _ => false

/-- The value may be longer than a frame and is addressed by OFFSET (R329, R340). -/
def pieceType (type : Nat) : Bool := type == 9 || type == 0xA || type == 0xB

/-- What an answer holds besides the request's own fields, the state after it, and the image whose checks it starts (R342). -/
structure DictAns where
  /-- State after the request. -/
  s : State
  /-- STATUS. -/
  status : Nat
  /-- The entry's type. -/
  type : Nat := 0
  /-- The data reach the end. -/
  last : Bool := false
  /-- Data. -/
  data : List Byte := []
  /-- The recovery image that is complete. -/
  image : Option (List Byte) := none

/-! ### Serving (R328 to R342) -/

/-- The request is answered UNAVAIL: firmware does not run, ROM awaits a recovery image, or the check of DUMPBASE needs the physical map,
which lies in PD_CORE, while it is off (R332, R342, R347, log 179). -/
def State.dictUnavail (s : State) (r : DictReq) : Bool :=
  let st := s.dep.bootStatus
  if r.index = 0x1000 ∨ r.index = 0x1100 then false
  else if r.index = 0x7000 ∧ r.sub = 2 ∧ r.service = 2 ∧ st = 1 then decide (s.pwr.core ≠ .on)
  else if r.index = 0x8010 then decide (st = 6) && !(r.sub == 1 && r.service == 2 && r.path == 0)
  else !(st == 1)

/-- The most bytes that an answer carries: 56 in a frame, 8 on the CSR path, COUNT in a block read. -/
def DictReq.room (r : DictReq) : Nat := if r.service = 3 then r.count else if r.path = 2 then 8 else 56

/-- READ and BLOCK READ of an entry (R340). -/
def State.dictRead (s : State) (r : DictReq) (type : Nat) (right : Right) : DictAns :=
  let v := s.entryBytes r.index r.sub type
  if right = .wo then { s := s, status := 3, type := type }
  else if v.length ≤ r.off || (decide (0 < r.off) && !pieceType type) then { s := s, status := 6, type := type }
  else
    let d := (v.drop r.off).take r.room
    { s := s, status := 0, type := type, last := decide (r.off + d.length = v.length), data := d }

/-- The status that an entry's rights give a write (Table 15.2); FWIMAGE is written only while a recovery image is awaited (R342). -/
def State.writeRight (s : State) (r : DictReq) (right : Right) : Nat :=
  match right with
  | .ro | .const => 3
  | .rw => 0
  | .wo => if s.dep.bootStatus = 6 then 0 else 3
  | .rws => if s.reqSecure r then 0 else 4

/-- An accepted value takes effect; reserved bits are ignored, HFILLW goes into HTCFG too, and firmware carries
out PWRPOL (00 R12, 12 R263, 17 R389). -/
def State.acceptEntry (s : State) (idx sub : Nat) (v : List Byte) : State :=
  let v := if idx = 0x2000 ∧ sub = 6 then bytesOf 1 (natOf v % 8)
    else if idx = 0x6000 ∧ sub = 0xB then bytesOf 4 (natOf v % 2 ^ 24) else v
  let s := s.setEntry idx sub v
  if idx = 0x6000 ∧ sub = 3 then { s with hl := { s.hl with hfillw := BitVec.ofNat 8 (natOf v) } }
  else if idx = 0x2000 ∧ sub = 6 then s.applyPolicy.sequence
  else s

/-- Replace a path's staging buffer. -/
def State.setStaging (s : State) (path : BitVec 2) (x : Option Staging) : State :=
  { s with dict := { s.dict with staging := s.dict.staging.setIfInBounds path.toNat x } }

/-- The bytes staged for an entry on a path. -/
def State.stagedFor (s : State) (r : DictReq) : List Byte :=
  match (s.dict.staging[r.path.toNat]?).getD none with
  | some x => if x.key = dkey r.index r.sub then x.bytes else []
  | none => []

/-- ROM takes the pieces of a recovery image: its vendor words go to program SRAM as they come, the rest into staging (14 R321, R342). -/
def State.takeImage (s : State) (r : DictReq) (bytes : List Byte) : State :=
  if r.index = 0x8010 then
    { s with dep := s.dep.loadWords 0 (imageWords ((bytes.drop 0x100).take (2 * imageField bytes 0x0C 2))) }
  else s

/-- WRITE of a piece of a STR or DOMAIN (R340): only the last is checked against rights and range. A piece that is refused leaves nothing
staged. -/
def State.dictPiece (s : State) (r : DictReq) (type : Nat) (right : Right) : DictAns :=
  let held := s.stagedFor r
  let gone := s.setStaging r.path none
  if right = .wo ∧ s.dep.bootStatus ≠ 6 then { s := gone, status := 3, type := type }
  else if r.type ≠ type then { s := gone, status := 5, type := type }
  else if r.off ≠ held.length then { s := gone, status := 6, type := type }
  else
    let bytes := held ++ r.data
    if !r.last then
      { s := (s.setStaging r.path (some { key := dkey r.index r.sub, bytes := bytes })).takeImage r bytes, status := 0, type := type }
    else
      let st := s.writeRight r right
      if st ≠ 0 then { s := gone, status := st, type := type }
      else if right = .wo then { s := gone, status := 0, type := type, image := some bytes }
      else if !s.valueOk r.index r.sub type bytes then { s := gone, status := 6, type := type }
      else { s := gone.acceptEntry r.index r.sub bytes, status := 0, type := type }

/-- WRITE of an entry (R340). -/
def State.dictWrite (s : State) (r : DictReq) (type : Nat) (right : Right) : DictAns :=
  if pieceType type && type != 0xB then s.dictPiece r type right
  else
    let st := s.writeRight r right
    if st ≠ 0 then { s := s, status := st, type := type }
    else if r.type ≠ type ∨ r.off ≠ 0 ∨ r.last = false ∨ typeSize type ≠ some r.len then { s := s, status := 5, type := type }
    else if !s.valueOk r.index r.sub type r.data then { s := s, status := 6, type := type }
    else { s := s.acceptEntry r.index r.sub r.data, status := 0, type := type }

/-- The answer to a request, its checks in the order of log 67. -/
def State.dictAnswer (s : State) (r : DictReq) : DictAns :=
  let type := s.entryType r.index r.sub
  if r.malformed then { s := s, status := 9, type := type }
  else if s.dict.bad then { s := { s with dict := { s.dict with bad := false } }, status := 10, type := type }
  else if s.dictUnavail r then { s := s, status := 7, type := type }
  else match s.lookEntry r.index r.sub with
    | .noIndex => { s := s, status := 1 }
    | .noSub => { s := s, status := 2 }
    | .entry type right => if r.service = 2 then s.dictWrite r type right else s.dictRead r type right

/-! ### Answers on the three paths (R338, R343, R344) -/

/-- Install the result of the CSR path: DICT_RES and DICT_DATA together (R344). -/
def State.installResult (s : State) (frame : BitVec 512) : State :=
  let f := frame.toNat
  let n := Nat.min 8 (fieldOf f 56 6)
  { s with dict := { s.dict with
      csrBusy := false, resValid := true, resSeq := s.dict.resSeq + 1, resStatus := BitVec.ofNat 4 (fieldOf f 24 4)
      resType := BitVec.ofNat 4 (fieldOf f 28 4), resLen := BitVec.ofNat 4 n, resLast := bitOf f 62
      resData := wd (fieldOf f 64 (8 * n)) } }

/-- Send one answering frame by the request's path; a broadcast WRITE is not answered (R338). -/
def State.sendAnswer (s : State) (r : DictReq) (frame : BitVec 512) : State :=
  match r.path with
  | 0 =>
    if r.broadcast && r.service == 2 then s
    else s.sendCan (canIdent r.prio.toNat r.source.toNat s.straps.mgmtNode.toNat r.service.toNat true r.tid.toNat) frame
  | 1 =>
    let w := r.service.toNat + 2 ^ 4 + r.tid.toNat * 2 ^ 5 + s.straps.nodeId.toNat * 2 ^ 12
    s.sendPacket 0xA { s.packetTo r.source with inl := BitVec.ofNat 768 (w + 2 ^ 128 * frame.toNat) }
  | _ => s.installResult frame

/-- The frames of an answer: one, or the series of a block read (R340). -/
def DictReq.frames (r : DictReq) (a : DictAns) : List (BitVec 512) :=
  if r.service = 3 ∧ a.status = 0 then
    (framePieces a.data.length r.off (a.data.length / 56 + 1) a.data).map (fun x =>
      protoFrame r.index r.sub a.type 0 x.1 x.2.1 x.2.2)
  else [protoFrame r.index r.sub a.type a.status r.off a.last a.data]

/-- Answer a request now; a complete recovery image is then checked (R342). -/
def State.answerNow (s : State) (r : DictReq) : State :=
  let a := s.dictAnswer r
  let t := (r.frames a).foldl (fun s f => s.sendAnswer r f) a.s
  match a.image with
  | some l => t.checkImage l true
  | none => t

/-- An answer with a status alone. -/
def State.answerStatus (s : State) (r : DictReq) (status : Nat) : State :=
  s.sendAnswer r (protoFrame r.index r.sub (s.entryType r.index r.sub) status r.off false [])

/-! ### The order of service (R333) -/

/-- The next request of the queue: one passed over 16 times, else by path. -/
def nextRequest (q : List DictReq) : Option DictReq :=
  match q.find? (fun r => decide (16 ≤ r.passed)) with
  | some r => some r
  | none => match q.find? (fun r => r.path == 0) with
    | some r => some r
    | none => match q.find? (fun r => r.path == 1) with
      | some r => some r
      | none => q.head?

/-- While the engine is free and the next request asks for this service, serve it: the engine answers what is its own, or what firmware
cannot be asked; the rest is answered by firmware, or left open for DECTL with vector 8 (R332, R349). A service that does not exist is
answered with READ. -/
def State.dictServe (s : State) (service : BitVec 4) (firmware : Bool) : State :=
  if s.dict.current.isSome then s
  else match nextRequest s.dict.queue with
    | none => s
    | some r =>
      if !(r.service == service || (service == 1 && r.service != 2 && r.service != 3)) then s
      else
        let q := (s.dict.queue.erase r).map (fun x => { x with passed := x.passed + 1 })
        let s : State := { s with dict := { s.dict with queue := q } }
        let own := r.malformed || s.dict.bad || engineServed r.index || decide (s.dep.bootStatus ≠ 1#4)
        if own || firmware then s.answerNow r
        else ({ s with dict := { s.dict with current := some r } }).raiseVector 8

/-- Requests of a path that wait. -/
def State.dictWaiting (s : State) (path : BitVec 2) : Nat := (s.dict.queue.filter (fun r => r.path == path)).length

/-- Put a request into the queue. -/
def State.dictPush (s : State) (r : DictReq) : State := { s with dict := { s.dict with queue := s.dict.queue ++ [r] } }

/-- A dictionary message arrives on the fabric (R343): while 8 wait, credits hold it back; a response is ignored; reserved bits of the
prefix make it malformed. -/
def State.fabricRequest (s : State) (p : Packet) : State :=
  let w := p.inl.toNat % 2 ^ 128
  if 8 ≤ s.dictWaiting 1 || bitOf w 4 then s
  else
    let f := p.inl.toNat / 2 ^ 128 % 2 ^ 512
    let frame := if w / 2 ^ 36 = 0 ∨ bitOf f 63 then f else f + 2 ^ 63
    s.dictPush
      { path := 1, secure := p.sec, service := BitVec.ofNat 4 w, tid := BitVec.ofNat 7 (w / 2 ^ 5), prio := 0,
        source := BitVec.ofNat 24 (w / 2 ^ 12), broadcast := false, frame := BitVec.ofNat 512 frame, bytes := 64, passed := 0 }

/-- A request of any path is served, a fabric message arriving before it where one is given. -/
def State.dictCommand (s : State) (arrival : Option Packet) (service : BitVec 4) (firmware : Bool) : State :=
  (match arrival with
   | some p => s.received (fun s => s.fabricRequest p)
   | none => s).dictServe service firmware

/-- DICTIONARY_READ. -/
def execDictionaryRead (arrival : Option Packet) (firmware : Bool) (s : State) : Host.Outcome State Fault Refusal :=
  answer s (s.dictCommand arrival 1 firmware)

/-- DICTIONARY_WRITE. -/
def execDictionaryWrite (arrival : Option Packet) (firmware : Bool) (s : State) : Host.Outcome State Fault Refusal :=
  answer s (s.dictCommand arrival 2 firmware)

/-- BLOCK_READ. -/
def execBlockRead (arrival : Option Packet) (firmware : Bool) (s : State) : Host.Outcome State Fault Refusal :=
  answer s (s.dictCommand arrival 3 firmware)

/-- DECTL.SEND: DERSP answers the open request; with MORE it stays open. A WRITE that firmware answers OK is accepted, and a piece that it
refuses leaves nothing staged (R349, R340, R333, log 68). -/
def State.dectl (s : State) (more : Bool) : State :=
  match s.dict.current with
  | none => s
  | some r =>
    let ok := r.service == 2 && fieldOf s.dict.rsp.toNat 24 4 == 0
    let a := s.dictAnswer r
    let piece := r.service == 2 && (s.entryType r.index r.sub == 9 || s.entryType r.index r.sub == 0xA)
    let s := if ok && a.status == 0 then a.s else if piece && !ok then s.setStaging r.path none else s
    if more then (if r.path = 2 then s else s.sendAnswer r s.dict.rsp)
    else ({ s with dict := { s.dict with current := none } }).sendAnswer r s.dict.rsp

/-- DICTIONARY_ANSWER. -/
def execDictionaryAnswer (more : Bool) (s : State) : Host.Outcome State Fault Refusal := answer s (s.dectl more)

/-- The open request is answered by the engine with a status. -/
def State.closeRequest (s : State) (status : Nat) : State :=
  match s.dict.current with
  | none => s
  | some r => ({ s with dict := { s.dict with current := none } }).answerStatus r status

/-- DICTIONARY_TIMEOUT: TIMEOUT on firmware's behalf (R332). -/
def execDictionaryTimeout (s : State) : Host.Outcome State Fault Refusal := answer s (s.closeRequest 8)

/-- DENGO: DENTF leaves as a NOTIFY; ignored while BUSY (R341, R349). -/
def State.dengo (s : State) : State := if s.dict.ntfBusy then s else s.notifyFrame (s.param 0x2000 3) s.dict.ntf

/-- NOTIFY. -/
def execNotify (s : State) : Host.Outcome State Fault Refusal := answer s s.dengo

/-! ### The CSR path (R344) -/

/-- DICT_CMD: counted and ignored while BUSY or a result is held; a reserved OP asks nothing (R344, 00 R13). -/
def State.dictCmd (s : State) (op : Nat) : State :=
  if op ≠ 1 ∧ op ≠ 2 then s
  else if s.dict.csrBusy || s.dict.resValid then { s with dict := { s.dict with ign := satInc s.dict.ign } }
  else
    let x := s.dict.idx.toNat
    let head := fieldOf x 0 24 + fieldOf x 24 24 * 2 ^ 32
    let frame := if op = 1 then head
      else
        let n := fieldOf x 52 4
        head + fieldOf x 48 4 * 2 ^ 28 + n * 2 ^ 56 + bit (bitOf x 56) * 2 ^ 62 + 2 ^ 64 * (s.dict.wdata.toNat % 2 ^ (8 * n))
    ({ s with dict := { s.dict with csrBusy := true } }).dictPush
      { path := 2, secure := false, service := BitVec.ofNat 4 op, tid := 0, prio := 0, source := s.straps.nodeId, broadcast := false
        frame := BitVec.ofNat 512 frame, bytes := 64, passed := 0 }

/-! ### The field network (R336 to R338) -/

/-- FIELD_NETWORK_FRAME: a frame that is a request for this node is queued or dropped; any other is ignored (R336, R338). Its data
length is `dlc`'s; bytes beyond it are not received. -/
def execFieldNetworkFrame (ident : BitVec 29) (fd : Bool) (frame : BitVec 512) (s : State) (dlc : BitVec 4 := 15) :
    Host.Outcome State Fault Refusal :=
  answer s
    (if !s.canSends then s
     else
       let s := s.hearCan
       let i := ident.toNat
       let dst := fieldOf i 19 7
       let src := fieldOf i 12 7
       let service := fieldOf i 8 4
       let own := s.straps.mgmtNode.toNat
       let ignored : State := { s with can := { s.can with ign := s.can.ign + 1 } }
       if !fd then ignored
       else if dst ≠ own ∧ dst ≠ 0 then s
       else if src = 0 ∨ src = own ∨ bitOf i 7 = true ∨ service = 0 ∨ 3 < service then ignored
       else if 8 ≤ s.dictWaiting 0 then { s with can := { s.can with drop := s.can.drop + 1 } }
       else
         ({ s with can := { s.can with rx := s.can.rx + 1 } }).dictPush
           { path := 0, secure := false, service := BitVec.ofNat 4 service, tid := BitVec.ofNat 7 i, prio := BitVec.ofNat 3 (i / 2 ^ 26)
             source := BitVec.ofNat 24 src, broadcast := decide (dst = 0)
             frame := BitVec.ofNat 512 (frame.toNat % 2 ^ (8 * fdLength dlc)), bytes := fdLength dlc, passed := 0 })

/-- BUS_OFF_RECOVERY: the controller is error active again, its error counts zero; its vector is raised (R336, 14 Table 14.7). -/
def execBusOffRecovery (s : State) : Host.Outcome State Fault Refusal :=
  answer s
    (if s.can.state = 2 then ({ s with can := { s.can with state := 0, txErr := 0, rxErr := 0 } }).raiseVector 9 else s)

end Sys2Proof.Machine
end

