-- ==== Sys2Proof/Machine/JournalChan.lean ====
section
/-! DEFINITION. The journal channel: appends and the hand-over of channel 31 (10 R241, 13 R293). -/

namespace Sys2Proof.Machine

/-- A failed append (10 R241): ERR, ERRCNT, the capture, EV43, and the tally's JNLFAIL. -/
def State.failAppend (s : State) (seq : Word) (reason : Nat) : State :=
  let j := { s.jnl with err := true, errcnt := satInc s.jnl.errcnt }
  let j := if j.errValid then j
    else { j with errValid := true, errCseq := j.errCseq + 1, errReason := BitVec.ofNat 8 reason, errSeq := seq.setWidth 32 }
  (({ s with jnl := j }).tallyInc 0x4C).setEvent 43

/-- APPEND: the oldest pending record whose data is there, once the channel serves the journal: one 64-byte write to the ring
and the post, or a failure: reason 1 outside a normal LOG region, 2 at the memory port (10 R241). -/
def State.append (s : State) (portOk : Bool) : State :=
  match s.jnl.pend with
  | { seq := seq, addr := addr, data := some d } :: rest =>
    if !s.jnl.jch then s
    else
      let s := { s with jnl := { s.jnl with pend := rest } }
      let s : State :=
        if !s.inLog addr then s.failAppend seq 1
        else if !portOk then s.failAppend seq 2
        else
          let s := s.logWrite addr d false
          let s := { s with jnl := { s.jnl with done := s.jnl.done + 1 } }
          if s.jnl.objEn then s.enginePost (wd (s.straps.nodeId.toNat * 2 ^ 13 + s.jnl.obj.toNat)) 1 else s
      s.settleJch
  | _ => s

/-- APPEND. -/
def execAppend (portOk : Bool) (s : State) : Host.Outcome State Fault Refusal := answer s (s.append portOk)

/-- A write of JNLCFG (10 Table 10.7): a reserved LOG2LEN leaves it; a change of EN hands channel 31 over (13 R293). -/
def State.writeJnlcfg (s : State) (v : Word) : State :=
  let l : BitVec 5 := v.extractLsb' 5 5
  ({ s with jnl := { s.jnl with
      log2len := if 6 ≤ l.toNat ∧ l.toNat ≤ 26 then l else s.jnl.log2len, ssgrp := v.extractLsb' 1 2,
      en := v.getLsbD 0 } }).settleJch

/-- JNLCFG_WRITE (13 R293). -/
def execJnlcfgWrite (value : BitVec 64) (s : State) : Host.Outcome State Fault Refusal := answer s (s.writeJnlcfg value)

end Sys2Proof.Machine
end

