-- ==== Sys2Proof/Machine/Levels.lean ====
section
/-! DEFINITION. Levels and events as commands: ERET (05 R128, R129), the lines IRQ and NMI, event entry, task switches, and
the writes of RLADD, BANKPOL and TSBPn (05 R116 to R123). -/

namespace Sys2Proof.Machine

/-! ### ERET -/

/-- The highest active level below `l` (05 R109). -/
def State.lowerLevel (s : State) (l : Fin 8) : Fin 8 := (s.setActive l false).lvl

/-- The level returned to is resident, being read from its TSB under SPILL (05 R115); a fault of that read escalates, and a resume
address so read that is not a multiple of 4 raises cause 3 there, as one that a task load reads does (log 167). -/
def State.resumeLevel (s : State) : State :=
  match s.makeResident s.lvl with
  | (s, some f) => s.escalateTsb f
  | (t, none) => (if s.core.resident[s.lvl] then t else t.checkLoadedPc).checkBankPoison

/-- ERET that ends the activation of level `l` (R128): the lazy release and restore, the resume address, EXCM, and the next
lower active level. -/
def State.endActivation (s : State) (l : Fin 8) : IRes :=
  match s.releaseTile l with
  | .stop r => r
  | .ok s =>
    let s := s.releaseReservation l
    let b := s.bankOf l
    let s := s.setBankOf l { b with pc := b.pc + 4, excm := false }
    let s := s.setActive l false
    let s := if l = 7 then s.clearEvent 63 else s
    .moved s

/-- The target of an ERET: EPC within a level, or the resume address of the level returned to (R128): that of its bank, which a spilled
level's bank registers keep, and not that of an image still to be read back (log 167). -/
def State.eretTarget (s : State) : Word :=
  if s.bank.excm ∧ s.lvl ≠ 7 then s.bank.epc else (s.bankOf (s.lowerLevel s.lvl)).pc

/-- What an ERET does where it is issued (R128). -/
def State.eret (s : State) : IRes :=
  let b := s.bank
  if s.lvl = 0 ∧ b.excm = false then .exc s { cause := 1, eaddr := encJ 0x2D 1 }
  else if s.eretTarget.toNat % 4 ≠ 0 then .exc s { cause := 3, eaddr := s.eretTarget }
  else if b.excm ∧ s.lvl ≠ 7 then .moved (s.setBank { b with pc := b.epc, priv := b.ppriv, excm := false })
  else s.endActivation s.lvl

/-- The end of an ERET: counted and stepped as an instruction that stays in its level is, and followed by one instruction
before a level below 7 is entered, where there is code returned to (R129, 17 R398). -/
def State.retireEret (l : Fin 8) (s : State) : State :=
  let within := decide (s.lvl = l) && s.core.active[l]
  let s := if within then s.retire
    else
      let s := { s with core := { s.core with instret := s.core.instret + 1 } }
      if s.core.stepGrant then { s with core := { s.core with stepGrant := false, mode := .halted } } else s
  let s := s.cancelEarly
  let s := { s with core := { s.core with eretShadow := decide (s.lvl ≠ 0) || s.core.taskRunning } }
  if within then s else s.resumeLevel

/-- ERET, Supervisor (05 R128). -/
def execEret (rsv : BitVec 22) (s : State) : Host.Outcome State Fault Refusal :=
  s.issue fun s =>
    let w := encJ 0x2D (rsv.toNat * 16 + 1)
    guardRsv (rsv == 0) w s (guardPriv w s
      (match s.eret with
       | .moved t => .moved (t.retireEret s.lvl)
       | r => r))

/-! ### Lines -/

/-- The IRQ lines' levels show in EVPEND[31:0] (05 R121). -/
def State.showIrq (s : State) : State :=
  { s with bm := { s.bm with evpend := (s.bm.evpend &&& 0xFFFFFFFF00000000#64) ||| s.pwr.irq.setWidth 64 } }

/-- IRQ: a line changes; EV0 to EV31 follow the lines, and a line whose IRQWAKE bit is set wakes PD_CORE (05 R121, 17 R389). -/
def execIrq (line : BitVec 5) (level : Bool) (s : State) : Host.Outcome State Fault Refusal :=
  answer s
    (let m : BitVec 32 := 1#32 <<< line.toNat
     let irq := if level then s.pwr.irq ||| m else s.pwr.irq &&& ~~~m
     let s := { s with pwr := { s.pwr with irq := irq } }
     let s := if s.pwr.latching then s else s.showIrq
     if level && s.pwr.irqwake.getLsbD line.toNat then s.wakeCore else s)

/-- NMI: a rising edge sets EV32, or latches it, and wakes PD_CORE (05 R121, 17 R389). -/
def execNmi (s : State) : Host.Outcome State Fault Refusal := answer s (s.setEvent 32).wakeCore

/-! ### Entry and switch -/

/-- EVENT_ENTRY: the banksman recognises the highest eligible event and enters its level (05 R122, R125). -/
def execEventEntry (s : State) : Host.Outcome State Fault Refusal :=
  answer s
    (let t := s.enterEvent
     if t.lvl = s.lvl then t else t.checkBankPoison)

/-- TASK_SWITCH: the banksman's choice at an instruction boundary of level 0 (05 R123). -/
def execTaskSwitch (s : State) : Host.Outcome State Fault Refusal :=
  answer s (if s.core.devLoads.any (fun d => decide (d.level = 0)) || s.wz.req.isSome then s else s.taskSwitch.checkBankPoison)

/-- RLADD: one pointer joins the ready list (05 R123). -/
def execRladd (value : BitVec 64) (s : State) : Host.Outcome State Fault Refusal := answer s (s.addReady (readyOf value))

/-- BANKPOL_WRITE: a write of BANKPOL (05 R114, R116). -/
def execBankpolWrite (value : BitVec 64) (s : State) : Host.Outcome State Fault Refusal := answer s (s.writeBankpol value)

/-- TSBP_WRITE: a write of TSBPn by the core, whose faulting load raises its exception (05 R118); a faulting spill escalates (R115). -/
def execTsbpWrite (n : BitVec 3) (value : BitVec 64) (s : State) : Host.Outcome State Fault Refusal :=
  answer s (match s.writeTsbp (levelOf n) value with
    | .ok s => s
    | .fault t k => s.takeException (tsbpExc t k)
    | .escalate f => s.escalateTsb f)

end Sys2Proof.Machine
end

