-- ==== Sys2Proof/Machine/Mailbox.lean ====
section
/-! DEFINITION. Mailboxes (13 R290, R291). -/

namespace Sys2Proof.Machine

/-- A channel number. -/
def chanOf (b : BitVec 4) : Fin 16 := ⟨b.toNat, b.isLt⟩

/-- Replace a channel. -/
def State.setMailbox (s : State) (c : Fin 16) (m : Mailbox) : State := { s with mb := { s.mb with ch := s.mb.ch.set c m } }

/-- Channels 8 to 15 are secure and the deputy's (R290). -/
def secureChan (c : Fin 16) : Bool := decide (8 ≤ c.val)

/-- A mailbox or credit packet to the channel's peer: the channel field is ADDR[3:0] (17 Table 17.7). -/
def State.mailPacket (s : State) (c : Fin 16) (inl : BitVec 768) : Packet :=
  let m := s.mb.ch[c]
  { s.packetTo m.pnode with sec := secureChan c, addr := m.pchan.setWidth 47, inl := inl }

/-- Notify the channel's owner: the event given for channels 0 to 7, deputy vector 7 for the others (R291). -/
def State.mailNotice (s : State) (c : Fin 16) (ev : Nat) : State :=
  if secureChan c then s.raiseVector 7 else s.setEvent ev

/-- MBCTL.SEND: ignored while OUTFULL = 1 (R291). -/
def State.mailSend (s : State) (c : Fin 16) : State :=
  let m := s.mb.ch[c]
  if m.outFull then s else s.setMailbox c { m with outFull := true }

/-- MBCTL.RELEASE: a credit packet goes to the peer; ignored while INFULL = 0; poison of the slot is cleared (R291,
16 Table 16.2). -/
def State.mailRelease (s : State) (c : Fin 16) : State :=
  let m := s.mb.ch[c]
  if !m.inFull then s
  else (s.setMailbox c { m with inFull := false, inPois := false }).sendPacket 7 (s.mailPacket c 0)

/-- SEND (R291 step 1). -/
def execSend (channel : BitVec 4) (s : State) : Host.Outcome State Fault Refusal := answer s (s.mailSend (chanOf channel))

/-- MAILBOX_RELEASE (R291 step 4). -/
def execMailboxRelease (channel : BitVec 4) (s : State) : Host.Outcome State Fault Refusal :=
  answer s (s.mailRelease (chanOf channel))

/-- MAILBOX_SEND_PACKET: with OUTFULL and CREDIT the slot leaves as one packet (R291 step 2). -/
def execMailboxSendPacket (channel : BitVec 4) (s : State) : Host.Outcome State Fault Refusal :=
  answer s
    (let c := chanOf channel
     let m := s.mb.ch[c]
     if m.outFull && m.credit then
       (s.setMailbox c { m with outFull := false, credit := false }).sendPacket 6 (s.mailPacket c (m.outSlot.setWidth 768))
     else s)

/-- A packet for a channel that is not enabled or does not accept it (R291). -/
def State.mailDrop (s : State) : State := { s with mb := { s.mb with drops := satInc s.mb.drops } }

/-- MAILBOX: an arriving message fills the inbound slot, raises its event and wakes PD_CORE; a message never overwrites
another (R291 step 3, 17 R389). -/
def execMailbox (p : Packet) (s : State) : Host.Outcome State Fault Refusal :=
  answer s (s.received fun s =>
    (let c := chanOf (p.addr.setWidth 4)
     let m := s.mb.ch[c]
     if !m.en || (secureChan c && !p.sec) || m.inFull then s.mailDrop
     else
       let s := s.setMailbox c { m with inSlot := p.inl.setWidth 512, inFull := true, inPois := false }
       let s := s.mailNotice c (33 + c.val)
       if secureChan c then s else s.wakeCore))

/-- CREDIT: an arriving credit sets CREDIT and raises EV41, or the deputy's vector (R291 step 5). -/
def execCredit (p : Packet) (s : State) : Host.Outcome State Fault Refusal :=
  answer s (s.received fun s =>
    (let c := chanOf (p.addr.setWidth 4)
     let m := s.mb.ch[c]
     if !m.en || (secureChan c && !p.sec) then s.mailDrop
     else (s.setMailbox c { m with credit := true }).mailNotice c 41))

/-- A write of MBCFG: enabling with INFULL = 0 sends a credit, disabling clears CREDIT (R291). -/
def State.mailConfig (s : State) (c : Fin 16) (en : Bool) (pchan : BitVec 4) (pnode : BitVec 24) : State :=
  let m := s.mb.ch[c]
  let s' := s.setMailbox c { m with en := en, pchan := pchan, pnode := pnode, credit := m.credit && en }
  if en && !m.en && !m.inFull then s'.sendPacket 7 (s'.mailPacket c 0) else s'

/-- MBCFG_WRITE: [63] EN, [27:24] PCHAN, [23:0] PNODE (Table 13.11). -/
def execMbcfgWrite (channel : BitVec 4) (value : BitVec 64) (s : State) : Host.Outcome State Fault Refusal :=
  answer s (s.mailConfig (chanOf channel) (value.getLsbD 63) (value.extractLsb' 24 4) (value.setWidth 24))

/-- Write a word of the outbound slot: ignored while OUTFULL = 1 (R291). -/
def State.mailWrite (s : State) (c : Fin 16) (w : Nat) (v : Word) : State :=
  let m := s.mb.ch[c]
  if m.outFull then s
  else s.setMailbox c { m with outSlot := (m.outSlot &&& ~~~((BitVec.allOnes 64).setWidth 512 <<< (64 * w))) ||| (v.setWidth 512 <<< (64 * w)) }

end Sys2Proof.Machine
end

