-- ==== Sys2Proof/Machine/TileInstr.lean ====
section
/-! DEFINITION. The tile instructions at dispatch (06 R150 to R163): their words, the checks of R162 in order, and the entries
they put into the queue; STEP and DRAW (10 R236, R239); the commands of the queue. -/

namespace Sys2Proof.Machine

/-! ### Words (06 Tables 6.3 and 6.4) -/

/-- Format TC. -/
def encTC (op : Nat) (rd ra : RegIx) (imm12 fn : Nat) : Word :=
  wd (op * 2 ^ 26 + rd.toNat * 2 ^ 21 + ra.toNat * 2 ^ 16 + imm12 * 16 + fn)

/-- Format TM. -/
def encTM (op field10 : Nat) (ra rb : RegIx) (func : Nat) : Word :=
  wd (op * 2 ^ 26 + field10 * 2 ^ 16 + ra.toNat * 2 ^ 11 + rb.toNat * 2 ^ 6 + func)

/-- Format TA. -/
def encTA (kd : BitVec 2) (ta tb : BitVec 3) (fn : Nat) (rc : RegIx) (fa fb : BitVec 3) (rsv : BitVec 5) : Word :=
  wd (0x34 * 2 ^ 26 + kd.toNat * 2 ^ 24 + ta.toNat * 2 ^ 21 + tb.toNat * 2 ^ 18 + fn * 2 ^ 16 + rc.toNat * 2 ^ 11
    + fa.toNat * 2 ^ 8 + fb.toNat * 2 ^ 5 + rsv.toNat)

/-- The imm12 of op 0x36. -/
def scaleImm (slot : BitVec 6) (sel : BitVec 3) (seam : BitVec 2) (rsv : BitVec 1) : Nat :=
  slot.toNat * 64 + sel.toNat * 8 + seam.toNat * 2 + rsv.toNat

/-! ### Steps of R162 -/

/-- Cause 15 with a reason (Table 6.7). -/
def exc15 (w : Word) (reason : Nat) : Exc := { cause := 15, eaddr := w, einfo := wd reason }

/-- Cause 18 with a slot and a reason (08 Table 8.11). -/
def exc18 (w : Word) (slot reason : Nat) : Exc := { cause := 18, eaddr := w, einfo := wd (slot + 256 * reason) }

/-- Cause 19 with an image address, a slot and a reason (09 Table 9.5). -/
def exc19 (va : Word) (slot reason : Nat) : Exc := { cause := 19, eaddr := va, einfo := wd (slot + 256 * reason) }

/-- Steps 2 to 5: PD_TILE, TCTL.EN, TCTL.UEN, ownership. -/
def State.tileGate (s : State) (w : Word) (k : State → IRes) : IRes :=
  if s.pwr.tile ≠ .on || s.tileRetired then .exc s (exc15 w 5)
  else if !s.tile.en then .exc s (exc15 w 1)
  else if !s.super && !s.tile.uen then .exc s (exc15 w 2)
  else match s.obtainTile with
    | .ok s => k s
    | .stop r => r

/-- A list of checks in order: the first that fails is raised. -/
def checks : List (Bool × Exc) → Option Exc
  | [] => none
  | (bad, e) :: t => if bad then some e else checks t

/-- Steps 6 to 9, then the rest. -/
def State.tileChecks (s : State) (l : List (Bool × Exc)) (k : IRes) : IRes :=
  match checks l with
  | some e => .exc s e
  | none => k

/-- The instruction enters the queue, or waits while 16 entries hold their places (R164). -/
def State.enter (s : State) (op : TileOp) : IRes := if 16 ≤ s.tile.queue.length then .wait s else .done (s.enqueue op)

/-- Step 10: alignment and translation of the operand's lines (R151, R163). -/
def State.withLines (s : State) (kind : AccKind) (a stride : Word) (n len : Nat) (k : State → List (List Segment) → IRes) :
    IRes :=
  let al := Nat.min len 128
  let acc : Access := { kind := kind, va := a, eaddr := a, tile := true, priv := s.super }
  if !operandAligned a stride al (if kind.writes then some len else none) then .exc s (s.attrFault acc)
  else
    match s.translateLines kind none len (lineAddrs a stride n) with
    | .ok s ls => k s ls
    | .exc s e => .exc s e
    | .wait s => .wait s

/-- A register number as an index. -/
def fin8 (b : BitVec 3) : Fin 8 := ⟨b.toNat, b.isLt⟩
/-- An accumulator or seam slot number. -/
def fin4 (b : BitVec 2) : Fin 4 := ⟨b.toNat, b.isLt⟩
/-- A scale slot number. -/
def fin64 (b : BitVec 6) : Fin 64 := ⟨b.toNat, b.isLt⟩
/-- A stream number. -/
def fin16 (b : BitVec 4) : Fin 16 := ⟨b.toNat, b.isLt⟩

/-! ### Fields of word 0 of a slot in the mirror (08 Table 8.6) -/

/-- FMT. -/
def m0Fmt (w : Nat) : Nat := fieldOf w 0 3
/-- MODE. -/
def m0Block (w : Nat) : Bool := bitOf w 4
/-- BLK. -/
def m0Blk (w : Nat) : Nat := 16 * 2 ^ fieldOf w 5 2
/-- VBASE. -/
def m0Vbase (w : Nat) : Nat := fieldOf w 8 3

/-- The last lane vector of the block scales of `depth` values. -/
def m0Last (w depth : Nat) : Nat := m0Vbase w + blockVectors depth (m0Blk w) - 1

/-- A lane vector from VBASE on, not past V7, is disabled. -/
def scalesDisabled (m : Mirror) (w depth : Nat) : Bool :=
  (List.range (blockVectors depth (m0Blk w))).any (fun k => decide (m0Vbase w + k ≤ 7) && !vEnabled m.tconf (m0Vbase w + k))

/-! ### Configuration instructions (R152) -/

/-- TCFG (R147, R152). -/
def execTcfg (rd ra : RegIx) (imm12 : BitVec 12) (s : State) : Host.Outcome State Fault Refusal :=
  s.issue fun s =>
    let w := encTC 0x30 rd ra imm12.toNat 0
    guardRsv (imm12 == 0) w s (s.tileGate w fun s =>
      let new : BitVec 22 := (s.readG ra).setWidth 22
      let old := s.mirror.tconf
      match s.enter (.tcfg new) with
      | .done s =>
        let s := if new = 0 then s.releaseByTcfg else s
        .done (s.writeG rd (old.setWidth 64))
      | r => r)

/-- TZERO: a mask of zero is reserved (R152). -/
def execTzero (rd ra : RegIx) (imm12 : BitVec 12) (s : State) : Host.Outcome State Fault Refusal :=
  s.issue fun s =>
    let w := encTC 0x30 rd ra imm12.toNat 1
    let mask : BitVec 8 := imm12.setWidth 8
    let isV := imm12.getLsbD 8
    guardRsv (rd == 0 && ra == 0 && decide (imm12.toNat / 2 ^ 9 = 0) && mask != 0) w s (s.tileGate w fun s =>
      let c := s.mirror.tconf
      s.tileChecks [((maskBits mask).any (fun i => if isV then !vEnabled c i else !tEnabled c i), exc15 w 3)]
        (s.enter (.tzero isV mask)))

/-- KZERO: a mask of zero is reserved (R152). -/
def execKzero (rd ra : RegIx) (imm12 : BitVec 12) (s : State) : Host.Outcome State Fault Refusal :=
  s.issue fun s =>
    let w := encTC 0x30 rd ra imm12.toNat 2
    let mask : BitVec 4 := imm12.setWidth 4
    guardRsv (rd == 0 && ra == 0 && decide (imm12.toNat / 2 ^ 5 = 0) && mask != 0) w s (s.tileGate w fun s =>
      s.tileChecks [((maskBits mask).any (fun i => !kEnabled s.mirror.tconf i), exc15 w 3)]
        (s.enter (.kzero mask (imm12.getLsbD 4))))

/-- TMOV (R152). -/
def execTmov (rd ra : RegIx) (imm12 : BitVec 12) (s : State) : Host.Outcome State Fault Refusal :=
  s.issue fun s =>
    let w := encTC 0x30 rd ra imm12.toNat 3
    let src : BitVec 3 := imm12.setWidth 3
    let dst : BitVec 3 := (imm12 >>> 3).setWidth 3
    let isV := imm12.getLsbD 6
    guardRsv (rd == 0 && ra == 0 && decide (imm12.toNat / 2 ^ 7 = 0)) w s (s.tileGate w fun s =>
      let c := s.mirror.tconf
      let off (i : Nat) : Bool := if isV then !vEnabled c i else !tEnabled c i
      s.tileChecks [(off src.toNat || off dst.toNat, exc15 w 3)] (s.enter (.tmov isV (fin8 src) (fin8 dst))))

/-- TFENCE: every earlier scalar and tile access is performed (03 R71). -/
def execTfence (rd ra : RegIx) (imm12 : BitVec 12) (s : State) : Host.Outcome State Fault Refusal :=
  s.issue fun s =>
    guardRsv (rd == 0 && ra == 0 && imm12 == 0) (encTC 0x30 rd ra imm12.toNat 4) s
      (s.afterTile fun t => let t := t.countDrain
                            .done { t with mem := t.mem.drain })

/-! ### Loads and stores (R153 to R155) -/

/-- A load or store of a tile with lines in orientation V. -/
def State.moveV (s : State) (w : Word) (tile : BitVec 3) (ra rb : RegIx) (store : Bool) : IRes :=
  s.tileGate w fun s =>
    s.tileChecks [(!tEnabled s.mirror.tconf tile.toNat, exc15 w 3)]
      (s.withLines (if store then .store else .load) (s.baseReg ra) (s.readG rb) 128 128 fun s ls =>
        s.enter (if store then .store false 0 (fin8 tile) ls else .load false 0 (fin8 tile) ls))

/-- A load or store of a tile by depth rows. -/
def State.moveD (s : State) (w : Word) (tile : BitVec 3) (wc : BitVec 2) (ra rb : RegIx) (store : Bool) : IRes :=
  let wb := widthOfCode wc.toNat
  s.tileGate w fun s =>
    s.tileChecks [(!tEnabled s.mirror.tconf tile.toNat, exc15 w 3)]
      (s.withLines (if store then .store else .load) (s.baseReg ra) (s.readG rb) (tileDepth wb) (16 * wb) fun s ls =>
        s.enter (if store then .store true wc.toNat (fin8 tile) ls else .load true wc.toNat (fin8 tile) ls))

/-- TLOAD.V. -/
def execTloadV (tile : BitVec 3) (ra rb : RegIx) (rsv7 : BitVec 7) (rsv4 : BitVec 4) (s : State) :
    Host.Outcome State Fault Refusal :=
  s.issue fun s =>
    let w := encTM 0x31 (tile.toNat * 128 + rsv7.toNat) ra rb (rsv4.toNat * 4)
    guardRsv (rsv7 == 0 && rsv4 == 0) w s (s.moveV w tile ra rb false)

/-- TLOAD.D. -/
def execTloadD (tile : BitVec 3) (wc : BitVec 2) (ra rb : RegIx) (rsv5 : BitVec 5) (rsv4 : BitVec 4) (s : State) :
    Host.Outcome State Fault Refusal :=
  s.issue fun s =>
    let w := encTM 0x31 (tile.toNat * 128 + wc.toNat * 32 + rsv5.toNat) ra rb (rsv4.toNat * 4 + 1)
    guardRsv (rsv5 == 0 && rsv4 == 0) w s (s.moveD w tile wc ra rb false)

/-- TSTORE.V. -/
def execTstoreV (tile : BitVec 3) (ra rb : RegIx) (rsv7 : BitVec 7) (rsv4 : BitVec 4) (s : State) :
    Host.Outcome State Fault Refusal :=
  s.issue fun s =>
    let w := encTM 0x31 (tile.toNat * 128 + rsv7.toNat) ra rb (rsv4.toNat * 4 + 2)
    guardRsv (rsv7 == 0 && rsv4 == 0) w s (s.moveV w tile ra rb true)

/-- TSTORE.D. -/
def execTstoreD (tile : BitVec 3) (wc : BitVec 2) (ra rb : RegIx) (rsv5 : BitVec 5) (rsv4 : BitVec 4) (s : State) :
    Host.Outcome State Fault Refusal :=
  s.issue fun s =>
    let w := encTM 0x31 (tile.toNat * 128 + wc.toNat * 32 + rsv5.toNat) ra rb (rsv4.toNat * 4 + 3)
    guardRsv (rsv5 == 0 && rsv4 == 0) w s (s.moveD w tile wc ra rb true)

/-- TLOAD.Q and TSTORE.Q: checks of R162 and Table 8.11, then the lines of Table 6.5. -/
def State.moveQ (s : State) (w : Word) (tile fmt : BitVec 3) (d : Bool) (ra rb : RegIx) (slot : BitVec 6) (store : Bool) : IRes :=
  let f := fmt.toNat
  let depth := tileDepth (fmtWidth f)
  s.tileGate w fun s =>
    let m := s.mirror
    let w0 := m.ss[fin64 slot]
    let sdepth := tileDepth (fmtWidth (m0Fmt w0))
    s.tileChecks
      [(!tEnabled m.tconf tile.toNat || !ssEnabled m.tconf || (m0Block w0 && scalesDisabled m w0 sdepth), exc15 w 3),
       (f != m0Fmt w0, exc18 w slot.toNat 1),
       (m0Block w0 && (!fmtHasBlock (m0Fmt w0) || decide (7 < m0Last w0 sdepth)), exc18 w slot.toNat 2)]
      (s.withLines (if store then .store else .load) (s.baseReg ra) (s.readG rb) (if d then depth else 128)
        (if d then 256 else 2 * depth) fun s ls =>
          s.enter (if store then .storeQ d f (fin8 tile) (fin64 slot) ls
            else .loadQ d f (fin8 tile) (fin64 slot) ls ((s.jnl.stepcnt.toNat + s.jnl.mbatch.toNat + tile.toNat) % 8)))

/-- TLOAD.Q. -/
def execTloadQ (tile fmt : BitVec 3) (d : Bool) (ra rb : RegIx) (slot : BitVec 6) (rsv : BitVec 2) (s : State) :
    Host.Outcome State Fault Refusal :=
  s.issue fun s =>
    let w := encTM 0x32 (tile.toNat * 128 + fmt.toNat * 16 + bit d * 8 + rsv.toNat) ra rb slot.toNat
    guardRsv (rsv == 0) w s (s.moveQ w tile fmt d ra rb slot false)

/-- TSTORE.Q. -/
def execTstoreQ (tile fmt : BitVec 3) (d : Bool) (ra rb : RegIx) (slot : BitVec 6) (rsv : BitVec 2) (s : State) :
    Host.Outcome State Fault Refusal :=
  s.issue fun s =>
    let w := encTM 0x32 (tile.toNat * 128 + fmt.toNat * 16 + bit d * 8 + 4 + rsv.toNat) ra rb slot.toNat
    guardRsv (rsv == 0) w s (s.moveQ w tile fmt d ra rb slot true)

/-- A lane vector's load or store. -/
def State.moveVec (s : State) (w : Word) (v : BitVec 3) (ra : RegIx) (store : Bool) : IRes :=
  s.tileGate w fun s =>
    s.tileChecks [(!vEnabled s.mirror.tconf v.toNat, exc15 w 3)]
      (s.withLines (if store then .store else .load) (s.baseReg ra) (wd (if store then 512 else 0)) 1 512 fun s ls =>
        s.enter (if store then .vstore (fin8 v) ls else .vload (fin8 v) ls))

/-- VLOAD. -/
def execVload (v : BitVec 3) (ra rb : RegIx) (rsv7 : BitVec 7) (rsv5 : BitVec 5) (s : State) :
    Host.Outcome State Fault Refusal :=
  s.issue fun s =>
    let w := encTM 0x33 (v.toNat * 128 + rsv7.toNat) ra rb (rsv5.toNat * 2)
    guardRsv (rb == 0 && rsv7 == 0 && rsv5 == 0) w s (s.moveVec w v ra false)

/-- VSTORE. -/
def execVstore (v : BitVec 3) (ra rb : RegIx) (rsv7 : BitVec 7) (rsv5 : BitVec 5) (s : State) :
    Host.Outcome State Fault Refusal :=
  s.issue fun s =>
    let w := encTM 0x33 (v.toNat * 128 + rsv7.toNat) ra rb (rsv5.toNat * 2 + 1)
    guardRsv (rb == 0 && rsv7 == 0 && rsv5 == 0) w s (s.moveVec w v ra true)

/-! ### Outer products (R156 to R158) -/

/-- MX = 1 is permitted for a pair (08 Table 8.4). -/
def mxPermitted (fa fb : Nat) : Bool := (fa == 0 && fb == 0) || fmtWidth fa == 8

/-- The depth range goes beyond the tile, or a reserved bit of the control word is set (R156). -/
def ctlRangeBad (ctl : Word) (f : Nat) : Bool :=
  fieldOf ctl.toNat 10 4 != 0 || decide (tileUnits (fmtWidth f) < ctlDs ctl + ctlDl ctl + 1)

/-- Under MX = 1: a pair without it, range ends off the block boundaries, or scales past V7 (R157, R162 step 8). -/
def ctlMxBad (ctl : Word) (fa fb : Nat) : Bool :=
  let g := groupSize (fmtWidth fa)
  ctlMx ctl && (!mxPermitted fa fb || ctlDs ctl * g % ctlBlk ctl != 0 || (ctlDs ctl + ctlDl ctl + 1) * g % ctlBlk ctl != 0
    || (rangeBlocks ctl fa).any (fun b => decide (7 < ctlVa ctl + b / 4) || decide (7 < ctlVb ctl + b / 4)))

/-- OPA. -/
def execOpa (kd : BitVec 2) (ta tb : BitVec 3) (rc : RegIx) (fa fb : BitVec 3) (rsv : BitVec 5) (s : State) :
    Host.Outcome State Fault Refusal :=
  s.issue fun s =>
    let w := encTA kd ta tb 0 rc fa fb rsv
    let a := fa.toNat
    let b := fb.toNat
    let int := fmtIsInt a && fmtIsInt b
    guardRsv (rsv == 0 && fmtWidth a == fmtWidth b) w s (s.tileGate w fun s =>
      let m := s.mirror
      let ctl := s.readG rc
      let wa := m.ss[ctlSsa ctl]
      let wb := m.ss[ctlSsb ctl]
      let vecs := if ctlMx ctl then (rangeBlocks ctl a).flatMap (fun x => [ctlVa ctl + x / 4, ctlVb ctl + x / 4]) else []
      s.tileChecks
        [(!kEnabled m.tconf kd.toNat || !tEnabled m.tconf ta.toNat || !tEnabled m.tconf tb.toNat
            || vecs.any (fun v => decide (v ≤ 7) && !vEnabled m.tconf v) || (!ctlMx ctl && !ssEnabled m.tconf)
            || (ctlSr ctl && !qEnabled m.tconf), exc15 w 3),
         (m.ktype.getLsbD kd.toNat != int || (!ctlMx ctl && (m0Block wa || m0Block wb)), exc15 w 4),
         (ctlRangeBad ctl a || ctlMxBad ctl a b || (ctlSr ctl && int), exc15 w 6),
         (!ctlMx ctl && a != m0Fmt wa, exc18 w (ctlSsa ctl).val 1),
         (!ctlMx ctl && b != m0Fmt wb, exc18 w (ctlSsb ctl).val 1)]
        (s.enter (.opa (fin4 kd) (fin8 ta) (fin8 tb) a b ctl s.jnl.stepcnt (s.jnl.mbatch.setWidth 64))))

/-- OPMAX and OPMIN. -/
def State.opm (s : State) (isMin : Bool) (kd : BitVec 2) (ta tb : BitVec 3) (rc : RegIx) (fa fb : BitVec 3)
    (rsv : BitVec 5) : IRes :=
  let w := encTA kd ta tb (if isMin then 2 else 1) rc fa fb rsv
  let f := fa.toNat
  guardRsv (rsv == 0 && fa == fb && decide (4 ≤ f) && !kd.getLsbD 0) w s (s.tileGate w fun s =>
    let m := s.mirror
    let ctl := s.readG rc
    s.tileChecks
      [(!kEnabled m.tconf kd.toNat || !kEnabled m.tconf (kd.toNat + 1) || !tEnabled m.tconf ta.toNat
          || !tEnabled m.tconf tb.toNat, exc15 w 3),
       (m.ktype.getLsbD kd.toNat != (f == 6) || !m.ktype.getLsbD (kd.toNat + 1), exc15 w 4),
       (ctlRangeBad ctl f || fieldOf ctl.toNat 14 9 != 0 || fieldOf ctl.toNat 35 5 != 0, exc15 w 6)]
      (s.enter (.opm isMin (fin4 kd) (fin8 ta) (fin8 tb) f ctl)))

/-- OPMAX. -/
def execOpmax (kd : BitVec 2) (ta tb : BitVec 3) (rc : RegIx) (fa fb : BitVec 3) (rsv : BitVec 5) (s : State) :
    Host.Outcome State Fault Refusal := s.issue fun s => s.opm false kd ta tb rc fa fb rsv

/-- OPMIN. -/
def execOpmin (kd : BitVec 2) (ta tb : BitVec 3) (rc : RegIx) (fa fb : BitVec 3) (rsv : BitVec 5) (s : State) :
    Host.Outcome State Fault Refusal := s.issue fun s => s.opm true kd ta tb rc fa fb rsv

/-! ### Read-out (R159 to R161) -/

/-- The first sequential draw from an armed stream: whether it is armed, and whether its tag differs from DCUR (10 R237). -/
def State.skewed (s : State) (q : Bool × Word) : Bool := q.1 && q.2 != s.jnl.dcur

/-- Cause 17, setting TFLAGS.SKEW (10 R237); an earlier STEP records its FLAGS first (10 R242). -/
def State.skewExc (s : State) (q : Bool × Word) : IRes :=
  .exc (s.setTflags flagSkew) { cause := 17, eaddr := q.2, einfo := s.jnl.dcur }

/-- KOUT. -/
def execKout (k seam : BitVec 2) (vr : BitVec 3) (kz : Bool) (ra rb : RegIx) (slot : BitVec 6) (rsv : BitVec 2) (s : State) :
    Host.Outcome State Fault Refusal :=
  s.issue fun s =>
    let w := encTM 0x35 (k.toNat * 256 + seam.toNat * 64 + vr.toNat * 8 + bit kz * 4 + rsv.toNat) ra rb slot.toNat
    guardRsv (rsv == 0) w s (s.tileGate w fun s =>
      let m := s.mirror
      let sl := s.tile.seam[fin4 seam]
      let img := sl.image
      let fmt := imgOfmt img
      let red := imgRed img
      let masks := imgMasks img
      let w0 := m.ss[fin64 slot]
      let named : Bool :=
        sl.valid && ((imgReadsV img).any (fun v => !vEnabled m.tconf v) || (masks != 0 && !qEnabled m.tconf)
          || (red != 0 && !vEnabled m.tconf vr.toNat) || (red == 4 && vr != 7 && !vEnabled m.tconf (vr.toNat + 1))
          || (m0Block w0 && fmt != 15 && fmtHasBlock fmt && scalesDisabled m w0 128))
      let q := m.q[imgQs img]
      let done (s : State) (ls : List (List Segment)) : IRes :=
        if masks != 0 && s.skewed q then s.afterTile (fun s => s.skewExc q)
        else s.enter (.kout (fin4 k) (fin4 seam) (fin8 vr) kz (fin64 slot) ls (if masks != 0 && q.1 then some (imgQs img) else none))
      s.tileChecks
        [(!kEnabled m.tconf k.toNat || !ssEnabled m.tconf || named, exc15 w 3),
         (sl.valid && red == 4 && vr == 7, exc15 w 6),
         (m0Block w0 && decide (7 < m0Last w0 128), exc18 w slot.toNat 2),
         (!sl.valid, exc19 0 seam.toNat 5)]
        (if fmt = 15 then done s []
         else s.withLines .store (s.baseReg ra) (s.readG rb) 128 (16 * fmtWidth fmt) done))

/-- SEAMLD: retires when the image has been taken; a failing check raises cause 19 (09 R224). -/
def execSeamld (rd ra : RegIx) (slot : BitVec 6) (sel : BitVec 3) (seam : BitVec 2) (rsv : BitVec 1) (s : State) :
    Host.Outcome State Fault Refusal :=
  s.issue fun s =>
    let w := encTC 0x36 rd ra (scaleImm slot sel seam rsv) 0
    guardRsv (rd == 0 && slot == 0 && sel == 0 && rsv == 0) w s (s.tileGate w fun s =>
      let va := s.readG ra
      s.withLines .load va 0 1 4096 fun s ls =>
        s.afterTile fun s =>
          let (s, d, p) := s.readLine ls.flatten
          match s.seamTake (fin4 seam) va d (firstPoison p).isSome with
          | (s, none) => .done s
          | (s, some r) => .exc s (exc19 va seam.toNat r))

/-- SCALE.SET (08 R206, Table 8.11). -/
def execScaleSet (rd ra : RegIx) (slot : BitVec 6) (sel : BitVec 3) (seam : BitVec 2) (rsv : BitVec 1) (s : State) :
    Host.Outcome State Fault Refusal :=
  s.issue fun s =>
    let w := encTC 0x36 rd ra (scaleImm slot sel seam rsv) 1
    guardRsv (rd == 0 && seam == 0 && rsv == 0) w s (s.tileGate w fun s =>
      let v := s.readG ra
      let f := m0Fmt v.toNat
      s.tileChecks
        [(!ssEnabled s.mirror.tconf, exc15 w 3),
         (sel == 0 && m0Block v.toNat && (!fmtHasBlock f || decide (7 < m0Last v.toNat (tileDepth (fmtWidth f)))),
          exc18 w slot.toNat 2)]
        (s.enter (.scaleSet (fin64 slot) (fin8 sel) v)))

/-- SCALE.UPD (08 R209). -/
def execScaleUpd (rd ra : RegIx) (slot : BitVec 6) (sel : BitVec 3) (seam : BitVec 2) (rsv : BitVec 1) (s : State) :
    Host.Outcome State Fault Refusal :=
  s.issue fun s =>
    let w := encTC 0x36 rd ra (scaleImm slot sel seam rsv) 2
    guardRsv (rd == 0 && ra == 0 && sel == 0 && seam == 0 && rsv == 0) w s (s.tileGate w fun s =>
      s.tileChecks [(!ssEnabled s.mirror.tconf, exc15 w 3)] (s.enter (.scaleUpd (fin64 slot))))

/-- SCALE.RD: the word as every earlier tile instruction leaves it (R161). -/
def execScaleRd (rd ra : RegIx) (slot : BitVec 6) (sel : BitVec 3) (seam : BitVec 2) (rsv : BitVec 1) (s : State) :
    Host.Outcome State Fault Refusal :=
  s.issue fun s =>
    let w := encTC 0x36 rd ra (scaleImm slot sel seam rsv) 3
    guardRsv (ra == 0 && seam == 0 && rsv == 0) w s (s.tileGate w fun s =>
      s.tileChecks [(!ssEnabled s.mirror.tconf, exc15 w 3)]
        (s.afterTile fun s =>
         .done (s.writeG rd (wd (ssWord s.tile.regs.ss[fin64 slot] sel.toNat)))))

/-! ### STEP and DRAW (10) -/

/-- The issuing context owns live tile state that is not lazy-pending (08 R210). -/
def State.ownsLive (s : State) : Bool :=
  decide (s.pwr.tile = .on) && (match s.bm.owner with
    | some o => decide (o.level = s.lvl) && !o.pend && (decide (s.lvl ≠ 0) || o.tsb == s.bm.tsbp[0])
    | none => false)

/-- The journal side of STEP at dispatch: SEQ and slot taken, the record pending (10 R239). -/
def Journal.take (j : Journal) : Journal :=
  let n := 2 ^ j.log2len.toNat
  let slot := j.head.toNat % n
  { j with seq := j.seq + 1, head := BitVec.ofNat 26 ((slot + 1) % n)
           pend := j.pend ++ [{ seq := j.seq, addr := j.base.toNat * 4096 + 64 * slot, data := none }] }

/-- STEP (10 R239). -/
def execStep (rsv : BitVec 22) (s : State) : Host.Outcome State Fault Refusal :=
  s.issue fun s =>
    guardRsv (rsv == 0) (encJ 0x2F (rsv.toNat * 16 + 5)) s
      (if 8 ≤ s.jnl.pend.length ∨ (s.ownsLive = true ∧ 16 ≤ s.tile.queue.length) then .wait s
       else
        let cnt := s.jnl.stepcnt + 1
        let seq := if s.jnl.en then some s.jnl.seq else none
        let j := { s.jnl with stepcnt := cnt }
        let s1 := { s.tallyInc 4 with jnl := if s.jnl.en then j.take else j }
        if s.ownsLive then .done (s1.enqueue (.stepUpdate s.jnl.dcur cnt s.jnl.ssgrp seq))
        else
          match seq with
          | some sq =>
            .done (s1.handJournal sq
              (journalRecord 0 s.straps.nodeId.toNat s.jnl.ssgrp.toNat sq cnt s.jnl.dcur 0 (List.replicate 16 0)))
          | none => .done s1)

/-- DRAW: a poisoned stream raises cause 25; then the skew check; then one sequential call (10 R236). -/
def execDraw (rd : RegIx) (q : BitVec 4) (rsv : BitVec 13) (s : State) : Host.Outcome State Fault Refusal :=
  s.issue fun s =>
    let w := encJ 0x2F (rd.toNat * 2 ^ 21 + rsv.toNat * 2 ^ 8 + q.toNat * 16 + 6)
    guardRsv (rsv == 0) w s (s.tileGate w fun s =>
      s.tileChecks [(!qEnabled s.mirror.tconf, exc15 w 3)]
        (s.afterTile fun s =>
         let r := s.tile.regs
         let x := r.q[fin16 q]
         let tag := (qArmed x, wd (qTag x))
         if r.qpois.getLsbD q.toNat then .exc s { cause := 25, eaddr := q.setWidth 64 }
         else if s.skewed tag then s.skewExc tag
         else
          let (d, x') := qDraw (qPut x 2 (qWord x 2 % 2 ^ 63))
          .done ((s.setRegs (r.setQ (fin16 q) x')).writeG rd (wd (d.x1 * 2 ^ 32 + d.x0)))))

/-! ### QDATA (10 R233) -/

/-- The gate of a QDATA access, and its wait for earlier tile instructions (10 R233). -/
def State.qdataGate (s : State) (w : Word) (k : State → IRes) : IRes :=
  s.tileGate w fun s => s.tileChecks [(!qEnabled s.mirror.tconf, exc15 w 3)] (s.afterTile k)

/-- The selected word. -/
def State.qdataWord (s : State) : Word := wd (qWord s.tile.regs.q[fin16 s.jnl.qstream] s.jnl.qword.toNat)

/-- A write of the selected word (10 R233). -/
def State.qdataPut (s : State) (v : Word) : State :=
  let r := s.tile.regs
  let n := fin16 s.jnl.qstream
  let x := r.q[n]
  match s.jnl.qword.toNat with
  | 0 => s.setRegs { r.setQ n (BitVec.ofNat 256 v.toNat) with qpois := putBit r.qpois n.val false }
  | 1 => s.setRegs (r.setQ n (qPut x 1 v.toNat))
  | 2 => s.setRegs (r.setQ n (qPut x 2 (v.toNat % 2 ^ 63 + 2 ^ 63)))
  | _ => s.setRegs (r.setQ n (qPut (qPut x 3 v.toNat) 2 (qWord x 2 % 2 ^ 63 + 2 ^ 63)))

/-- QDATA_WRITE: CSRW of QDATA from ra. -/
def execQdataWrite (rd ra : RegIx) (s : State) : Host.Outcome State Fault Refusal :=
  s.issue fun s =>
    s.qdataGate (encC rd ra 0x449 1) fun s =>
      let old := s.qdataWord
      .done ((s.qdataPut (s.readG ra)).writeG rd old)

/-- QDATA_READ: CSRR of QDATA to rd. -/
def execQdataRead (rd : RegIx) (s : State) : Host.Outcome State Fault Refusal :=
  s.issue fun s => s.qdataGate (encC rd 0 0x449 0) fun s => .done (s.writeG rd s.qdataWord)

/-! ### The queue's own happenings -/

/-- STEP_UPDATE_ENTRY: STEP's entry starts, where it is the next to start (08 R210). -/
def execStepUpdateEntry (s : State) : Host.Outcome State Fault Refusal :=
  answer s (match s.tile.queue.find? (fun e => !e.started) with
    | some e => match e.op with
      | .stepUpdate _ _ _ _ => s.startEntry []
      | _ => s
    | none => s)

/-- TILE_ENTRY_START (06 R164): of an OPA, with the elements that the stope's hardware gets wrong (11 R248). -/
def execTileEntryStart (s : State) (faults : List (BitVec 14 × BitVec 32) := []) : Host.Outcome State Fault Refusal :=
  if elementList faults then answer s (s.startEntry faults) else .refused .illFormed

/-- TILE_ENTRY_COMPLETE: the started entry at a place of the queue completes (06 R165). -/
def execTileEntryComplete (index : BitVec 4) (s : State) : Host.Outcome State Fault Refusal :=
  answer s (s.completeEntry index.toNat)

/-- The W1C write of TFLAGS, once every earlier tile instruction has completed (06 R171). -/
def State.clearTflags (s : State) (v : Word) : State :=
  if s.tileStuck then s
  else
    let s := s.drainTile
    s.setRegs { s.tile.regs with tflags := s.tile.regs.tflags &&& ~~~(v.setWidth 6) }

/-- TFLAGS_WRITE (06 R171). -/
def execTflagsWrite (v : BitVec 64) (s : State) : Host.Outcome State Fault Refusal := answer s (s.clearTflags v)

end Sys2Proof.Machine
end

