-- ==== Sys2Proof/Machine/CsrRead.lean ====
section
/-! DEFINITION. The CSRs: which numbers exist and who may read and write them (00 Table 0.7, R15, and the CSR table of each
chapter), and what each reads. -/

namespace Sys2Proof.Machine

/-- An entry of a Read or Write column. -/
inductive CsrRight where
  /-- "—". -/
  | absent
  | user
  | super
  /-- Deputy (RWS): Supervisor for the core, whose writes take no effect (04 R108). -/
  | deputy
  deriving DecidableEq, Repr

/-- A run of CSR numbers with the same rights. -/
structure CsrRow where
  /-- First number. -/
  lo : Nat
  /-- Last number. -/
  hi : Nat
  /-- Read column. -/
  read : CsrRight
  /-- Write column. -/
  write : CsrRight
  deriving DecidableEq, Repr

/-- Tables 2.13, 5.10, 4.9, 3.6 and 6.13. -/
def csrRowsLow : List CsrRow := [
  ⟨0x000, 0x001, .user, .absent⟩, ⟨0x008, 0x008, .user, .user⟩, ⟨0x010, 0x012, .user, .user⟩, ⟨0x020, 0x021, .user, .user⟩,
  ⟨0x030, 0x031, .user, .absent⟩, ⟨0x040, 0x042, .super, .absent⟩, ⟨0x100, 0x100, .user, .absent⟩, ⟨0x101, 0x106, .super, .super⟩,
  ⟨0x107, 0x107, .super, .absent⟩, ⟨0x108, 0x108, .super, .super⟩, ⟨0x109, 0x10B, .super, .absent⟩, ⟨0x110, 0x117, .super, .super⟩,
  ⟨0x118, 0x118, .super, .absent⟩, ⟨0x119, 0x119, .super, .super⟩, ⟨0x11A, 0x11A, .absent, .super⟩, ⟨0x11B, 0x11B, .super, .super⟩,
  ⟨0x120, 0x124, .super, .super⟩, ⟨0x140, 0x17F, .super, .absent⟩, ⟨0x200, 0x200, .super, .super⟩, ⟨0x201, 0x201, .super, .deputy⟩,
  ⟨0x202, 0x203, .super, .absent⟩, ⟨0x240, 0x27F, .super, .deputy⟩, ⟨0x280, 0x280, .super, .super⟩, ⟨0x281, 0x281, .user, .absent⟩,
  ⟨0x282, 0x283, .super, .super⟩, ⟨0x288, 0x288, .super, .super⟩, ⟨0x289, 0x28A, .super, .absent⟩, ⟨0x300, 0x300, .user, .user⟩,
  ⟨0x301, 0x301, .user, .absent⟩, ⟨0x302, 0x302, .super, .super⟩, ⟨0x303, 0x304, .user, .absent⟩, ⟨0x308, 0x30B, .user, .absent⟩,
  ⟨0x310, 0x329, .super, .absent⟩, ⟨0x32A, 0x32A, .super, .super⟩, ⟨0x32B, 0x32B, .super, .absent⟩]

/-- Tables 7.5, 9.8, 10.5, 11.3 and 12.6. -/
def csrRowsMid : List CsrRow := [
  ⟨0x380, 0x381, .super, .absent⟩, ⟨0x382, 0x382, .super, .super⟩, ⟨0x388, 0x38F, .super, .absent⟩, ⟨0x390, 0x392, .super, .absent⟩,
  ⟨0x398, 0x398, .user, .absent⟩, ⟨0x400, 0x400, .user, .absent⟩, ⟨0x404, 0x408, .user, .absent⟩, ⟨0x440, 0x440, .user, .super⟩,
  ⟨0x441, 0x442, .user, .user⟩, ⟨0x448, 0x449, .user, .user⟩, ⟨0x450, 0x456, .super, .super⟩, ⟨0x480, 0x480, .super, .super⟩,
  ⟨0x481, 0x483, .super, .absent⟩, ⟨0x484, 0x485, .super, .super⟩, ⟨0x488, 0x488, .super, .super⟩, ⟨0x489, 0x489, .super, .absent⟩,
  ⟨0x490, 0x490, .super, .absent⟩, ⟨0x4C0, 0x4C0, .super, .absent⟩, ⟨0x4C2, 0x4C2, .super, .super⟩, ⟨0x4C3, 0x4C4, .super, .absent⟩,
  ⟨0x4C8, 0x4C8, .absent, .super⟩, ⟨0x4C9, 0x4CA, .super, .super⟩, ⟨0x4D0, 0x4D0, .super, .super⟩, ⟨0x4D1, 0x4D1, .super, .absent⟩]

/-- Tables 13.11, 15.18, 16.15 and 17.16. -/
def csrRowsHigh : List CsrRow := [
  ⟨0x500, 0x505, .super, .super⟩, ⟨0x510, 0x510, .user, .user⟩, ⟨0x511, 0x511, .user, .absent⟩, ⟨0x512, 0x512, .user, .user⟩,
  ⟨0x513, 0x513, .absent, .user⟩, ⟨0x514, 0x514, .user, .absent⟩, ⟨0x515, 0x515, .super, .super⟩, ⟨0x540, 0x57F, .super, .absent⟩,
  ⟨0x580, 0x583, .super, .super⟩, ⟨0x584, 0x584, .super, .absent⟩, ⟨0x585, 0x585, .super, .super⟩, ⟨0x5C0, 0x5DF, .super, .super⟩,
  ⟨0x5E0, 0x5E0, .super, .super⟩, ⟨0x600, 0x600, .super, .absent⟩, ⟨0x601, 0x601, .super, .super⟩, ⟨0x602, 0x602, .super, .absent⟩,
  ⟨0x610, 0x611, .super, .super⟩, ⟨0x612, 0x612, .absent, .super⟩, ⟨0x613, 0x613, .super, .super⟩, ⟨0x614, 0x615, .super, .absent⟩,
  ⟨0x640, 0x640, .super, .super⟩, ⟨0x641, 0x641, .super, .absent⟩, ⟨0x642, 0x642, .super, .super⟩, ⟨0x644, 0x644, .super, .absent⟩,
  ⟨0x645, 0x646, .super, .super⟩, ⟨0x648, 0x648, .super, .super⟩, ⟨0x650, 0x650, .super, .super⟩, ⟨0x651, 0x651, .super, .absent⟩,
  ⟨0x660, 0x66D, .super, .super⟩, ⟨0xF00, 0xF00, .super, .super⟩, ⟨0xF08, 0xF0B, .super, .super⟩]

/-- The rights of a CSR number; none where it is reserved (00 R15). -/
def csrRights (n : Nat) : Option CsrRow :=
  (csrRowsLow ++ csrRowsMid ++ csrRowsHigh).find? (fun r => decide (r.lo ≤ n) && decide (n ≤ r.hi))

/-- A number that the customer logic defines (00 Table 0.7). -/
def csrOfWinze (n : Nat) : Bool := decide (0x700 ≤ n) && decide (n ≤ 0x7FF)

/-- Bits from the lowest up. -/
def packBits (l : List Bool) : Nat := packWords 1 (l.map bit)

/-! ### What each CSR reads -/

/-- Core CSRs (02 R63). -/
def State.csrCore (s : State) (n : Nat) : Nat :=
  let b := s.bank
  match n with
  | 0x000 => 0x07020100
  | 0x001 => s.straps.nodeId.toNat
  | 0x008 => b.fl.toBits.toNat
  | 0x010 => b.lc.toNat
  | 0x011 => b.lb.toNat
  | 0x012 => b.le.toNat
  | 0x020 => s.core.fprm.toNat
  | 0x021 => s.core.fpstat.toNat
  | 0x030 => s.core.cycle.toNat
  | 0x031 => s.core.instret.toNat
  | 0x040 => s.wzcfg
  | 0x041 => if s.build.winze then s.wz.timeouts.toNat + 2 ^ 16 * s.wz.parerrs.toNat else 0
  | 0x042 =>
    if s.build.winze then
      packBits (s.core.deferred.toList.map (·.wzPend)) + 2 ^ 8 * packBits (s.core.deferred.toList.map (·.wzKind))
    else 0
  | _ => 0

/-- TOWNER (05 Table 5.16): FILLED where a displaced owner gave way to the current one. -/
def State.townerWord (s : State) : Nat :=
  match s.bm.owner with
  | none => 0
  | some o =>
    let filled := match s.bm.displaced with
      | d :: _ => d.filler == o.level
      | [] => false
    2 ^ 63 + 2 ^ 62 * bit o.pend + 2 ^ 59 * o.level.val + (if filled then 2 ^ 56 * o.level.val + 2 ^ 55 else 0) + tsbAddr o.tsb

/-- EVRTk: sixteen routes of four bits. -/
def State.evrtWord (s : State) (k : Nat) : Nat :=
  packWords 4 (((s.bm.evrt.toList.drop (16 * k)).take 16).map (·.toNat))

/-- Level and banksman CSRs (05 R140). -/
def State.csrLevel (s : State) (n : Nat) : Nat :=
  let b := s.bank
  if 0x110 ≤ n ∧ n ≤ 0x117 then tsbAddr s.bm.tsbp[Fin.ofNat 8 (n - 0x110)]
  else if 0x120 ≤ n ∧ n ≤ 0x123 then s.evrtWord (n - 0x120)
  else if 0x140 ≤ n ∧ n ≤ 0x17F then
    match (selectionOrder s.bm.ready)[n - 0x140]? with
    | some e => 2 ^ 63 + tsbAddr e.tsb + e.subpri.toNat
    | none => 0
  else
    match n with
    | 0x100 => s.lvl.val
    | 0x101 => b.maskWord.toNat
    | 0x102 => b.epc.toNat
    | 0x103 => b.ecause.toNat
    | 0x104 => b.eaddr.toNat
    | 0x105 => b.einfo.toNat
    | 0x106 => b.esave.toNat
    | 0x107 => b.evnum.toNat
    | 0x108 => bit s.bm.spill + 2 * s.bm.bound.toNat
    | 0x109 => s.build.nbank + 16 * bit (!s.res.fills[3].inUse.isEmpty)
    | 0x10A => bit b.lzres + 2 * bit b.lzfill
    | 0x10B => b.lzsp.toNat
    | 0x118 => s.townerWord
    | 0x119 => s.bm.quant.toNat + 2 ^ 32 * s.bm.left.toNat
    | 0x11B => s.bm.ready.length + 2 ^ 8 * bit s.bm.rlOvf
    | 0x124 => s.bm.evpend.toNat
    | _ => 0

/-- PMATnA (04 Table 4.14). -/
def Pmat.wordA (r : Pmat) : Nat := r.log2size.toNat + r.base.toNat * 2 ^ 14 + bit r.valid * 2 ^ 63

/-- PMATnB (04 Table 4.15). -/
def Pmat.wordB (r : Pmat) : Nat :=
  bit r.device + r.tier.toNat * 2 + bit r.secure * 8 + r.ilways.toNat * 16 + r.ilgran.toNat * 128 + r.ilfirst.toNat * 512

/-- Translation CSRs (04 R108). -/
def State.csrXlat (s : State) (n : Nat) : Nat :=
  let x := s.xl
  if 0x240 ≤ n ∧ n ≤ 0x27F then
    let r := x.pmat[Fin.ofNat 32 ((n - 0x240) / 2)]
    if n % 2 = 0 then r.wordA else r.wordB
  else
    match n with
    | 0x200 => bit x.s1en + x.levels.toNat * 4 + x.s1root.toNat * 2 ^ 14 + x.asid.toNat * 2 ^ 48
    | 0x201 => bit x.s2en + x.holdlim.toNat * 4 + x.s2root.toNat * 2 ^ 14
    | 0x202 => bit s.build.flatTlb
    | 0x203 => x.cntTimeouts.toNat + x.cntDeclined.toNat * 2 ^ 16 + x.cntHeld.toNat * 2 ^ 32
    | _ => 0

/-- Memory-system CSRs (03 R85). -/
def State.csrMemory (s : State) (n : Nat) : Nat :=
  match n with
  | 0x280 => s.ts.cache16.toNat
  | 0x281 => s.tsSteps + bit s.build.twoDies * 16 + s.tsUsable * 2 ^ 16
  | 0x282 => bit s.ts.busy + bit s.ts.unb * 2 + s.ts.unbcnt.toNat * 2 ^ 16
  | 0x283 => s.ts.unAddr.toNat + s.ts.unSeq.toNat * 2 ^ 47 + bit s.ts.unValid * 2 ^ 63
  | 0x288 => bit s.pf.en + s.pf.dist.toNat * 2 + s.pf.trackers.toNat * 32 + bit s.pf.l1 * 2 ^ 11
  | 0x289 => s.pf.issued.toNat + s.pf.dropped.toNat * 2 ^ 32
  | 0x28A => packBits (s.core.deferred.toList.map (·.devPend)) + 2 ^ 8 * packBits (s.core.deferred.toList.map (·.devOutst))
  | _ => 0

/-- TPEVT (06 Table 6.16). -/
def Tile.evtWord (t : Tile) : Nat :=
  t.evtMissed.toNat + bit t.evtStorage * 2 ^ 30 + t.evtReg.toNat * 2 ^ 31 + t.evtClass.toNat * 2 ^ 37 + t.evtIndex.toNat * 2 ^ 40
    + t.evtSeq.toNat * 2 ^ 47 + bit t.evtValid * 2 ^ 63

/-- Tile CSRs (06 R171). TCONF and KSTAT show the registers as the entries executed so far have left them, without a wait, and not the
mirror of R162 (log 186). -/
def State.csrTile (s : State) (n : Nat) : Nat :=
  let r := s.tile.regs
  if 0x308 ≤ n ∧ n ≤ 0x30B then r.kdepth[Fin.ofNat 4 (n - 0x308)].toNat
  else if 0x310 ≤ n ∧ n ≤ 0x31F then r.tpois[Fin.ofNat 8 ((n - 0x310) / 2)].toNat / 2 ^ (64 * (n % 2)) % 2 ^ 64
  else if 0x320 ≤ n ∧ n ≤ 0x327 then r.kpois[Fin.ofNat 4 ((n - 0x320) / 2)].toNat / 2 ^ (64 * (n % 2)) % 2 ^ 64
  else
    match n with
    | 0x300 => r.tflags.toNat
    | 0x301 => r.tconf.toNat
    | 0x302 => bit s.tile.en + bit s.tile.uen * 2
    | 0x303 => s.tile.queue.length + bit (s.tile.queue.any (·.started)) * 2 ^ 8
    | 0x304 => r.ktype.toNat
    | 0x328 => r.vpois.toNat + r.qpois.toNat * 2 ^ 8
    | 0x329 => r.sspois.toNat
    | 0x32A => s.tile.evtWord
    | 0x32B => s.tile.evtAddr.toNat
    | _ => 0

/-- A spare of the stope (07 Table 7.9). -/
def FillMachine.spareWord (m : FillMachine) (n : Nat) : Nat :=
  if m.deadSpares.contains n then 3 * 2 ^ 8
  else
    match m.inUse.find? (fun x => x.1 == n) with
    | some (_, u) => 2 * 2 ^ 8 + u % 128
    | none =>
      match m.openFill with
      | some o => if o.spare = some n then 2 ^ 8 + o.unit % 128 else 0
      | none => 0

/-- STFILL (07 Table 7.7); ROW depends on time alone. -/
def State.stfillWord (s : State) (row : Nat) : Nat :=
  match s.res.fills[0].openFill with
  | none => 0
  | some o =>
    2 ^ 63 + row * 2 ^ 40 + (match o.spare with
      | some n => n * 2 ^ 48 + o.unit % 128 * 2 ^ 52
      | none => 2 ^ 60)

/-- The result of a closed fill: Table 7.8 for class 0, Table 16.17 for the others. -/
def FillRes.word (r : FillRes) (stope : Bool) : Nat :=
  bit r.valid * 2 ^ 63 + r.seq.toNat * 2 ^ 47 + r.outcome.toNat * 2 ^ 44 +
    (if stope then
      r.unit.toNat % 128 * 2 ^ 28 + r.spare.toNat * 2 ^ 24 + r.restarts.toNat * 2 ^ 16 + min r.poisoned.toNat 255 * 2 ^ 8
     else
      r.unit.toNat * 2 ^ 32 + r.spare.toNat * 2 ^ 28 + min r.restarts.toNat 3 * 2 ^ 26 + r.first.toNat * 2 ^ 13 + r.poisoned.toNat)

/-- Stope CSRs (07 R196) and seam CSRs (09 R230). -/
def State.csrStope (s : State) (n : Nat) : Nat :=
  let m := s.res.fills[0]
  if 0x388 ≤ n ∧ n ≤ 0x38F then m.spareWord (n - 0x388)
  else if 0x390 ≤ n ∧ n ≤ 0x392 then
    packBits ((List.range 64).map (fun i => decide (64 * (n - 0x390) + i < 136) && !s.colHealthy (64 * (n - 0x390) + i)))
  else if 0x404 ≤ n ∧ n ≤ 0x407 then s.tile.seam[Fin.ofNat 4 (n - 0x404)].srcWord
  else
    match n with
    | 0x380 =>
      s.res.stopeMode.toNat + bit m.openFill.isSome * 4 + (s.freeSpares 0).length * 2 ^ 8 + m.queue.length * 2 ^ 12
        + s.healthyCols.length * 2 ^ 24
    | 0x381 => s.stfillWord (Config.freeCount (s.free - 1) % 129)
    | 0x382 => m.res.word true
    | 0x398 => s.tile.stopcnt.toNat
    | 0x400 =>
      packBits (s.tile.seam.toList.map (·.valid)) + packBits (s.tile.seam.toList.map (·.poison)) * 16
        + bit (s.tile.queue.any (fun e => e.started && e.op.unit == .seam)) * 2 ^ 8
    | 0x408 => s.tile.seamcnt.toNat
    | _ => 0

/-- Stream and journal CSRs (10 R245). -/
def State.csrJournal (s : State) (n : Nat) : Nat :=
  let j := s.jnl
  match n with
  | 0x440 => j.stepcnt.toNat
  | 0x441 => j.mbatch.toNat
  | 0x442 => j.dcur.toNat
  | 0x448 => j.qstream.toNat + j.qword.toNat * 16
  | 0x449 => s.qdataWord.toNat
  | 0x450 => bit j.en + j.ssgrp.toNat * 2 + j.log2len.toNat * 32
  | 0x451 => j.base.toNat * 2 ^ 12
  | 0x452 => j.seq.toNat
  | 0x453 => j.head.toNat
  | 0x454 => j.obj.toNat + bit j.objEn * 2 ^ 63
  | 0x455 => bit j.err + bit j.jch * 2 + j.pend.length * 2 ^ 12 + j.errcnt.toNat * 2 ^ 16 + j.done.toNat * 2 ^ 32
  | 0x456 => j.errSeq.toNat + j.errReason.toNat * 2 ^ 32 + j.errCseq.toNat * 2 ^ 47 + bit j.errValid * 2 ^ 63
  | _ => 0

/-- CALSTAT (11 Table 11.10). -/
def Assay.calWord (a : Assay) : Nat :=
  a.vid.toNat + a.trim.toNat * 2 ^ 16 + a.steps.toNat * 2 ^ 32 + bit (decide (a.holdoff ≠ 0)) * 2 ^ 61 + bit a.knob * 2 ^ 62
    + bit a.stepOpen * 2 ^ 63

/-- Assay CSRs (11 R259). -/
def State.csrAssay (s : State) (n : Nat) : Nat :=
  let a := s.assay
  match n with
  | 0x480 => bit a.en + bit a.wide * 2 + a.rate.toNat * 2 ^ 8 + a.albkt.toNat * 2 ^ 16 + a.qs.toNat * 2 ^ 24
  | 0x481 => bit a.stepOpen + bit a.widePend.isSome * 2 + bit (!a.pend.isEmpty) * 4
    + (List.finRange 4).foldl (fun n p => n + bit (a.side.any (fun e => e.place == p)) * 2 ^ (8 + p.val)) 0
  | 0x482 => a.mismatch.toNat + a.samples.toNat * 2 ^ 32
  | 0x483 => a.wskip.toNat + a.skipped.toNat * 2 ^ 16 + a.wides.toNat * 2 ^ 32
  | 0x484 =>
    a.misMissed.toNat + a.misNelem.toNat * 2 ^ 15 + a.misPcol.toNat * 2 ^ 24 + bit a.misSingle * 2 ^ 32 + a.misSample.cb.toNat * 2 ^ 33
      + a.misSample.rb.toNat * 2 ^ 36 + a.misSample.ltag.toNat * 2 ^ 39 + a.misSeq.toNat * 2 ^ 47 + bit a.misValid * 2 ^ 63
  | 0x485 =>
    a.alSample.err.toNat + a.alSample.bucket.toNat * 2 ^ 34 + a.alSample.ltag.toNat * 2 ^ 39 + a.alSeq.toNat * 2 ^ 47
      + bit a.alValid * 2 ^ 63
  | 0x488 => a.selBucket.toNat + a.selTag.toNat * 32
  | 0x489 => (smGet 0#32 (32 * a.selTag.toNat + a.selBucket.toNat) a.hist).toNat
  | 0x490 => a.calWord
  | _ => 0

/-- Haulage CSRs (12 R276). -/
def State.csrHaulage (s : State) (n : Nat) : Nat :=
  let h := s.hl
  match n with
  | 0x4C0 =>
    bit s.hen + bit s.reqBusy * 2 + h.migrations.length * 4 + h.aborts.toNat * 2 ^ 8 + h.reqign.toNat * 2 ^ 16 + h.migs.toNat * 2 ^ 32
  | 0x4C2 => h.htsel.toNat
  | 0x4C3 => (s.heatWord h.htsel.toNat).toNat
  | 0x4C4 => h.drop.toNat
  | 0x4C9 => h.resDone.toNat + h.resOutcome.toNat * 2 ^ 44 + h.resSeq.toNat * 2 ^ 47 + bit h.resValid * 2 ^ 63
  | 0x4CA =>
    h.noteMissed.toNat + h.noteReason.toNat * 2 ^ 11 + h.notePage.toNat * 2 ^ 14 + h.noteSeq.toNat * 2 ^ 47 + bit h.noteValid * 2 ^ 63
  | 0x4D0 => h.thr.toNat + h.reflim.toNat * 2 ^ 8 + h.lstack.toNat * 2 ^ 16
  | 0x4D1 => h.refusals.toNat + h.takes.toNat * 2 ^ 32
  | _ => 0

/-- The word that SODATA shows (13 R301). -/
def State.sodataWord (s : State) : Nat :=
  if s.sy.selPk then
    match s.sy.parked[s.sy.selObj.toNat % 64]? with
    | none => 0
    | some p =>
      match s.sy.selWord.toNat with
      | 0 => 2 ^ 63 + tsbAddr p.tsb
      | 1 => p.obj.toNat + p.gen.toNat * 2 ^ 32
      | _ => 0
  else ((s.obj s.sy.selObj).word s.sy.selWord.toNat).toNat

/-- The mailbox channel of MBSEL. -/
def State.mailSel (s : State) : Fin 16 := chanOf (s.mb.selChan.setWidth 4)

/-- The channels 0 to 7 that MBSTAT shows. -/
def State.userChannels (s : State) : List Mailbox := s.mb.ch.toList.take 8

/-- Sync and mailbox CSRs (13 R300). -/
def State.csrSync (s : State) (n : Nat) : Nat :=
  let y := s.sy
  let m := s.mb.ch[s.mailSel]
  let w := s.mb.selWord.toNat
  if 0x540 ≤ n ∧ n ≤ 0x57F then
    match y.parked[n - 0x540]? with
    | some p => 2 ^ 63 + tsbAddr p.tsb
    | none => 0
  else
    match n with
    | 0x500 => y.selObj.toNat + y.selWord.toNat * 2 ^ 13 + bit y.selPk * 2 ^ 15
    | 0x501 => s.sodataWord
    | 0x502 => bit y.wqovf + y.parked.length * 2 + y.drops.toNat * 2 ^ 32
    | 0x503 => y.errObj.toNat + y.errSrc.toNat * 2 ^ 13 + y.errReason.toNat * 2 ^ 43 + y.errSeq.toNat * 2 ^ 47 + bit y.errValid * 2 ^ 63
    | 0x504 => match y.wakeq with
      | o :: _ => 2 ^ 63 + o.toNat
      | [] => 0
    | 0x505 => y.takeObj.toNat + bit y.takeEn * 2 ^ 63
    | 0x510 => s.mb.selChan.toNat + s.mb.selWord.toNat * 8
    | 0x511 => m.inSlot.toNat / 2 ^ (64 * w) % 2 ^ 64
    | 0x512 => m.outSlot.toNat / 2 ^ (64 * w) % 2 ^ 64
    | 0x514 =>
      packBits (s.userChannels.map (·.inFull)) + packBits (s.userChannels.map (·.outFull)) * 2 ^ 8
        + packBits (s.userChannels.map (·.credit)) * 2 ^ 16 + s.mb.drops.toNat * 2 ^ 48
    | 0x515 => m.pnode.toNat + m.pchan.toNat * 2 ^ 24 + bit m.en * 2 ^ 63
    | _ => 0

/-- Tram CSRs (13 R300). -/
def State.csrTram (s : State) (n : Nat) : Nat :=
  let x := s.tr.ch[tramOf s.tr.sel]
  if 0x5C0 ≤ n ∧ n ≤ 0x5DF then s.tr.ch[Fin.ofNat 32 (n - 0x5C0)].head.toNat
  else
    match n with
    | 0x580 => s.tr.sel.toNat
    | 0x581 => bit x.pa * 2 ^ 62 + bit x.en * 2 ^ 63
    | 0x582 => x.log2len.toNat + x.ring.toNat * 2 ^ 12
    | 0x583 => x.root.toNat
    | 0x584 => x.tail.toNat
    | 0x585 => min x.opens.length 0xFFF + bit (!x.opens.isEmpty) * 2 ^ 12 + x.last.toNat * 2 ^ 27 + bit x.halt * 2 ^ 31 + x.done.toNat * 2 ^ 32
    | 0x5E0 => s.tr.winLog.toNat + s.tr.winBase.toNat * 2 ^ 14 + bit s.tr.winEn * 2 ^ 63
    | _ => 0

/-- Dictionary and capability CSRs (15 R348). -/
def State.csrDict (s : State) (n : Nat) : Nat :=
  let d := s.dict
  match n with
  | 0x600 => 0x40
  | 0x601 => d.capaddr.toNat * 8
  | 0x602 => s.capWord (d.capaddr.toNat * 8)
  | 0x610 => d.idx.toNat
  | 0x611 => d.wdata.toNat
  | 0x613 =>
    bit d.resLast * 2 ^ 34 + d.resLen.toNat * 2 ^ 35 + d.resType.toNat * 2 ^ 39 + d.resStatus.toNat * 2 ^ 43 + d.resSeq.toNat * 2 ^ 47
      + bit d.resValid * 2 ^ 63
  | 0x614 => d.resData.toNat
  | 0x615 => bit d.csrBusy + d.ign.toNat * 2 ^ 16
  | _ => 0

/-- The counter or bucket that TALSEL selects (16 R371). -/
def State.taldata (s : State) : Nat :=
  let sel := s.res.talsel.toNat
  let sub := sel % 128
  if bitOf sel 7 then (smGet 0#64 (32 * sub + sel / 256) s.res.hist).toNat else (s.res.tally[sub]?.getD 0).toNat

/-- Resilience CSRs (16 R371). -/
def State.csrResil (s : State) (n : Nat) : Nat :=
  let r := s.res
  if h : 0x660 ≤ n ∧ n ≤ 0x66D then
    let c : Fin 14 := ⟨n - 0x660, by omega⟩
    r.thr[c].toNat + r.thrPending[c].toNat * 2 ^ 16
  else
    match n with
    | 0x640 =>
      r.capMissed.toNat + r.capUnit.toNat * 2 ^ 29 + r.capKind.toNat * 2 ^ 41 + r.capClass.toNat * 2 ^ 43 + r.capSeq.toNat * 2 ^ 47
        + bit r.capValid * 2 ^ 63
    | 0x641 => r.capAddr.toNat
    | 0x642 => r.talstat.toNat + bit r.latdev * 2 ^ 15
    | 0x644 => packWords 4 (r.fills.toList.map (fun m => m.queue.length + 8 * bit m.openFill.isSome))
    | 0x645 => r.fillsel.toNat
    | 0x646 => if r.fillsel = 0 then 0 else r.fills[Fin.ofNat 5 r.fillsel.toNat].res.word false
    | 0x648 => r.dumpSlot.toNat * 2 ^ 32 + r.dumpStatus.toNat * 2 ^ 44 + r.dumpSeq.toNat * 2 ^ 47 + bit r.dumpValid * 2 ^ 63
    | 0x650 => r.talsel.toNat
    | 0x651 => s.taldata
    | _ => 0

/-- Debug CSRs (17 R398). -/
def State.csrDebug (s : State) (n : Nat) : Nat :=
  if 0xF08 ≤ n ∧ n ≤ 0xF0B then s.core.dbgBp[Fin.ofNat 4 (n - 0xF08)].toNat
  else if n = 0xF00 then s.core.dbgStep.toNat else 0

/-- What a CSR reads (00 R8): a number without a Read column reads zero. -/
def State.csrWord (s : State) (n : Nat) : Word :=
  wd (if n < 0x100 then s.csrCore n
    else if n < 0x200 then s.csrLevel n
    else if n < 0x280 then s.csrXlat n
    else if n < 0x300 then s.csrMemory n
    else if n < 0x380 then s.csrTile n
    else if n < 0x440 then s.csrStope n
    else if n < 0x480 then s.csrJournal n
    else if n < 0x4C0 then s.csrAssay n
    else if n < 0x500 then s.csrHaulage n
    else if n < 0x580 then s.csrSync n
    else if n < 0x600 then s.csrTram n
    else if n < 0x640 then s.csrDict n
    else if n < 0x680 then s.csrResil n
    else if n < 0xF00 then 0
    else s.csrDebug n)

/-- Time reaches what is about to be read: CYCLE, TQUANT.LEFT, STFILL.ROW, the heat table, the tally (log 55). -/
def State.csrTime (s : State) (n : Nat) : State :=
  match n with
  | 0x030 =>
    if s.core.mode = .frozen ∨ s.core.mode = .held then s
    else { s.drawn with core := { s.core with cycle := s.core.cycle + wd (Config.freeCount s.free) } }
  | 0x119 =>
    { s.drawn with bm := { s.bm with left := s.bm.left - BitVec.ofNat 32 (min (Config.freeCount s.free) s.bm.left.toNat) } }
  | 0x381 => s.drawn
  | 0x4C3 => s.ageOn
  | 0x651 => s.passTime
  | _ => s

/-- Reads of the tile flags, depths and poison marks wait for every earlier tile instruction (06 R171). -/
def csrAfterTile (n : Nat) : Bool := n == 0x300 || (decide (0x308 ≤ n) && decide (n ≤ 0x329))

/-- A read of a CSR at its time. -/
def State.csrGet (s : State) (n : Nat) : State × Word :=
  let s := s.csrTime n
  (s, s.csrWord n)

end Sys2Proof.Machine
end

