-- ==== Sys2Proof/Machine/Winze.lean ====
section
/-! DEFINITION. The winze port: requests, transfers, responses and timeouts (02 R56 to R62). -/

namespace Sys2Proof.Machine

/-- The requests outstanding. -/
def Winze.outstanding (w : Winze) : List WzReq := w.req.toList ++ w.early

/-- A tag for the next request, of which at most 16 are outstanding: the first from the counter on that awaits no response, else the
one ignored longest (R59, log 20). -/
def Winze.pickTag (w : Winze) : Option (BitVec 4) :=
  let used := w.outstanding.map (·.tag)
  let tags := ((List.range 16).map (fun i => w.nextTag + BitVec.ofNat 4 i)).filter (fun t => !used.contains t)
  match tags.find? (fun t => !w.ignored.contains t) with
  | some t => some t
  | none => (w.ignored.filter (fun t => !used.contains t)).getLast?

/-- The parity bit of each byte is the exclusive-OR of its bits (R57). -/
def byteParity (v : Word) : BitVec 8 :=
  (List.range 8).foldl (fun p i =>
    let b := v.extractLsb' (8 * i) 8
    p ||| (BitVec.ofNat 8 ((List.range 8).countP (fun j => b.getLsbD j) % 2) <<< i)) 0

/-- The fields of a request that the instruction fixes. -/
structure WzAsk where
  /-- WZ_REQ_OP. -/
  op : BitVec 2
  /-- WZ_REQ_FUNC. -/
  func : BitVec 11
  /-- WZ_REQ_A. -/
  a : Word
  /-- WZ_REQ_B. -/
  b : Word
  /-- WZ_REQ_CSR. -/
  csr : Bool
  /-- Destination. -/
  rd : RegIx
  /-- The instruction word. -/
  word : Word

/-- The request of an instruction at `pc` as the port offers it (Table 2.11). -/
def State.wzRequest (s : State) (q : WzAsk) (tag : BitVec 4) (spec : Bool) (pc : Word) : WzReq :=
  { tag := tag, op := q.op, func := q.func, a := q.a, b := q.b, priv := s.super, lvl := s.lvl, csr := q.csr, rd := q.rd,
    word := q.word, spec := spec, apar := byteParity q.a, bpar := byteParity q.b, pc := pc, transferred := false, answer := none }

/-- A tag is taken: a response that was to be ignored no longer is. -/
def Winze.takeTag (w : Winze) (tag : BitVec 4) : Winze := { w with ignored := w.ignored.erase tag, nextTag := tag + 1 }

/-- Offer the oldest instruction's request (R57 to R60): one whose parity check fails is not offered and raises cause 20; with no tag
free it waits. -/
def State.offerWinze (s : State) (q : WzAsk) (parityError : Bool) : IRes :=
  if parityError then .exc s { cause := 20, einfo := 8 }
  else match s.wz.pickTag with
    | none => .wait s
    | some tag => .wait { s with wz := { s.wz.takeTag tag with req := some (s.wzRequest q tag false s.bank.pc) } }

/-- Offer a speculative request for a later instruction, at `pc`: only where the logic accepts them (R59). One whose parity check fails
is not offered, and its instruction asks again when it is the oldest (log 165). -/
def State.speculate (s : State) (q : WzAsk) (pc : Word) (parityError : Bool) : State :=
  if !s.coreRuns || !s.build.winze || !s.wz.specsafe || parityError then s
  else match s.wz.pickTag with
    | none => s
    | some tag => { s with wz := { s.wz.takeTag tag with early := s.wz.early ++ [s.wzRequest q tag true pc] } }

/-- A speculative request is that of the instruction given: same place, word, operands, privilege and level. -/
def WzReq.isFor (r : WzReq) (s : State) (q : WzAsk) : Bool :=
  r == { s.wzRequest q r.tag true s.bank.pc with transferred := r.transferred, answer := r.answer }

/-- What the outcome of a request does at its instruction (Table 2.12). -/
def State.wzOutcome (s : State) (r : WzReq) : WzAnswer → IRes
  | .ok data => .done (s.writeG r.rd data)
  | .undefined => .exc s { cause := 1, eaddr := r.word, einfo := 1 }
  | .error eaddr info => .exc s { cause := 20, eaddr := eaddr, einfo := wd info }

/-- The oldest instruction's request: the speculative one made for it, whose outcome may be there already, or a new one. Speculative
requests that come before it in program order, or all where none is its own, belong to discarded instructions and are cancelled (R59). -/
def State.askWinze (s : State) (q : WzAsk) (parityError : Bool) : IRes :=
  match s.wz.early.findIdx? (fun r => r.isFor s q) with
  | none => s.cancelEarly.offerWinze q parityError
  | some i =>
    let w := ({ s.wz with early := s.wz.early.take i } : Winze).cancelEarly
    let s' : State := { s with wz := { w with early := s.wz.early.drop (i + 1) } }
    match s.wz.early[i]? with
    | none => .wait s'
    | some r => match r.answer with
      | some x => s'.wzOutcome r x
      | none => .wait { s' with wz := { s'.wz with req := some { r with spec := false } } }

/-- WINZE_REQUEST: opcodes 0x38 to 0x3B (R56); cause 1 where the port is absent, and for 0x3C to 0x3F in every build (00 R5). With `early` given, the request is a
speculative one of the instruction at that address, which has not become the oldest (R59). -/
def execWinzeRequest (rd ra rb : RegIx) (op : BitVec 3) (func : BitVec 11) (parityError : Bool) (s : State)
    (early : Option (BitVec 64) := none) : Host.Outcome State Fault Refusal :=
  let w := encR (0x38 + op.toNat) rd ra rb func.toNat
  let ask (s : State) : WzAsk := { op := op.setWidth 2, func := func, a := s.readG ra, b := s.readG rb, csr := false, rd := rd, word := w }
  match early with
  | some pc => answer s (if 4 ≤ op.toNat then s else s.speculate (ask s) pc parityError)
  | none => s.issue fun s => if !s.build.winze || decide (4 ≤ op.toNat) then .exc s (undefinedWord w) else s.askWinze (ask s) parityError

/-- The first request in a list that has not transferred transfers. -/
def transferFirst : List WzReq → List WzReq
  | [] => []
  | r :: t => if r.transferred then r :: transferFirst t else { r with transferred := true } :: t

/-- WZ_REQ_TRANSFER: the offered request transfers, the oldest instruction's before the speculative ones (R59). -/
def execWzReqTransfer (s : State) : Host.Outcome State Fault Refusal :=
  answer s (match s.wz.req with
    | some r =>
      if r.transferred then { s with wz := { s.wz with early := transferFirst s.wz.early } }
      else { s with wz := { s.wz with req := some { r with transferred := true } } }
    | none => { s with wz := { s.wz with early := transferFirst s.wz.early } })

/-- The instruction of a request fails (R60): the exception at once, or, where an event entry waited for it, deferred to
the level, the instruction completing with rd unchanged (R62). -/
def State.failWinze (s : State) (undef : Bool) (eaddr : Word) (info : Nat) : State :=
  if s.core.entryWaits then
    let s := { s with core := { s.core with entryWaits := false } }
    let s := (IRes.done s).finish
    let l := s.lvl
    let d := { s.core.deferred[l] with wzPend := true, wzKind := undef, wzEaddr := eaddr,
                                       wzEinfo := wd (if undef then 3 else info + 1) }
    { s with core := { s.core with deferred := s.core.deferred.set l d } }
  else s.takeException { cause := if undef then 1 else 20, eaddr := eaddr, einfo := wd (if undef then 1 else info) }

/-- The outcome of the oldest instruction's request (Table 2.12). -/
def State.endWinze (s : State) (r : WzReq) : WzAnswer → State
  | .ok data =>
    let s : State := { s with core := { s.core with entryWaits := false } }
    (s.wzOutcome r (.ok data)).finish
  | .undefined => s.failWinze true r.word 0
  | .error eaddr info => s.failWinze false eaddr info

/-- The request with a tag that has transferred and awaits its response has this outcome: the oldest instruction's decides it, a
speculative one's is kept (R59, R60). None where there is no such request. -/
def State.answerWinze (s : State) (tag : BitVec 4) (x : WzAnswer) : Option State :=
  let oldest := match s.wz.req with
    | some r => if r.tag = tag ∧ r.transferred then some r else none
    | none => none
  match oldest with
  | some r => some ({ s with wz := { s.wz with req := none } }.endWinze r x)
  | none =>
    if s.wz.early.any (fun r => r.tag == tag && r.transferred && r.answer.isNone) then
      some { s with wz := { s.wz with early := s.wz.early.map (fun r => if r.tag = tag then { r with answer := some x } else r) } }
    else none

/-- A request awaits a response with this tag. -/
def Winze.awaits (w : Winze) (tag : BitVec 4) : Bool :=
  w.outstanding.any (fun r => r.tag == tag && r.transferred && r.answer.isNone)

/-- What a response says (Table 2.12). -/
def wzAnswerOf (data : Word) (dpar : BitVec 8) (status : BitVec 2) : WzAnswer :=
  if dpar ≠ byteParity data then .error data 4
  else if status = 0 then .ok data
  else if status = 1 then .undefined
  else .error data 0

/-- WZ_RSP: the response of the request with this tag decides its outcome; any other is ignored (R59, R60, Table 2.12). -/
def execWzRsp (tag : BitVec 4) (data : BitVec 64) (dpar : BitVec 8) (status : BitVec 2) (s : State) :
    Host.Outcome State Fault Refusal :=
  answer s
    (let bad := s.wz.awaits tag && dpar != byteParity data
     let t := if bad then ({ s with wz := { s.wz with parerrs := satInc s.wz.parerrs } }).tallyInc 0x48 else s
     (t.answerWinze tag (wzAnswerOf data dpar status)).getD { s with wz := { s.wz with ignored := s.wz.ignored.erase tag } })

/-- WZ_TIMEOUT: no response within WZ_MAXLAT cycles of the transfer of the request with this tag (R60). -/
def execWzTimeout (s : State) (tag : BitVec 4 := 0) : Host.Outcome State Fault Refusal :=
  answer s
    (let t := ({ s with wz := { s.wz with ignored := tag :: s.wz.ignored, timeouts := satInc s.wz.timeouts } }).tallyInc 0x49
     (t.answerWinze tag (.error 0 2)).getD s)

end Sys2Proof.Machine
end

