-- ==== Sys2Proof/Machine/Csr.lean ====
section
/-! DEFINITION. Writes of the CSRs (00 Table 0.6, R11 to R13) and the CSR access instructions (02 R55). In every write `v` is
the value written and `one` holds the 1 bits that the write carries for W1C fields. -/

namespace Sys2Proof.Machine

/-- A field of a value. -/
abbrev vField (v : Word) (lo w : Nat) : BitVec w := v.extractLsb' lo w

/-- Writes of the core CSRs (02 R63). FLAGS is the FL of the current level, which R23 puts in each level's bank, though R63 names only LC,
LB and LE so (log 185). -/
def State.putCore (s : State) (n : Nat) (v one : Word) : State :=
  let b := s.bank
  match n with
  | 0x008 => s.setFl (Flags.ofBits (vField v 0 4))
  | 0x010 => s.setBank { b with lc := v }
  | 0x011 => s.setBank { b with lb := v }
  | 0x012 => s.setBank { b with le := v }
  | 0x020 => { s with core := { s.core with fprm := vField v 0 2 } }
  | 0x021 => { s with core := { s.core with fpstat := s.core.fpstat &&& ~~~(vField one 0 5) } }
  | _ => s

/-- A route is read-only: EV32 and EV56 to EV63 (05 R120, Table 5.15). -/
def fixedRoute (n : Nat) : Bool := n == 32 || decide (56 ≤ n)

/-- A write of EVRTk. -/
def State.writeEvrt (s : State) (k : Nat) (v : Word) : State :=
  let r : Vector (BitVec 3) 64 := Vector.ofFn (fun i =>
    if i.val / 16 = k ∧ !fixedRoute i.val then vField v (4 * (i.val % 16)) 3 else s.bm.evrt[i])
  { s with bm := { s.bm with evrt := r } }

/-- The bits of EVPEND that a write of 1 clears: all but EV0 to EV31 and EV63 (05 R121). -/
def evpendW1c : Word := 0x7FFFFFFF00000000

/-- A write of MASK (05 Table 5.12): EXCM is not written at level 7. -/
def State.writeMask (s : State) (v : Word) : State :=
  let b := s.bank
  s.setBank { b with
    ppriv := v.getLsbD 7, vswe := v.getLsbD 5, excm := if s.lvl = 7 then b.excm else v.getLsbD 4, ml := vField v 0 3 }

/-- Writes of the level and banksman CSRs (05 R140) but TSBPn. -/
def State.putLevel (s : State) (n : Nat) (v one : Word) : State :=
  let b := s.bank
  if 0x120 ≤ n ∧ n ≤ 0x123 then s.writeEvrt (n - 0x120) v
  else
    match n with
    | 0x101 => s.writeMask v
    | 0x102 => s.setBank { b with epc := v }
    | 0x103 => s.setBank { b with ecause := vField v 0 6 }
    | 0x104 => s.setBank { b with eaddr := v }
    | 0x105 => s.setBank { b with einfo := v }
    | 0x106 => s.setBank { b with esave := v }
    | 0x108 => s.writeBankpol v
    | 0x119 => { s with bm := { s.bm with quant := vField v 0 32 } }
    | 0x11A => s.addReady (readyOf v)
    | 0x11B => { s with bm := { s.bm with rlOvf := s.bm.rlOvf && !one.getLsbD 8 } }
    | 0x124 => { s with bm := { s.bm with evpend := s.bm.evpend &&& ~~~(one &&& evpendW1c) } }
    | _ => s

/-- Writes of the translation CSRs: S2CFG and the physical map take effect from a secure requester only (04 R108). -/
def State.putXlat (s : State) (n : Nat) (v : Word) (secure : Bool) : State :=
  let x := s.xl
  if 0x240 ≤ n ∧ n ≤ 0x27F then
    if !secure then s
    else
      let i := Fin.ofNat 32 ((n - 0x240) / 2)
      s.setPmat (x.pmat.set i (x.pmat[i].write (n % 2 == 1) v))
  else
    match n with
    | 0x200 =>
      { s with xl := { x with
          s1en := v.getLsbD 0, levels := if vField v 2 2 = 3 then x.levels else vField v 2 2, s1root := vField v 14 33,
          asid := vField v 48 16 } }
    | 0x201 =>
      if secure then { s with xl := { x with s2en := v.getLsbD 0, holdlim := vField v 2 11, s2root := vField v 14 33 } } else s
    | _ => s

/-- Writes of the memory-system CSRs (03 R85) but TSCFG. -/
def State.putMemory (s : State) (n : Nat) (v one : Word) : State :=
  match n with
  | 0x282 => { s with ts := { s.ts with unb := s.ts.unb && !one.getLsbD 1 } }
  | 0x283 => { s with ts := { s.ts with unValid := s.ts.unValid && !one.getLsbD 63 } }
  | 0x288 =>
    { s with pf := { s.pf with
        l1 := v.getLsbD 11, trackers := if 32 < (vField v 5 6).toNat then s.pf.trackers else vField v 5 6,
        dist := if vField v 1 4 = 0 then s.pf.dist else vField v 1 4, en := v.getLsbD 0 } }
  | _ => s

/-- Writes of the tile CSRs (06 R171), and of STFILLRES (07 R196). -/
def State.putTile (s : State) (n : Nat) (v one : Word) : State :=
  match n with
  | 0x300 => s.clearTflags one
  | 0x302 => { s with tile := { s.tile with en := v.getLsbD 0, uen := v.getLsbD 1 } }
  | 0x32A => { s with tile := { s.tile with evtValid := s.tile.evtValid && !one.getLsbD 63 } }
  | 0x382 =>
    let m := s.res.fills[0]
    s.setFill 0 { m with res := { m.res with valid := m.res.valid && !one.getLsbD 63 } }
  | _ => s

/-- Writes of the stream and journal CSRs (10 R245). -/
def State.putJournal (s : State) (n : Nat) (v one : Word) : State :=
  let j := s.jnl
  let set (j : Journal) : State := { s with jnl := j }
  match n with
  | 0x440 => set { j with stepcnt := v }
  | 0x441 => set { j with mbatch := vField v 0 20 }
  | 0x442 => set { j with dcur := v }
  | 0x448 => set { j with qstream := vField v 0 4, qword := vField v 4 2 }
  | 0x449 => s.qdataPut v
  | 0x450 => s.writeJnlcfg v
  | 0x451 => set { j with base := vField v 12 35 }
  | 0x452 => set { j with seq := v }
  | 0x453 => set { j with head := vField v 0 26 }
  | 0x454 => set { j with obj := vField v 0 13, objEn := v.getLsbD 63 }
  | 0x455 => set { j with err := j.err && !one.getLsbD 0 }
  | 0x456 => set { j with errValid := j.errValid && !one.getLsbD 63 }
  | _ => s

/-- Writes of the assay CSRs (11 R259). -/
def State.putAssay (s : State) (n : Nat) (v one : Word) : State :=
  let a := s.assay
  let set (a : Assay) : State := { s with assay := a }
  match n with
  | 0x480 =>
    set { a with
      en := v.getLsbD 0, wide := v.getLsbD 1, rate := if 20 < (vField v 8 5).toNat then a.rate else vField v 8 5,
      albkt := vField v 16 5, qs := vField v 24 4 }
  | 0x484 => set { a with misValid := a.misValid && !one.getLsbD 63 }
  | 0x485 => set { a with alValid := a.alValid && !one.getLsbD 63 }
  | 0x488 =>
    let t := set { a with selBucket := vField v 0 5, selTag := vField v 5 8 }
    if v.getLsbD 63 then t.clearTag else t
  | _ => s

/-- Writes of the haulage CSRs (12 R276). -/
def State.putHaulage (s : State) (n : Nat) (v one : Word) : State :=
  let h := s.hl
  let set (h : Haulage) : State := { s with hl := h }
  match n with
  | 0x4C2 => set { h with htsel := vField v 0 14 }
  | 0x4C8 => s.hlRequest (vField v 60 4).toNat (vField v 52 8).toNat (vField v 14 33)
  | 0x4C9 => set { h with resValid := h.resValid && !one.getLsbD 63 }
  | 0x4CA => set { h with noteValid := h.noteValid && !one.getLsbD 63 }
  | 0x4D0 =>
    set { h with thr := vField v 0 8, reflim := if vField v 8 8 = 0 then h.reflim else vField v 8 8, lstack := vField v 16 5 }
  | _ => s

/-- A write of MBCTL: SEND and RELEASE of the selected channel (13 R291). -/
def State.writeMbctl (s : State) (c : Fin 16) (v : Word) : State :=
  let s := if v.getLsbD 0 then s.mailSend c else s
  if v.getLsbD 1 then s.mailRelease c else s

/-- Writes of the sync and mailbox CSRs (13 R300). -/
def State.putSync (s : State) (n : Nat) (v one : Word) : State :=
  let y := s.sy
  let set (y : Sync) : State := { s with sy := y }
  match n with
  | 0x500 => set { y with selObj := vField v 0 13, selWord := vField v 13 2, selPk := v.getLsbD 15 }
  | 0x501 => s.writeSodata v
  | 0x502 => set { y with wqovf := y.wqovf && !one.getLsbD 0 }
  | 0x503 => set { y with errValid := y.errValid && !one.getLsbD 63 }
  | 0x504 => if one.getLsbD 63 then s.popWake else s
  | 0x505 => set { y with takeObj := vField v 0 37, takeEn := v.getLsbD 63 }
  | 0x510 => { s with mb := { s.mb with selChan := vField v 0 3, selWord := vField v 3 3 } }
  | 0x512 => s.mailWrite s.mailSel s.mb.selWord.toNat v
  | 0x513 => s.writeMbctl s.mailSel v
  | 0x515 => s.mailConfig s.mailSel (v.getLsbD 63) (vField v 24 4) (vField v 0 24)
  | _ => s

/-- TRROOT as written: the reserved bits read zero, a reserved LEVELS leaves the field (13 Table 13.11, 04 Table 4.10). -/
def rootWord (old v : Word) : Word :=
  let m : Word := if vField v 2 2 = 3 then 0xFFFF7FFFFFFFC001 else 0xFFFF7FFFFFFFC00D
  (v &&& m) ||| (old &&& (0xC &&& ~~~m))

/-- Writes of the tram CSRs (13 R300). -/
def State.putTram (s : State) (n : Nat) (v one : Word) : State :=
  let c := tramOf s.tr.sel
  let x := s.tr.ch[c]
  if 0x5C0 ≤ n ∧ n ≤ 0x5DF then s.writeTrhead (Fin.ofNat 32 (n - 0x5C0)) (vField v 0 12)
  else
    match n with
    | 0x580 => { s with tr := { s.tr with sel := vField v 0 5 } }
    | 0x581 => s.writeTrcfg v
    | 0x582 =>
      let l := vField v 0 5
      s.setChannel c { x with ring := vField v 12 35, log2len := if 3 ≤ l.toNat ∧ l.toNat ≤ 12 then l else x.log2len }
    | 0x583 => s.setChannel c { x with root := rootWord x.root v }
    | 0x585 => s.writeTrstat one
    | 0x5E0 =>
      let l := vField v 0 6
      { s with tr := { s.tr with
          winEn := v.getLsbD 63, winBase := vField v 14 33, winLog := if 14 ≤ l.toNat ∧ l.toNat ≤ 47 then l else s.tr.winLog } }
    | _ => s

/-- DICT_IDX as written: LEN 9 to 15 leaves the field (15 Table 15.19). -/
def idxWord (old v : Word) : Word :=
  if 8 < (vField v 52 4).toNat then (v &&& 0x010FFFFFFFFFFFFF) ||| (old &&& 0x00F0000000000000) else v &&& 0x01FFFFFFFFFFFFFF

/-- Writes of the dictionary and capability CSRs (15 R348). -/
def State.putDict (s : State) (n : Nat) (v one : Word) : State :=
  let d := s.dict
  let set (d : Dict) : State := { s with dict := d }
  match n with
  | 0x601 => set { d with capaddr := vField v 3 9 }
  | 0x610 => set { d with idx := idxWord d.idx v }
  | 0x611 => set { d with wdata := v }
  | 0x612 => s.dictCmd (vField v 0 2).toNat
  | 0x613 => set { d with resValid := d.resValid && !one.getLsbD 63 }
  | _ => s

/-- Writes of the resilience CSRs (16 R371). -/
def State.putResil (s : State) (n : Nat) (v one : Word) : State :=
  let r := s.res
  let set (r : Resil) : State := { s with res := r }
  if h : 0x660 ≤ n ∧ n ≤ 0x66D then
    let c : Fin 14 := ⟨n - 0x660, by omega⟩
    if c = 8 then s else set { r with thr := r.thr.set c (vField v 0 16) }
  else
    match n with
    | 0x640 => set { r with capValid := r.capValid && !one.getLsbD 63 }
    | 0x642 => set { r with talstat := r.talstat &&& ~~~(vField one 0 14), latdev := r.latdev && !one.getLsbD 15 }
    | 0x645 => if 1 ≤ (vField v 0 3).toNat ∧ (vField v 0 3).toNat ≤ 4 then set { r with fillsel := vField v 0 3 } else s
    | 0x646 =>
      if r.fillsel = 0 then s
      else
        let c := Fin.ofNat 5 r.fillsel.toNat
        let m := r.fills[c]
        s.setFill c { m with res := { m.res with valid := m.res.valid && !one.getLsbD 63 } }
    | 0x648 => set { r with dumpValid := r.dumpValid && !one.getLsbD 63 }
    | 0x650 => set { r with talsel := vField v 0 13 }
    | _ => s

/-- Writes of the debug CSRs (17 R398). -/
def State.putDebug (s : State) (n : Nat) (v : Word) : State :=
  if 0xF08 ≤ n ∧ n ≤ 0xF0B then
    { s with core := { s.core with dbgBp := s.core.dbgBp.set (Fin.ofNat 4 (n - 0xF08)) (v &&& 0xFFFFFFFFFFFFFFFD) } }
  else if n = 0xF00 then { s with core := { s.core with dbgStep := vField v 0 8 } }
  else s

/-- What a write of a CSR does. -/
inductive CsrPut where
  | ok (s : State)
  /-- TSCFG while a reassignment runs: the write waits (03 R82). -/
  | wait
  /-- TSBPn whose image load faults (05 R118). -/
  | fault (e : Exc)
  /-- TSBPn whose spill of another level faults, which escalates (05 R115). -/
  | escalate (f : BitVec 37 × Word)

/-- A write of a CSR: numbers without a Write column ignore it (02 R63). -/
def State.csrPut (s : State) (n : Nat) (v one : Word) (secure : Bool) : CsrPut :=
  if n < 0x100 then .ok (s.putCore n v one)
  else if 0x110 ≤ n ∧ n ≤ 0x117 then
    match s.writeTsbp (Fin.ofNat 8 (n - 0x110)) v with
    | .ok t => .ok t
    | .fault t k => .fault (tsbpExc t k)
    | .escalate f => .escalate f
  else if n < 0x200 then .ok (s.putLevel n v one)
  else if n < 0x280 then .ok (s.putXlat n v secure)
  else if n = 0x280 then
    match s.writeTscfg (vField v 0 4) with
    | some t => .ok t
    | none => .wait
  else if n < 0x300 then .ok (s.putMemory n v one)
  else if n < 0x440 then .ok (s.putTile n v one)
  else if n < 0x480 then .ok (s.putJournal n v one)
  else if n < 0x4C0 then .ok (s.putAssay n v one)
  else if n < 0x500 then .ok (s.putHaulage n v one)
  else if n < 0x580 then .ok (s.putSync n v one)
  else if n < 0x600 then .ok (s.putTram n v one)
  else if n < 0x640 then .ok (s.putDict n v one)
  else if n < 0x680 then .ok (s.putResil n v one)
  else if n < 0xF00 then .ok s
  else .ok (s.putDebug n v)

/-! ### The instructions (02 R55) -/

/-- The write forms. -/
inductive CsrForm where
  | write
  | set
  | clear
  deriving DecidableEq, Repr

/-- The value that a form writes. -/
def CsrForm.value (f : CsrForm) (old x : Word) : Word :=
  match f with
  | .write => x
  | .set => old ||| x
  | .clear => old &&& ~~~x

/-- A column's right at a privilege. -/
def CsrRight.allows (r : CsrRight) (super : Bool) : Bool :=
  match r with
  | .absent | .user => true
  | .super | .deputy => super

/-- The access of one instruction once it is permitted: the read, then the write of a write form; a poisoned inbound slot
raises cause 25 (16 Table 16.3). -/
def State.csrAccess (s : State) (row : CsrRow) (n : Nat) (rd : RegIx) (put : Option (CsrForm × Word)) : IRes :=
  let go (s : State) : IRes :=
    let got := s.csrGet n
    let old := got.2
    match put with
    | none => .done (got.1.writeG rd old)
    | some (f, x) =>
      if row.write = .absent then .done (got.1.writeG rd old)
      else
        match got.1.csrPut n (f.value old x) x false with
        | .ok t => if t.lvl = s.lvl then .done (t.writeG rd old) else .moved t
        | .wait => .wait got.1
        | .fault e => .exc got.1 e
        | .escalate f => .moved (got.1.escalateTsb f)
  if n = 0x511 ∧ s.mb.ch[s.mailSel].inPois then .exc s { cause := 25, eaddr := 0x511 }
  else if csrAfterTile n then s.afterTile go else go s

/-- Cause 1 for a CSR number that does not exist (00 R15). -/
def undefinedCsr (w : Word) : Exc := { cause := 1, eaddr := w, einfo := 4 }

/-- Cause 2 for an access that lacks a privilege (02 R55). -/
def privilegedCsr (w : Word) (n : Nat) : Exc := { cause := 2, eaddr := w, einfo := wd (n + 2 ^ 12) }

/-- A CSR instruction: the customer logic's numbers go to the winze port (02 R58), where the request's own parity check may fail (R60), reserved numbers raise cause 1 (00 R15),
a missing privilege cause 2. -/
def State.csrInstr (s : State) (cop : Nat) (rd ra : RegIx) (csr : BitVec 12) (parityError : Bool) (x : Word) (put : Option CsrForm) : IRes :=
  let w := encC rd ra csr cop
  let n := csr.toNat
  if csrOfWinze n && s.build.winze then
    s.offerWinze { op := 0, func := BitVec.ofNat 11 (cop * 2 ^ 8 + n % 2 ^ 8), a := x, b := 0, csr := true, rd := rd, word := w } parityError
  else
    match csrRights n with
    | none => .exc s (undefinedCsr w)
    | some row =>
      if row.read.allows s.super && (put.isNone || row.write.allows s.super) then
        let go (s : State) : IRes := s.csrAccess row n rd (put.map (fun f => (f, x)))
        if n = 0x449 then s.qdataGate w go else go s
      else .exc s (privilegedCsr w n)

/-- CSRR: ra is reserved. -/
def execCsrr (rd ra : RegIx) (csr : BitVec 12) (s : State) (parityError : Bool := false) : Host.Outcome State Fault Refusal :=
  s.issue fun s => guardRsv (ra == 0) (encC rd ra csr 0) s (s.csrInstr 0 rd ra csr parityError 0 none)

/-- CSRW. -/
def execCsrw (rd ra : RegIx) (csr : BitVec 12) (s : State) (parityError : Bool := false) : Host.Outcome State Fault Refusal :=
  s.issue fun s => s.csrInstr 1 rd ra csr parityError (s.readG ra) (some .write)

/-- CSRS. -/
def execCsrs (rd ra : RegIx) (csr : BitVec 12) (s : State) (parityError : Bool := false) : Host.Outcome State Fault Refusal :=
  s.issue fun s => s.csrInstr 2 rd ra csr parityError (s.readG ra) (some .set)

/-- CSRC. -/
def execCsrc (rd ra : RegIx) (csr : BitVec 12) (s : State) (parityError : Bool := false) : Host.Outcome State Fault Refusal :=
  s.issue fun s => s.csrInstr 3 rd ra csr parityError (s.readG ra) (some .clear)

/-- CSRWI: the operand is the ra field, zero-extended. -/
def execCsrwi (rd imm : RegIx) (csr : BitVec 12) (s : State) (parityError : Bool := false) : Host.Outcome State Fault Refusal :=
  s.issue fun s => s.csrInstr 5 rd imm csr parityError (imm.setWidth 64) (some .write)

/-- CSRSI. -/
def execCsrsi (rd imm : RegIx) (csr : BitVec 12) (s : State) (parityError : Bool := false) : Host.Outcome State Fault Refusal :=
  s.issue fun s => s.csrInstr 6 rd imm csr parityError (imm.setWidth 64) (some .set)

/-- CSRCI. -/
def execCsrci (rd imm : RegIx) (csr : BitVec 12) (s : State) (parityError : Bool := false) : Host.Outcome State Fault Refusal :=
  s.issue fun s => s.csrInstr 7 rd imm csr parityError (imm.setWidth 64) (some .clear)

end Sys2Proof.Machine
end

