-- ==== Sys2Proof/Machine/Persist.lean ====
section
/-! DEFINITION. What firmware persists: the dictionary store (15 R331), the tally image (16 R365, Table 16.10), how both are
loaded at boot, and the telemetry sample (17 R374). -/

namespace Sys2Proof.Machine

/-- CRC-64 of bytes (10 R243). -/
def crcList (l : List Byte) : Nat := l.foldl (fun c b => crcByte c b.toNat) 0

/-- `n` bytes of zero. -/
def zeros (n : Nat) : List Byte := List.replicate n 0

/-- Pieces of at most 64 bytes. The fuel bounds them. -/
def granulePieces : Nat → List Byte → List (List Byte)
  | 0, _ => []
  | n + 1, l => if l.length ≤ 64 then [l] else l.take 64 :: granulePieces n (l.drop 64)

/-- A secure region holds all of a range of whole granules. -/
def State.ceReaches (s : State) (pa n : Nat) : Bool := (List.range ((n + 63) / 64)).all (fun i => s.ceRegion (pa + 64 * i) true)

/-- Firmware writes bytes from an address of whole granules through the copy engine; nothing where the engine refuses a part. -/
def State.ceStore (s : State) (pa : Nat) (l : List Byte) : State :=
  if s.ceReaches pa l.length then
    ((granulePieces (l.length / 64 + 1) l).foldl
      (fun (x : State × Nat) p => (x.1.ceWrite true x.2 p.length (natOf p) false, x.2 + 64)) (s, pa)).1
  else s

/-- A field of bytes. -/
def byteField (l : List Byte) (off n : Nat) : Nat := natOf ((l.drop off).take n)

/-! ### The dictionary store (15 R331) -/

/-- A record: index, subindex, type, value. -/
structure StoreRec where
  /-- INDEX. -/
  idx : Nat
  /-- SUBINDEX. -/
  sub : Nat
  /-- TYPE. -/
  type : Nat
  /-- The value. -/
  value : List Byte
  deriving DecidableEq, Repr

/-- A record's bytes, its value padded with zeros to a multiple of 8. -/
def StoreRec.bytes (r : StoreRec) : List Byte :=
  bytesOf 2 r.idx ++ bytesOf 1 r.sub ++ bytesOf 1 r.type ++ bytesOf 4 r.value.length ++ r.value ++ zeros ((8 - r.value.length % 8) % 8)

/-- The records of a copy. The fuel bounds them. -/
def storeRecs : Nat → List Byte → List StoreRec
  | 0, _ => []
  | n + 1, l =>
    if l.length < 8 then []
    else
      let len := byteField l 4 4
      { idx := byteField l 0 2, sub := byteField l 2 1, type := byteField l 3 1, value := (l.drop 8).take len }
        :: storeRecs n (l.drop (8 + (len + 7) / 8 * 8))

/-- Where a copy lies: 256 KB at BOOT_BASE + 0x4_0000, two copies of 128 KB. -/
def State.storeBase (s : State) (copy : Nat) : Nat := s.straps.bootBase.toNat * 2 ^ 14 + 0x40000 + 0x20000 * copy

/-- A copy whose MAGIC, LAYOUT and CRC hold: its GEN and its records. -/
def State.storeCopy (s : State) (copy : Nat) : Option (Nat × List StoreRec) :=
  let base := s.storeBase copy
  match s.ceBytes base 32 with
  | none => none
  | some h =>
    let len := byteField h 16 4
    if byteField h 0 4 = 0x4F494344 ∧ byteField h 4 2 = 1 ∧ len ≤ 0x20000 - 32 then
      match s.ceBytes (base + 32) len with
      | some body => if crcList body = byteField h 24 8 then some (byteField h 8 8, storeRecs (len / 8 + 1) body) else none
      | none => none
    else none

/-- The GEN of a copy; an invalid one counts as 0. -/
def genOf {α : Type} (c : Option (Nat × α)) : Nat :=
  match c with
  | some x => x.1
  | none => 0

/-- Of two copies, the one with the higher GEN that is valid. -/
def newest {α : Type} (a b : Option (Nat × α)) : Option α :=
  match a, b with
  | some x, some y => some (if x.1 < y.1 then y.2 else x.2)
  | some x, none => some x.2
  | none, some y => some y.2
  | none, none => none

/-- The copy to overwrite: an invalid one, else the one with the lower GEN. -/
def victimCopy {α : Type} (a b : Option (Nat × α)) : Nat :=
  match a, b with
  | none, _ => 0
  | _, none => 1
  | some x, some y => if y.1 < x.1 then 1 else 0

/-- The records of the tally: 0x4000 and 0x4001 (16 R365). -/
def State.tallyRecs (s : State) : List StoreRec :=
  (List.range 0x7F).map (fun i => { idx := 0x4000, sub := i + 1, type := 4, value := s.entryBytes 0x4000 (i + 1) 4 })
    ++ (List.range 0x3F).map (fun i => { idx := 0x4001, sub := i + 1, type := 0xB, value := s.entryBytes 0x4001 (i + 1) 0xB })

/-- An entry of the tally. -/
def StoreRec.isTally (r : StoreRec) : Bool := r.idx == 0x4000 || r.idx == 0x4001

/-- The records that firmware keeps: the RW and RWS entries that were written, the operating point and delay codes, the fatal
records; the tally's records are the ones given. -/
def State.keptRecs (s : State) (tally : List StoreRec) : List StoreRec :=
  let rw := s.dict.vals.filterMap (fun x =>
    match s.lookEntry (x.1 / 256) (x.1 % 256) with
    | .entry t r =>
      if persistedRw (x.1 / 256) (x.1 % 256) r then some { idx := x.1 / 256, sub := x.1 % 256, type := t, value := x.2 } else none
    | _ => none)
  let low := rw.filter (fun r => decide (r.idx < 0x4000))
  let high := rw.filter (fun r => decide (0x4000 ≤ r.idx))
  low ++ tally ++ high
    ++ [{ idx := 0x5001, sub := 1, type := 3, value := s.entryBytes 0x5001 1 3 },
        { idx := 0x5001, sub := 2, type := 0xA, value := s.entryBytes 0x5001 2 0xA }]
    ++ (List.range s.dict.fatals.length).map (fun i =>
        { idx := 0x7001, sub := i + 1, type := 0xA, value := s.entryBytes 0x7001 (i + 1) 0xA })

/-- Firmware writes the store: the copy with the lower GEN takes the records, GEN one above the other copy's. Outside the tally's
own schedule the tally's records are those of the newer copy. -/
def State.writeStore (s : State) (tally : Option (List StoreRec)) : State :=
  let a := s.storeCopy 0
  let b := s.storeCopy 1
  let old := ((newest a b).getD []).filter (·.isTally)
  let body := (s.keptRecs (tally.getD old)).flatMap (·.bytes)
  let v := victimCopy a b
  let gen := genOf (if v = 0 then b else a) + 1
  let head := bytesOf 4 0x4F494344 ++ bytesOf 2 1 ++ zeros 2 ++ bytesOf 8 gen ++ bytesOf 4 body.length ++ zeros 4
    ++ bytesOf 8 (crcList body)
  s.ceStore (s.storeBase v) (head ++ body)

/-- DICTIONARY_STORE_WRITE (15 R331): firmware's own action. -/
def execDictionaryStoreWrite (s : State) : Host.Outcome State Fault Refusal :=
  answer s (if s.firmware then s.writeStore none else s)

/-- A record enters its entry, unless its type differs or the entry does not exist (15 R331). -/
def State.loadRec (s : State) (r : StoreRec) : State :=
  match s.lookEntry r.idx r.sub with
  | .entry t right =>
    let sized := match typeSize t with
      | some n => decide (r.value.length = n)
      | none => true
    if t ≠ r.type ∨ !sized then s
    else if persistedRw r.idx r.sub right then s.setEntry r.idx r.sub r.value
    else if r.idx = 0x5001 then
      let v := natOf r.value
      let a := s.assay
      if r.sub = 1 then
        { s with assay := { a with
            vid := BitVec.ofNat 16 v, goodVid := BitVec.ofNat 16 v, trim := BitVec.ofNat 8 (v / 2 ^ 16)
            goodTrim := BitVec.ofNat 8 (v / 2 ^ 16) } }
      else if r.sub = 2 ∧ r.value.length = 32 then
        { s with assay := { a with delay := Vector.ofFn (fun i => (r.value[i.val]?).getD 0) } }
      else s
    else if r.idx = 0x7001 ∧ r.value.length = 64 then
      { s with dict := { s.dict with fatals := (s.dict.fatals ++ [BitVec.ofNat 512 (natOf r.value)]).take 16 } }
    else s
  | _ => s

/-- Firmware loads the store's newer valid copy; every entry takes its default where neither copy is valid (15 R331). -/
def State.loadStore (s : State) : State :=
  let recs := (newest (s.storeCopy 0) (s.storeCopy 1)).getD []
  recs.foldl State.loadRec { s with dict := { s.dict with vals := [], fatals := [] } }

/-! ### The tally image (16 Table 16.10) -/

/-- DUMPLEN and DUMPBASE. -/
def State.dumpLen (s : State) : Nat := s.param 0x7000 3
def State.dumpBase (s : State) : Nat := s.param 0x7000 2

/-- There is a tally area (16 R366). -/
def State.hasTallyArea (s : State) : Bool := decide (0x10000 ≤ s.dumpLen)

/-- The image's bytes from 0x0040 on: counters and histograms. -/
def State.tallyBody (s : State) : List Byte :=
  zeros 192 ++ (List.range 0x7F).flatMap (fun i => s.entryBytes 0x4000 (i + 1) 4) ++ zeros 776
    ++ (List.range 0x3F).flatMap (fun i => s.entryBytes 0x4001 (i + 1) 0xB) ++ zeros 14592

/-- The 32 KB image. -/
def State.tallyImage (s : State) (gen : Nat) : List Byte :=
  let body := s.tallyBody
  bytesOf 4 0x594C4154 ++ bytesOf 2 1 ++ zeros 2 ++ bytesOf 8 gen ++ bytesOf 4 s.straps.nodeId.toNat ++ zeros 36
    ++ bytesOf 8 (crcList body) ++ body

/-- A copy of the image in the dump region whose MAGIC, LAYOUT and CRC hold: GEN and bytes. -/
def State.tallyCopy (s : State) (copy : Nat) : Option (Nat × List Byte) :=
  if !s.hasTallyArea then none
  else
    match s.ceBytes (s.dumpBase + 0x8000 * copy) 0x8000 with
    | some l =>
      if byteField l 0 4 = 0x594C4154 ∧ byteField l 4 2 = 1 ∧ crcList (l.drop 0x40) = byteField l 0x38 8 then some (byteField l 8 8, l)
      else none
    | none => none

/-- Firmware writes the tally image over the copy with the lower GEN (16 R365). -/
def State.writeTally (s : State) : State :=
  if !s.hasTallyArea then s
  else
    let a := s.tallyCopy 0
    let b := s.tallyCopy 1
    let v := victimCopy a b
    s.ceStore (s.dumpBase + 0x8000 * v) (s.tallyImage (genOf (if v = 0 then b else a) + 1))

/-- TALLY_PERSIST: a period of TPERSIST has ended; every 1,024th writes the dictionary store as well (16 R365). -/
def execTallyPersist (s : State) : Host.Outcome State Fault Refusal :=
  answer s
    (if !s.firmware then s
     else
       let s := s.passTime.writeTally
       let s := { s with res := { s.res with persists := s.res.persists + 1 } }
       if s.res.persists % 1024 = 0 then s.writeStore (some s.tallyRecs) else s)

/-- A source of persisted counts: counter and bucket by subindex, where the source holds a valid value. -/
structure TallySource where
  /-- Counter of a subindex. -/
  counter : Nat → Option Nat
  /-- Bucket of a histogram. -/
  bucket : Nat → Nat → Option Nat

/-- A tally image as a source: it holds every item. -/
def imageSource (l : List Byte) : TallySource :=
  { counter := fun n => some (byteField l (0x100 + 8 * (n - 1)) 8)
    bucket := fun n b => some (byteField l (0x800 + 256 * (n - 1) + 8 * b) 8) }

/-- The records of a store as a source; a record whose type is not its entry's holds no value (15 R331). -/
def recsSource (l : List StoreRec) : TallySource :=
  let get (idx sub type n : Nat) : Option (List Byte) :=
    (l.find? (fun r => r.idx == idx && r.sub == sub && r.type == type && r.value.length == n)).map (·.value)
  { counter := fun n => (get 0x4000 n 4 8).map natOf, bucket := fun n b => (get 0x4001 n 0xB 256).map (fun v => byteField v (8 * b) 8) }

/-- The larger of two values that may be missing. -/
def larger (a b : Option Nat) : Option Nat :=
  match a, b with
  | some x, some y => some (max x y)
  | some x, none => some x
  | none, y => y

/-- The sources present, whose larger values count (16 R365). -/
def largest (l : List TallySource) : TallySource :=
  { counter := fun n => l.foldl (fun a x => larger a (x.counter n)) none
    bucket := fun n b => l.foldl (fun a x => larger a (x.bucket n b)) none }

/-- The counters of 16 Table 16.8. -/
def tallyCounters : List Nat :=
  (List.range' 1 4) ++ (List.range' 0x10 14) ++ (List.range' 0x20 14) ++ [0x30, 0x31] ++ (List.range' 0x38 6) ++ (List.range' 0x40 3)
    ++ (List.range' 0x48 5) ++ (List.range' 0x50 3) ++ [0x58, 0x59]

/-- The histograms of 16 Table 16.9. -/
def tallyHists : List Nat := (List.range' 1 6) ++ (List.range' 0x10 14)

/-- The items, counters and buckets, for which no source holds a valid value. -/
def TallySource.missing (x : TallySource) : Nat :=
  (tallyCounters.filter (fun n => (x.counter n).isNone)).length
    + (tallyHists.map (fun n => ((List.range 32).filter (fun b => (x.bucket n b).isNone)).length)).foldl (· + ·) 0

/-- The source in the dictionary store. -/
def State.storeSource (s : State) : Option TallySource := (newest (s.storeCopy 0) (s.storeCopy 1)).map recsSource

/-- The source in the dump region. -/
def State.dumpSource (s : State) : Option TallySource := (newest (s.tallyCopy 0) (s.tallyCopy 1)).map imageSource

/-- The persisted tally is merged at boot: each counter and bucket is the larger persisted value with what has been counted since
the reset; TEMPMAX keeps the maximum; TALLYLOST advances by the items that no valid source holds (16 R365, log 184). -/
def State.mergeTally (s : State) (sources : List TallySource) : State :=
  let x := largest sources
  let r := s.res
  let old (n : Nat) : Nat := (x.counter n).getD 0
  let tally : Vector Word 96 := Vector.ofFn (fun i =>
    if i.val = 0 then 0
    else if i.val = 0x58 then wd (max r.tally[i].toNat (old i.val))
    else wd (min (2 ^ 64 - 1) (r.tally[i].toNat + old i.val)))
  let hist := (List.range 0x3F).foldl (fun h i =>
    (List.range 32).foldl (fun h b =>
      let k := 32 * (i + 1) + b
      smSet 0#64 k (wd (min (2 ^ 64 - 1) ((smGet 0#64 k h).toNat + (x.bucket (i + 1) b).getD 0))) h) h) r.hist
  ({ s with res := { r with tally := tally, hist := hist, cycBase := r.cycBase + wd (old 2) } } : State).tallyAdd 0x59 x.missing

/-- TELEMETRY_SAMPLE: the deputy samples TEMP and VMON: TEMPNOW, VMONNOW, the histogram and TEMPMAX (17 R374). -/
def execTelemetrySample (temp : BitVec 12) (vmon : BitVec 10) (s : State) : Host.Outcome State Fault Refusal :=
  answer s
    (let s := { s with pwr := { s.pwr with temp := temp, vmon := vmon } }
     let s := s.histAdd 3 temp.toNat
     { s with res := { s.res with tally := s.res.tally.set 0x58 (if s.res.tally[0x58].toNat < temp.toNat then wd temp.toNat else s.res.tally[0x58]) } })

end Sys2Proof.Machine
end

