-- ==== Sys2Proof/Machine/Dump.lean ====
section
/-! DEFINITION. The fatal dump's bytes: the fatal record, the sections, the image and the short dump (16 R366 to R370,
Tables 16.11 to 16.14). -/

namespace Sys2Proof.Machine

/-- A held-fault record as 16 bytes (04 Table 4.5). -/
def HeldRec.word (r : HeldRec) (slot : Nat) : Nat :=
  r.ia.toNat + bit r.write * 2 ^ 47 + bit r.fetch * 2 ^ 48 + bit r.s1walk * 2 ^ 49 + r.level.toNat * 2 ^ 50 + r.kind.toNat * 2 ^ 52
    + r.req.toNat * 2 ^ 56 + slot * 2 ^ 58 + bit r.valid * 2 ^ 63 + r.va.toNat * 2 ^ 64

/-- Words as bytes, 8 each. -/
def wordBytes (l : List Nat) : List Byte := l.flatMap (bytesOf 8)

/-- An event-log record (16 R369). -/
def EventRec.bytes (r : EventRec) : List Byte :=
  bytesOf 8 r.mgmtcyc.toNat ++ bytesOf 8 r.stepcnt.toNat ++ bytesOf 2 r.kind.toNat ++ bytesOf 1 r.cls.toNat ++ zeros 1
    ++ bytesOf 4 r.unit.toNat ++ bytesOf 8 r.addr.toNat ++ bytesOf 16 r.info.toNat ++ bytesOf 8 r.seq.toNat ++ zeros 8

/-- The fatal record (Table 16.12). -/
def State.fatalRecord (s : State) (d : DumpInfo) (status slot : Nat) : BitVec 512 :=
  let b := s.bankOf 7
  let l := bytesOf 8 d.seq ++ bytesOf 1 d.trigger ++ bytesOf 1 d.wdcause ++ bytesOf 1 status ++ zeros 1 ++ bytesOf 4 slot
    ++ wordBytes [d.mgmtcyc, d.epoch, d.stepcnt, b.einfo.toNat, b.epc.toNat]
  BitVec.ofNat 512 (natOf (l ++ bytesOf 8 (crcList l)))

/-! ### Sections (Table 16.13) -/

/-- A section: TYPE, FLAGS, body. -/
structure Section_ where
  /-- TYPE. -/
  type : Nat
  /-- FLAGS. -/
  flags : Nat
  /-- The body. -/
  body : List Byte

/-- Bytes whose layout the spec does not give (log 52). -/
def freeBytes (sec n : Nat) : List Byte := (List.range n).map (Config.dumpByte sec)

/-- TSB bytes 0x000 to 0x14F of a level and its MASK (05 Table 5.1). -/
def Bank.dumpBytes (b : Bank) (level : Fin 8) : List Byte :=
  let im := b.image level 0 false
  wordBytes ((List.range 42).map (fun i =>
    match im.find? (fun x => x.1 == 8 * i) with
    | some x => x.2.toNat
    | none => 0)) ++ bytesOf 8 b.maskWord.toNat

/-- BANKS: the physical banks, each serving a resident level in ascending order (log 51), a spare bank in use serving that of the bank it
replaces; a bank that serves no level has free contents (log 52). -/
def State.banksBody (s : State) : List Byte :=
  (List.range 9).flatMap (fun n =>
    match s.levelOfPhys n with
    | some l => bytesOf 8 (n + l.val * 2 ^ 8 + (1 + 2 * bit s.res.bankPoison[l]) * 2 ^ 16) ++ (s.bankOf l).dumpBytes l
    | none => bytesOf 8 (n + 0xFF * 2 ^ 8) ++ freeBytes 1 344)

/-- STOREBUF: 64 entries of PA, data, byte mask and flags; the widths of the last two, and what the flags hold, are not given (log 52). -/
def State.storeBody (s : State) : List Byte :=
  (List.range 64).flatMap (fun i => match s.mem.sb[i]? with
    | some e => wordBytes [e.pa, e.data.toNat] ++ bytesOf 4 (2 ^ e.size - 1) ++ (List.range 4).map (fun k => Config.dumpByte 5 (24 * i + k))
    | none => zeros 24)

/-- LEVELS. -/
def State.levelsBody (s : State) : List Byte :=
  wordBytes (((List.range 8).map (fun i => s.csrLevel (0x110 + i))) ++ [0x118, 0x124, 0x108, 0x109, 0x100].map s.csrLevel) ++ zeros 24

/-- The CSRs of a run of numbers, 8 bytes each, undefined ones and those of the customer logic as zero. -/
def State.csrBytes (s : State) (count : Nat) : List Byte :=
  wordBytes ((List.range count).map (fun n => if (csrRights n).isSome then (s.csrWord n).toNat else 0))

/-- TLBS: the number of bytes is given, the layout is not (log 52). -/
def State.tlbsBytes (s : State) : Nat := if s.build.flatTlb then 17408 else 102400

/-- The tile state in the layout of Table 6.10 with every section, and the 16 queue entries. -/
def State.tileBody (s : State) : List Byte :=
  let r := s.tile.regs
  bytesOf 0x1000 (areaHeader r s.tile.seam) ++ (areaSections r (BitVec.allOnes 22)).flatMap (fun p => bytesOf p.len p.data) ++ zeros 3584
    ++ freeBytes 6 256

/-- A record of a sync object (13 Table 13.1). -/
def SyncObj.bytes (o : SyncObj) : List Byte := wordBytes ((List.range 4).map (fun i => (o.word i).toNat))

/-- SYNC. -/
def State.syncBody (s : State) : List Byte :=
  (s.sy.objs.filter (fun x => decide (x.2.mode ≠ 0))).flatMap (fun x => bytesOf 8 x.1 ++ x.2.bytes)
    ++ (List.range 64).flatMap (fun i =>
        match s.sy.parked[i]? with
        | some p => bytesOf 8 (2 ^ 63 + tsbAddr p.tsb) ++ bytesOf 8 (p.obj.toNat + p.gen.toNat * 2 ^ 32)
        | none => zeros 16)
    ++ (List.range 64).flatMap (fun i => bytesOf 2 (((s.sy.wakeq[i]?).getD 0).toNat))

/-- TRAM: one channel. -/
def State.channelBytes (s : State) (c : Fin 32) : List Byte :=
  let t := { s with tr := { s.tr with sel := BitVec.ofNat 5 c.val } }
  wordBytes ([0x581, 0x582, 0x583, 0x584, 0x5C0 + c.val, 0x585].map t.csrTram) ++ zeros 16
    ++ (match s.tr.ch[c].opens with
        | o :: _ => bytesOf 64 o.desc.toNat
        | [] => zeros 64)

/-- EVLOG, the oldest record first; places not used yet are zero. -/
def State.logBytes (s : State) (count : Nat) : List Byte :=
  let l := ((s.res.eventLog.take count).reverse).flatMap (·.bytes)
  l ++ zeros (64 * count - l.length)

/-- Tile state holds poison marks. -/
def State.tilePoisoned (s : State) : Bool :=
  let r := s.tile.regs
  r.tpois.toList.any (· != 0) || r.kpois.toList.any (· != 0) || r.vpois != 0 || r.sspois != 0 || r.qpois != 0
    || s.tile.seam.toList.any (·.poison)

/-- The ten sections; none sets PARTIAL, reading being one step (log 142). -/
def State.dumpSections (s : State) : List Section_ :=
  let coreOff := decide (s.pwr.core ≠ .on)
  let tileOff := decide (s.pwr.tile ≠ .on)
  let sec (type : Nat) (off poison : Bool) (body : List Byte) : Section_ :=
    { type := type, flags := bit off + 2 * bit (poison && !off), body := if off then [] else body }
  [sec 1 coreOff (s.res.bankPoison.toList.any id) s.banksBody, sec 2 coreOff false s.levelsBody, sec 3 coreOff false (s.csrBytes 4096),
   sec 4 coreOff false (freeBytes 4 s.tlbsBytes), sec 5 coreOff (s.mem.sb.any (·.poison)) s.storeBody, sec 6 tileOff s.tilePoisoned s.tileBody,
   sec 7 false (s.sy.objs.any (fun x => x.2.pois)) s.syncBody, sec 8 false false ((List.finRange 32).flatMap s.channelBytes),
   sec 9 false false (s.tallyImage (genOf (if victimCopy (s.tallyCopy 0) (s.tallyCopy 1) = 0 then s.tallyCopy 1 else s.tallyCopy 0))),
   sec 10 false false (s.logBytes 256)]

/-- A section's header and body, up to the next boundary of 64 bytes. -/
def Section_.bytes (x : Section_) : List Byte :=
  let l := bytesOf 2 x.type ++ bytesOf 2 x.flags ++ zeros 4 ++ bytesOf 8 x.body.length ++ bytesOf 8 (crcList x.body) ++ zeros 8 ++ x.body
  l ++ zeros ((64 - l.length % 64) % 64)

/-- The directory's entries, the first section lying at the offset given. -/
def dumpDir : Nat → List Section_ → List Byte
  | _, [] => []
  | off, x :: t => bytesOf 8 x.type ++ bytesOf 8 off ++ dumpDir (off + x.bytes.length) t

/-- The header (Table 16.11). -/
def State.dumpHeader (s : State) (d : DumpInfo) (secs : List Section_) (len : Nat) : List Byte :=
  let l := bytesOf 4 0x50445847 ++ bytesOf 2 1 ++ bytesOf 2 secs.length ++ bytesOf 4 0x07020100 ++ bytesOf 4 s.straps.nodeId.toNat
    ++ bytesOf 8 d.seq ++ bytesOf 1 d.trigger ++ bytesOf 1 d.wdcause ++ zeros 2 ++ bytesOf 4 s.dep.fwver.toNat
    ++ wordBytes [d.mgmtcyc, d.epoch, d.stepcnt, len] ++ dumpDir 4096 secs
  let l := l ++ zeros (0xFF8 - l.length)
  l ++ bytesOf 8 (crcList l)

/-- The image. -/
def State.dumpImage (s : State) (d : DumpInfo) : List Byte :=
  let secs := s.dumpSections
  let body := secs.flatMap (·.bytes)
  s.dumpHeader d secs (4096 + body.length) ++ body

/-- The short dump (16 R370, Table 16.14), with the fatal record given. -/
def State.shortDump (s : State) (record : BitVec 512) : List Byte :=
  let l := recordBytes record ++ zeros 448 ++ s.banksBody ++ s.levelsBody
    ++ (List.finRange 4).flatMap (fun i => bytesOf 16 (s.xl.held[i].word i.val)) ++ s.csrBytes 512 ++ s.logBytes 128 ++ zeros 216
  l ++ bytesOf 8 (crcList l)

/-- The slots of the dump region (16 R366). -/
def State.dumpSlots (s : State) : Nat := (s.dumpLen - 0x10000) / 0x100000

/-- The newest fatal record is replaced. -/
def State.setRecord (s : State) (r : BitVec 512) : State := { s with dict := { s.dict with fatals := r :: s.dict.fatals.drop 1 } }

/-- The dump's outcome in DUMPSTAT and in the record (16 Table 16.18). -/
def State.dumpDone (s : State) (d : DumpInfo) (status : Nat) (slot : Option Nat) : State :=
  let s := s.setRecord (s.fatalRecord d status (slot.getD 0xFFFFFFFF))
  { s with res := { s.res with
      dumpValid := true, dumpSeq := BitVec.ofNat 16 d.seq, dumpStatus := BitVec.ofNat 3 status
      dumpSlot := BitVec.ofNat 12 (slot.getD 0xFFF) } }

/-- The short dump is made, kept in 0x7002.01 and streamed where SHORTEN asks for it. -/
def State.makeShort (s : State) (d : DumpInfo) : State :=
  let t : State := s.dumpDone d 1 none
  let r : BitVec 512 := (t.dict.fatals.head?).getD 0
  let u : State := { t with dict := { t.dict with short := t.shortDump r } }
  if u.param 0x7000 4 = 1 then (u.notifyAt 6 0x7002 1).tallyInc 0x51 else u

/-- An image goes to its slot, its header last. Where the copy engine reports an error, or does not complete the write within DETMO, the
slot keeps a part of the body and no new header, and the short dump is made (16 R367 steps 3 and 4, log 141). -/
def State.putImage (s : State) (d : DumpInfo) (slot pa : Nat) (l : List Byte) : State :=
  let s := s.drawn
  if !s.ceReaches pa l.length then s.makeShort d
  else if Config.dumpFails (s.free - 1) then
    ((s.drawn).ceStore (pa + 4096) ((l.drop 4096).take (64 * Config.freeCount s.free))).makeShort d
  else (s.ceStore pa l).dumpDone d 0 (some slot)

/-- Where a slot lies (16 R366). -/
def State.slotBase (s : State) (slot : Nat) : Nat := s.dumpBase + 0x10000 + 0x100000 * slot

/-- The image is made for a slot. -/
def State.makeImage (s : State) (d : DumpInfo) (slot : Nat) : State :=
  s.putImage d slot (s.slotBase slot) (s.dumpImage d)

/-- The image, or the short dump where there is no slot (16 R367 steps 3 and 4). -/
def State.dumpBody (s : State) (d : DumpInfo) : State :=
  let n := s.dumpSlots
  if n = 0 then s.makeShort d
  else if s.param 0x7000 1 = 1 then s.makeImage d (d.seq % n)
  else s.dumpDone d 2 none

/-- The trigger that the state now stands at. -/
def State.dumpInfo (s : State) (trigger : Nat) : DumpInfo :=
  { seq := s.res.tally[0x50].toNat, trigger := trigger, wdcause := if trigger = 2 then s.dep.recCause.toNat else 0
    mgmtcyc := s.res.tally[2].toNat, epoch := s.res.tally[3].toNat, stepcnt := s.jnl.stepcnt.toNat }

/-- The record of a trigger: into 0x7001, out as NOTIFY, the event log, the tally image (16 R367 step 2). -/
def State.recordTrigger (s : State) (d : DumpInfo) : State :=
  let t : State := { s with dict := { s.dict with fatals := (s.fatalRecord d 3 0xFFFFFFFF :: s.dict.fatals).take 16 } }
  ((t.notifyEntry 0x7001 1).logEvent 6 0 0 0 d.trigger).writeTally

/-- A fatal trigger after the freeze: DUMPS and the record; the dump is then in progress (16 R367 step 2). -/
def State.beginRecord (s : State) (trigger : Nat) : State :=
  let t : State := s.passTime.tallyInc 0x50
  let d : DumpInfo := t.dumpInfo trigger
  let u : State := t.recordTrigger d
  { u with res := { u.res with fatalDue := 0, dumping := some d } }

/-- The rest of the dump: with PD_CORE on the image or the short dump, else none (16 R367 steps 3 and 4, 17 Table 17.12). -/
def State.takeDump (s : State) (d : DumpInfo) : State := if s.pwr.core = .on then s.dumpBody d else s.dumpDone d 2 none

end Sys2Proof.Machine
end

