-- ==== Sys2Proof/Machine/Fatal.lean ====
section
/-! DEFINITION. Fatal triggers and the watchdog (16 R367, 14 R323, R324, 17 R393): the freeze, the dump, the restart of the core,
and what an empty queue lets the block do. -/

namespace Sys2Proof.Machine

/-- The core's clocks are frozen (14 R324, 16 R367, 17 R397), in CORE reset as well. -/
def State.freeze (s : State) : State :=
  if s.core.mode = .held then { s with core := { s.core with heldFrozen := true } }
  else { s with core := { s.core with mode := .frozen, stepGrant := false } }

/-- The core is stopped: CORESTAT.STOPPED (17 R397, 14 Table 14.9). -/
def State.stopped (s : State) : Bool := decide (s.core.mode = .halted) || decide (s.core.mode = .frozen) || s.core.heldFrozen

/-- Firmware restarts the core after a dump, unless it has been retired: CORE reset, the tail, the release (16 R367 step 5). -/
def State.restartCore (s : State) : State :=
  if s.pwr.coreRetired then s.assertCore else s.assertCore.beginTail.sequence.releaseTail

/-- A fatal dump begins (16 R367 steps 1 and 2): freeze, open fills abandoned, the record. A watchdog record is logged first. -/
def State.beginDump (s : State) (trigger : Nat) : State :=
  let s : State := s.freeze.abandonFills
  (if trigger = 2 then s.logEvent 7 0 0 0 s.dep.recCause.toNat else s).beginRecord trigger

/-- A fatal dump in progress is made, and the core restarted (16 R367 steps 3 to 5). A watchdog reset before this does not change what
dump it is: firmware, once it runs again, makes it from step 3. -/
def State.finishDump (s : State) (d : DumpInfo) : State :=
  let s : State := s.takeDump d
  ({ s with res := { s.res with dumping := none } } : State).restartCore

/-- A trigger: firmware begins the dump, at once where it runs; one that arrives while a dump is due or in progress is logged and counted
(16 R367). -/
def State.trigger (s : State) (t : Nat) : State :=
  if s.res.fatalDue ≠ 0 ∨ s.res.dumping.isSome then (s.tallyInc 0x50).logEvent 6 0 0 0 t
  else if s.firmware then s.beginDump t
  else { s with res := { s.res with fatalDue := BitVec.ofNat 2 t } }

/-- DUMP_REQ rises: CORESTAT.DUMPREQ and vector 13; no trigger while the core is stopped for another reason (16 R367). -/
def State.dumpRequest (s : State) : State :=
  let t : State := ({ s with dep := { s.dep with dumpreq := true } }).raiseVector 13
  if s.res.fatalDue = 0 ∧ s.res.dumping = none ∧ s.stopped = true then t else t.trigger 3

/-- WDREC takes a record where none is held (14 R324). -/
def Deputy.record (d : Deputy) (cause : Nat) (block : Option (BitVec 4)) : Deputy :=
  if d.recValid then d
  else { d with
    recValid := true, recSeq := d.recSeq + 1, recCause := BitVec.ofNat 4 cause, recPc := d.pc, recBlock := block.getD 0 }

/-- The watchdog record (14 R324): the core freezes, open fills are abandoned (16 Table 16.5), WDREC is captured, the deputy alone is
reset, an open dictionary request being answered UNAVAIL (15 R332); firmware then makes the dump. -/
def State.watchdog (s : State) (cause : Nat) (block : Option (BitVec 4)) : State :=
  let s : State := (s.freeze.abandonFills.tallyInc 0x52).closeRequest 7
  let s : State := { s with dep := s.dep.record cause block }
  (s.deputyReset block).trigger 2

/-- The watchdog's stages can end: it counts, and ROM, which kicks it throughout boot, has handed over (14 R322, R323, log 175). -/
def State.watchdogCounts (s : State) : Bool := s.dep.wdEn && decide (s.dep.bootStatus = 1)

/-- The second stage of the watchdog ends where it counts (14 R323). -/
def State.watchdogEnds (s : State) : State := if s.watchdogCounts && s.dep.wdSecond then s.watchdog 1 none else s

/-- The first stage ends: IPEND bit 4 (14 R323). -/
def State.watchdogFirst (s : State) : State :=
  if s.watchdogCounts && !s.dep.wdSecond then ({ s with dep := { s.dep with wdSecond := true } }).raiseVector 4 else s

/-- A write of WDKICK (14 R323). -/
def State.kick (s : State) (v : Nat) : State :=
  if v = 0x5A1E then { s with dep := { s.dep with wdSecond := false } } else s

/-- What the block does while no command waits: firmware goes on with a dump in progress, or begins one that is due; else the power
sequencer takes the steps that have become permitted (log 3). -/
def State.idle (s : State) : State :=
  if !s.firmware then s.sequence
  else match s.res.dumping with
    | some d => s.finishDump d
    | none => if s.res.fatalDue = 0 then s.sequence else s.beginDump s.res.fatalDue.toNat

/-- WATCHDOG_FIRST_STAGE. -/
def execWatchdogFirstStage (s : State) : Host.Outcome State Fault Refusal := answer s s.watchdogFirst

/-- WATCHDOG_RECORD. -/
def execWatchdogRecord (s : State) : Host.Outcome State Fault Refusal := answer s s.watchdogEnds

/-- WDKICK. -/
def execWdkick (value : BitVec 16) (s : State) : Host.Outcome State Fault Refusal := answer s (s.kick value.toNat)

/-- DUMP_REQ. -/
def execDumpReq (s : State) : Host.Outcome State Fault Refusal := answer s s.dumpRequest

end Sys2Proof.Machine
end

