-- ==== Sys2Proof/Machine/DebugRing.lean ====
section
/-! DEFINITION. Debug access (17 R394 to R397, Tables 17.15 and 17.16): the debug ring's segments, HALT, RESUME, STEP, FREEZE and
the test access port. -/

namespace Sys2Proof.Machine

/-! ### Register banks by their image (05 Table 5.1) -/

/-- A word of a level's bank, at an offset of the image below 0x150 or at MASK's. -/
def Bank.wordAt (b : Bank) (off : Nat) : Word :=
  if off < 0x150 ∨ off = 0x158 then
    match (b.image 0 0 false).find? (fun x => x.1 == off) with
    | some x => x.2
    | none => 0
  else 0

/-- Write a word of a level's bank. -/
def Bank.setWordAt (b : Bank) (off : Nat) (v : Word) : Bank :=
  if off % 8 ≠ 0 then b
  else if off < 0xF8 then { b with g := b.g.setIfInBounds (off / 8 + 1) v }
  else
    match off with
    | 0xF8 => { b with sp := v }
    | 0x100 => { b with fl := Flags.ofBits (v.setWidth 4) }
    | 0x108 => { b with pc := v }
    | 0x110 => { b with lc := v }
    | 0x118 => { b with lb := v }
    | 0x120 => { b with le := v }
    | 0x128 => { b with epc := v }
    | 0x130 => { b with ecause := v.setWidth 6 }
    | 0x138 => { b with eaddr := v }
    | 0x140 => { b with einfo := v }
    | 0x148 => { b with esave := v }
    | 0x158 =>
      { b with ppriv := v.getLsbD 7, priv := v.getLsbD 6, vswe := v.getLsbD 5, excm := v.getLsbD 4, ml := v.setWidth 3 }
    | _ => b

/-! ### Tile state by the area's layout (06 Table 6.10) -/

/-- Change the element at an index within a vector's bounds. -/
def vmod {α : Type} {n : Nat} (x : Vector α n) (i : Nat) (f : α → α) : Vector α n := if h : i < n then x.set i (f x[i]) else x

/-- Replace the 64 bits at word `i` of a wider value. -/
def putWord {w : Nat} (x : BitVec w) (i : Nat) (v : Word) : BitVec w :=
  (x &&& ~~~((0xFFFFFFFFFFFFFFFF#64).setWidth w <<< (64 * i))) ||| ((v.setWidth w) <<< (64 * i))

/-- Write a word of the header: the fields of Table 6.11. -/
def TileRegs.putHeader (r : TileRegs) (seam : Vector SeamSlot 4) (off : Nat) (v : Word) : TileRegs :=
  let h := (putWord (BitVec.ofNat 4096 (areaHeader r seam)) (off / 8) v).toNat
  { headerRegs h with t := r.t, k := r.k, v := r.v, ss := r.ss, q := r.q }

/-- Write a word of a register section. -/
def TileRegs.putSection (r : TileRegs) (off : Nat) (v : Word) : TileRegs :=
  if off < 0x21000 then
    let t := Fin.ofNat 8 ((off - 0x1000) / 0x4000)
    let i := (off - 0x1000) % 0x4000
    let x := r.t[t]
    { r with t := r.t.set t (vmod x (i / 128) (fun y => putWord y (i % 128 / 8) v)) }
  else if off < 0x61000 then
    let k := Fin.ofNat 4 ((off - 0x21000) / 0x10000)
    let i := (off - 0x21000) % 0x10000
    let x := r.k[k]
    { r with k := r.k.set k (vmod x (i / 512) (fun y => putWord y (i % 512 / 8) v)) }
  else if off < 0x62000 then { r with v := vmod r.v ((off - 0x61000) / 512) (fun y => putWord y (off % 512 / 8) v) }
  else if off < 0x63000 then { r with ss := vmod r.ss ((off - 0x62000) / 64) (fun y =>
    ssPut y (off % 64 / 8) (ssStored y (off % 64 / 8) v.toNat)) }
  else { r with q := vmod r.q ((off - 0x63000) / 32) (fun y => putWord y (off % 32 / 8) v) }

/-- Write a word of the tile registers as the area lays them out: the seam slots change by their own rules alone (09 R225, R230), and the
places of the queue's entries are not given (log 52). -/
def State.putTileWord (s : State) (off : Nat) (v : Word) : State :=
  let r := s.tile.regs
  let r := if off < 0x140 then r.putHeader s.tile.seam off v else if off < 0x1000 then r else if off < 0x63200 then r.putSection off v else r
  s.setRegs r

/-! ### The ring (R396, Table 17.15) -/

/-- A 64-bit word of bytes; none past their end. -/
def wordOfBytes (l : List Byte) (i : Nat) : Option Word :=
  if 8 * i < l.length then some (wd (natOf ((l.drop (8 * i)).take 8))) else none

/-- A word of a section whose layout is not given (log 52). -/
def freeWord (sec n i : Nat) : Option Word :=
  if 8 * i < n then some (wd (natOf ((List.range 8).map (fun k => Config.dumpByte sec (8 * i + k))))) else none

/-- A physical bank's word; a bank that serves no level, dead or spare, holds free bytes. -/
def State.bankWord (s : State) (i : Nat) : Option Word :=
  if 9 * 64 ≤ i then none
  else match s.levelOfPhys (i / 64) with
    | some l => some ((s.bankOf l).wordAt (8 * (i % 64)))
    | none => freeWord 1 (9 * 512) i

/-- FUSE_HASH, then the straps, whose places are not given (log 52). -/
def State.strapRing (s : State) (i : Nat) : Option Word :=
  if i < 6 then some (s.straps.fuseHash.extractLsb' (64 * i) 64) else freeWord 0xB 80 i

/-- The word at an index of a segment, as a read finds it; none where the segment has no such word. -/
def State.ringWord (s : State) (seg i : Nat) : Option Word :=
  match seg with
  | 1 => s.bankWord i
  | 2 => if i < 4096 then some (if (csrRights i).isSome then s.csrWord i else 0) else none
  | 3 => freeWord 4 s.tlbsBytes i
  | 4 => freeWord 5 1536 i
  | 5 => wordOfBytes s.tileBody i
  | 6 => wordOfBytes s.syncBody i
  | 7 => wordOfBytes ((List.finRange 32).flatMap s.channelBytes) i
  | 8 => wordOfBytes (s.logBytes 256) i
  | 9 => if i < 16384 then some ((s.dep.progGet i).setWidth 64) else none
  | 0xA => if i < 4096 then some (wd (s.dep.sramNat (8 * i) 8).1) else none
  | 0xB => s.strapRing i
  | _ => none

/-- The segments that hold secrets (Table 17.15). -/
def secureSegment (seg : Nat) : Bool := seg == 9 || seg == 0xA || seg == 0xB

/-- DBGLOCK is set (15 Table 15.10). -/
def State.dbgLock (s : State) : Bool := s.param 0x8000 2 == 1

/-- A segment is read: always, or while the core is stopped (Table 17.15). -/
def State.ringReads (s : State) (tap : Bool) (seg : Nat) : Bool :=
  if tap && (seg == 1 || (secureSegment seg && s.dbgLock)) then false
  else if seg == 1 || seg == 3 || seg == 4 || seg == 5 then s.stopped else true

/-- The CSRs that only a secure requester writes (04 R108). -/
def rwsCsr (n : Nat) : Bool := n == 0x201 || (decide (0x240 ≤ n) && decide (n ≤ 0x27F))

/-- A segment is written: while the core, or the deputy, is stopped (Table 17.15, R397). -/
def State.ringWrites (s : State) (tap : Bool) (seg i : Nat) : Bool :=
  match seg with
  | 1 => !tap && s.stopped && decide (i < 9 * 64)
  | 2 => s.stopped && decide (i < 4096) && !(tap && s.dbgLock && rwsCsr i)
  | 5 => s.stopped && decide (8 * i < 409856)
  | 9 => s.dep.halted && decide (i < 16384) && !(tap && s.dbgLock)
  | 0xA => s.dep.halted && decide (i < 4096) && !(tap && s.dbgLock)
  | _ => false

/-- A permitted write; none where the register cannot take it now (log 70). -/
def State.ringPut (s : State) (seg i : Nat) (v : Word) : Option State :=
  match seg with
  | 1 =>
    match s.levelOfPhys (i / 64) with
    | some l => some (s.setBankOf l ((s.bankOf l).setWordAt (8 * (i % 64)) v))
    | none => some s
  | 2 =>
    match s.csrPut i v v true with
    | .ok t => some t
    | _ => none
  | 5 => some (s.putTileWord (8 * i) v)
  | 9 => some { s with dep := s.dep.progSet i (v.setWidth 14) }
  | _ => some { s with dep := s.dep.setSramNat (8 * i) v.toNat 8 false }

/-- The segment of a ring address. -/
def ringSeg (a : BitVec 32) : Nat := a.toNat / 2 ^ 24
/-- The word index of a ring address. -/
def ringIndex (a : BitVec 32) : Nat := a.toNat % 2 ^ 24

/-- The outcome of a ring access at the requester: data and error. -/
def Debug.result (d : Debug) (tap : Bool) (addr : BitVec 32) (data : Word) (err : Bool) : Debug :=
  if tap then { d with tapAddr := addr, tapData := data, tapErr := err }
  else { d with addr := addr, data := data, err := d.err || err }

/-- Set a ring access's outcome. -/
def State.ringDone (s : State) (tap : Bool) (addr : BitVec 32) (data : Word) (err : Bool) : State :=
  { s with dbg := s.dbg.result tap addr data err }

/-- A ring read: zero and ERR where it is refused (R396, R397). -/
def State.ringRead (s : State) (tap : Bool) (addr : BitVec 32) : State :=
  if s.ringReads tap (ringSeg addr) then
    let t := s.csrTime (if ringSeg addr = 2 then ringIndex addr else 0)
    match t.ringWord (ringSeg addr) (ringIndex addr) with
    | some v => t.ringDone tap addr v false
    | none => s.ringDone tap addr 0 true
  else s.ringDone tap addr 0 true

/-- A ring write: nothing and ERR where it is refused (R396, R397). -/
def State.ringWrite (s : State) (tap : Bool) (addr : BitVec 32) (v : Word) : State :=
  if s.ringWrites tap (ringSeg addr) (ringIndex addr) then
    match s.ringPut (ringSeg addr) (ringIndex addr) v with
    | some t => t.ringDone tap addr v false
    | none => s.ringDone tap addr (if tap then 0 else v) true
  else s.ringDone tap addr (if tap then 0 else v) true

/-! ### Run control (R397) -/

/-- HALT: the core stops at an instruction boundary, a held instruction being abandoned as an event entry abandons it, and the tile
command queue drains. -/
def State.haltCore (s : State) : State :=
  if s.core.mode = .run then
    let t : State := s.dropCoreWaiters
    let t : State := if t.tileStuck then t else t.drainTile
    { t with core := { t.core with mode := .halted, stepGrant := false } }
  else s

/-- RESUME: a halted core continues; a frozen one needs CORE reset (R391). -/
def State.resumeCore (s : State) : State :=
  if s.core.mode = .halted then { s with core := { s.core with mode := .run, stepGrant := false } } else s

/-- STEP: one instruction completes, and the core halts again. -/
def State.stepCore (s : State) : State :=
  if s.core.mode = .halted then { s with core := { s.core with stepGrant := true } } else s

/-- An operation of the deputy, or one of the TAP while its instruction selects the IEEE 1687 network (R394, R395). -/
def State.ringOp (s : State) (tap : Bool) (f : State → State) : State := if tap && s.dbg.ir != 0x10 then s else f s

/-- DRCMD (Table 17.16): reserved codes do nothing. -/
def State.drcmd (s : State) (op : Nat) : State :=
  match op with
  | 1 => s.ringRead false s.dbg.addr
  | 2 => s.ringWrite false s.dbg.addr s.dbg.data
  | 3 => s.haltCore
  | 4 => s.resumeCore
  | 5 => s.stepCore
  | 6 => s.freeze
  | _ => s

/-! ### Commands -/

/-- RING_READ. -/
def execRingRead (tap : Bool) (addr : BitVec 32) (s : State) : Host.Outcome State Fault Refusal :=
  answer s (s.ringOp tap (fun s => s.ringRead tap addr))

/-- RING_WRITE. -/
def execRingWrite (tap : Bool) (addr : BitVec 32) (data : BitVec 64) (s : State) : Host.Outcome State Fault Refusal :=
  answer s (s.ringOp tap (fun s => s.ringWrite tap addr data))

/-- HALT. -/
def execHalt (tap : Bool) (s : State) : Host.Outcome State Fault Refusal := answer s (s.ringOp tap State.haltCore)

/-- RESUME. -/
def execResume (tap : Bool) (s : State) : Host.Outcome State Fault Refusal := answer s (s.ringOp tap State.resumeCore)

/-- DEBUG_STEP. -/
def execDebugStep (tap : Bool) (s : State) : Host.Outcome State Fault Refusal := answer s (s.ringOp tap State.stepCore)

/-- FREEZE. -/
def execFreeze (s : State) : Host.Outcome State Fault Refusal := answer s s.freeze

/-- TAP_RESET: TRSTn low, or five TCK cycles with TMS high, selects BYPASS (R394). -/
def execTapReset (s : State) : Host.Outcome State Fault Refusal := answer s { s with dbg := { s.dbg with ir := 0xFF } }

/-- The instruction that a code loads: the codes that name none are BYPASS (R394). -/
def tapCode (ir : BitVec 8) : BitVec 8 := if ir = 0x02 ∨ ir = 0x10 then ir else 0xFF

/-- TAP_INSTRUCTION_LOAD (R394). -/
def execTapInstructionLoad (ir : BitVec 8) (s : State) : Host.Outcome State Fault Refusal :=
  answer s { s with dbg := { s.dbg with ir := tapCode ir } }

end Sys2Proof.Machine
end

