-- ==== Sys2Proof/Machine/DepWindow.lean ====
section
/-! DEFINITION. The deputy's data space beyond its data SRAM (14 R305, R315 to R317, Tables 14.3, 14.9 and 14.10; 15 Table 15.21, 17
Table 17.16): the window registers, the core window, and the queue of window writes. -/

namespace Sys2Proof.Machine

/-! ### The registers' places -/

/-- A run of registers of one size: the first address, the count, the size in bytes. -/
structure WinRun where
  /-- Address of the first. -/
  base : Nat
  /-- How many follow each other. -/
  count : Nat
  /-- Bytes of each. -/
  size : Nat
  deriving DecidableEq, Repr

/-- Dictionary engine and CAN controller (15 Table 15.21). -/
def dictRuns : List WinRun := [
  ⟨0x8000, 1, 72⟩, ⟨0x8048, 1, 64⟩, ⟨0x8088, 3, 2⟩, ⟨0x8090, 1, 64⟩, ⟨0x80D0, 2, 2⟩, ⟨0x8800, 2, 2⟩, ⟨0x8804, 1, 4⟩, ⟨0x8808, 1, 8⟩]

/-- Debug ring, power and reset (17 Table 17.16). -/
def ringRuns : List WinRun := [
  ⟨0x9000, 1, 4⟩, ⟨0x9004, 2, 2⟩, ⟨0x9008, 1, 8⟩, ⟨0x9100, 2, 2⟩, ⟨0x9104, 1, 4⟩, ⟨0x9108, 4, 2⟩, ⟨0x9110, 2, 8⟩, ⟨0x9120, 1, 6⟩]

/-- Fill engine, copy engine, calibration (14 Table 14.9). -/
def engineRuns : List WinRun := [
  ⟨0x9800, 6, 2⟩, ⟨0xA000, 1, 6⟩, ⟨0xA008, 1, 6⟩, ⟨0xA010, 1, 4⟩, ⟨0xA014, 2, 2⟩, ⟨0xA800, 2, 2⟩, ⟨0xA810, 32, 2⟩, ⟨0xA880, 32, 8⟩,
  ⟨0xA980, 1, 2⟩]

/-- Translation, doorbells, heat table, secure mailboxes (14 Table 14.9). -/
def serviceRuns : List WinRun := [
  ⟨0xB000, 4, 16⟩, ⟨0xB040, 2, 2⟩, ⟨0xB048, 1, 6⟩, ⟨0xB04E, 2, 2⟩, ⟨0xB060, 1, 16⟩, ⟨0xB070, 1, 4⟩, ⟨0xB074, 2, 2⟩, ⟨0xB080, 1, 16⟩,
  ⟨0xB090, 2, 2⟩, ⟨0xB0C0, 3, 2⟩, ⟨0xB0C8, 8, 4⟩, ⟨0xB100, 1, 2⟩, ⟨0xB102, 1, 8⟩, ⟨0xB10A, 3, 2⟩, ⟨0xB400, 16, 64⟩]

/-- Deputy control (14 Table 14.9). -/
def controlRuns : List WinRun := [
  ⟨0xB800, 7, 2⟩, ⟨0xB810, 4, 2⟩, ⟨0xB818, 1, 6⟩, ⟨0xB820, 2, 2⟩, ⟨0xB828, 3, 2⟩, ⟨0xB830, 3, 2⟩, ⟨0xB838, 2, 2⟩, ⟨0xB840, 1, 2⟩,
  ⟨0xB844, 1, 2⟩]

/-- Every register below the core window. -/
def winRuns : List WinRun := dictRuns ++ ringRuns ++ engineRuns ++ serviceRuns ++ controlRuns

/-- The register that holds a byte: its address, and its size; none in a hole. -/
def winReg (a : Nat) : Option (Nat × Nat) :=
  match winRuns.find? (fun r => decide (r.base ≤ a) && decide (a < r.base + r.count * r.size)) with
  | some r => some (r.base + (a - r.base) / r.size * r.size, r.size)
  | none => none

/-! ### What the registers read (14 Table 14.9) -/

/-- PWRSTAT's code of a domain. -/
def PowerSt.code (p : PowerSt) : Nat :=
  match p with
  | .off => 0
  | .on => 1
  | .retained => 2
  | _ => 3

/-- DEREQ: the open request's frame, its path and source, the count of a block read. -/
def State.reqWindow (s : State) (r : DictReq) : Nat :=
  r.frame.toNat + (r.path.toNat + bit (s.reqSecure r) * 4 + r.service.toNat * 8 + r.source.toNat * 2 ^ 8) * 2 ^ 512
    + (if r.service = 3 then fieldOf r.frame.toNat 64 32 else 0) * 2 ^ 544

/-- Dictionary engine and CAN controller. -/
def State.winDict (s : State) (base : Nat) : Nat :=
  let d := s.dict
  let c := s.can
  match base with
  | 0x8000 => (d.current.map s.reqWindow).getD 0
  | 0x8048 => d.rsp.toNat
  | 0x808A => bit d.current.isSome + bit d.busy * 2
  | 0x808C => d.tmo.toNat
  | 0x8090 => d.ntf.toNat
  | 0x80D2 => bit d.ntfBusy + d.ntfTid.toNat * 2
  | 0x8800 => bit c.en + c.drate.toNat * 2
  | 0x8802 => c.state.toNat
  | 0x8804 => c.txErr.toNat + c.rxErr.toNat * 2 ^ 16
  | 0x8808 => c.rx.toNat + c.drop.toNat * 2 ^ 32 + c.ign.toNat * 2 ^ 48
  | _ => 0

/-- Debug ring, power and reset. -/
def State.winRing (s : State) (base : Nat) : Nat :=
  let p := s.pwr
  let f := s.fab
  match base with
  | 0x9000 => s.dbg.addr.toNat
  | 0x9006 => bit s.dbg.busy + bit s.dbg.err * 2 + bit (decide (s.core.mode = .halted)) * 4 + bit (decide (s.core.mode = .frozen)) * 8
  | 0x9008 => s.dbg.data.toNat
  | 0x9100 => p.targets.toNat
  | 0x9102 => p.core.code + p.tile.code * 4 + p.store.code * 16 + bit p.err * 2 ^ 15
  | 0x9104 => p.irqwake.toNat
  | 0x910A => p.temp.toNat
  | 0x910C => p.vmon.toNat
  | 0x910E => bit p.vidOk
  | 0x9110 => f.nacks.toNat + f.parity.toNat * 2 ^ 32 + f.reserved.toNat * 2 ^ 48
  | 0x9118 => f.rdErrs.toNat + f.wrErrs.toNat * 2 ^ 32 + f.timeouts.toNat * 2 ^ 48
  | 0x9120 => s.straps.bootBase.toNat
  | _ => 0

/-- Fill engine, copy engine, calibration. -/
def State.winEngine (s : State) (base : Nat) : Nat :=
  if 0x9802 ≤ base ∧ base < 0x980C then
    let m := s.res.fills[Fin.ofNat 5 ((base - 0x9802) / 2)]
    bit m.openFill.isSome * 2 ^ 15 + m.queue.length % 8
  else if 0xA810 ≤ base ∧ base < 0xA850 then s.assay.delay[Fin.ofNat 32 ((base - 0xA810) / 2)].toNat % 64
  else if 0xA880 ≤ base ∧ base < 0xA980 then
    let x := s.win.d2dcnt[Fin.ofNat 32 ((base - 0xA880) / 8)]
    x.1.toNat + x.2.1.toNat * 2 ^ 16 + x.2.2.toNat * 2 ^ 32
  else
    match base with
    | 0xA000 => s.ce.src.toNat
    | 0xA008 => s.ce.dst.toNat
    | 0xA010 => s.ce.len.toNat
    | 0xA016 => s.ce.status.toNat + bit s.ce.busy * 2 ^ 4 + s.ce.seq.toNat * 2 ^ 8 + bit s.ce.valid * 2 ^ 15
    | 0xA800 => s.assay.vid.toNat % 2 ^ 8
    | 0xA802 => s.assay.trim.toNat
    | _ => 0

/-- A secure mailbox channel from its index. -/
def secureChanOf (k : Nat) : Fin 16 := Fin.ofNat 16 (8 + k % 8)

/-- One bit of each secure channel. -/
def State.secureBits (s : State) (f : Mailbox → Bool) : Nat :=
  (List.range 8).foldl (fun n k => n + bit (f s.mb.ch[secureChanOf k]) * 2 ^ k) 0

/-- Translation, doorbells, heat table, secure mailboxes. -/
def State.winService (s : State) (base : Nat) : Nat :=
  let w := s.win
  if base < 0xB040 then
    let i := Fin.ofNat 4 ((base - 0xB000) / 16)
    (s.xl.held[i]).word i.val
  else if 0xB0C8 ≤ base ∧ base < 0xB0E8 then
    let m := s.mb.ch[secureChanOf ((base - 0xB0C8) / 4)]
    m.pnode.toNat + m.pchan.toNat * 2 ^ 24 + bit m.en * 2 ^ 31
  else if 0xB400 ≤ base then
    let m := s.mb.ch[secureChanOf ((base - 0xB400) / 128)]
    if (base - 0xB400) / 64 % 2 = 0 then m.inSlot.toNat else m.outSlot.toNat
  else
    match base with
    | 0xB042 => (List.finRange 4).foldl (fun n i => n + bit s.xl.held[i].valid * 2 ^ i.val) 0
    | 0xB048 => w.s2page.toNat + bit w.s2all * 2 ^ 33
    | 0xB050 => bit w.s2busy
    | 0xB060 => w.dbout.toNat
    | 0xB070 => w.dbdest.toNat
    | 0xB076 => bit w.dbbusy + bit w.dbunrt * 2
    | 0xB080 => (w.dbin.head?.map BitVec.toNat).getD 0
    | 0xB090 => w.dbin.length + bit (!w.dbin.isEmpty) * 2 ^ 15
    | 0xB0C2 => s.secureBits Mailbox.inFull + s.secureBits Mailbox.outFull * 2 ^ 8
    | 0xB0C4 => s.secureBits Mailbox.credit
    | 0xB100 => s.hl.htwsel.toNat
    | 0xB102 => s.hl.htwsnap.toNat
    | 0xB10C => bit s.hl.aging
    | 0xB10E => s.hl.hfillw.toNat
    | _ => 0

/-- PMDATA: the word at PMADDR; what it reads past program SRAM is not given (log 73). -/
def Deputy.pmdata (d : Deputy) : Nat :=
  if d.pmaddr.toNat < 0x4000 then (d.progGet d.pmaddr.toNat).toNat
  else ((Config.dumpByte 0x100 (2 * d.pmaddr.toNat)).toNat + (Config.dumpByte 0x100 (2 * d.pmaddr.toNat + 1)).toNat * 2 ^ 8) % 2 ^ 14

/-- Deputy control. -/
def State.winControl (s : State) (base : Nat) : Nat :=
  let d := s.dep
  match base with
  | 0xB800 => d.ipend.toNat
  | 0xB802 => d.iena.toNat
  | 0xB804 => d.splo.toNat
  | 0xB806 => d.sphi.toNat
  | 0xB808 => d.shpc.toNat
  | 0xB80A => d.shfl.toNat
  | 0xB80C => bit d.shValid + bit d.shPop * 2
  | 0xB810 => d.winsel.toNat
  | 0xB812 => bit d.winOff + bit s.stopped * 2 + bit d.winLdflt * 4
  | 0xB814 => d.wdPeriod.toNat + bit d.wdEn * 2 ^ 15
  | 0xB818 => d.recCause.toNat + d.recSeq.toNat * 2 ^ 8 + bit d.recValid * 2 ^ 15 + d.recPc.toNat * 2 ^ 16 + d.recBlock.toNat * 2 ^ 32
  | 0xB820 => d.dfaddr.toNat
  | 0xB822 => d.dfinfo.toNat
  | 0xB828 => d.tmrld.toNat
  | 0xB82A => d.tmrcnt.toNat
  | 0xB82C => bit d.tmrEn
  | 0xB830 => d.pmaddr.toNat
  | 0xB832 => d.pmdata
  | 0xB834 => bit d.lock + d.spblk.toNat * 2 + bit d.spen * 2 ^ 5
  | 0xB838 => bit d.extEn
  | 0xB83A => d.extgate.toNat
  | 0xB840 => d.bootStatus.toNat + bit d.recov * 2 ^ 4 + bit d.xok * 2 ^ 5
  | 0xB844 => bit s.stopped + bit d.esc2 * 2 + bit d.dumpreq * 4 + bit d.pwrchg * 8
  | _ => 0

/-- What the register at an address reads. -/
def State.winValue (s : State) (base : Nat) : Nat :=
  if base < 0x9000 then s.winDict base
  else if base < 0x9800 then s.winRing base
  else if base < 0xB000 then s.winEngine base
  else if base < 0xB800 then s.winService base
  else s.winControl base

/-- What a read of a register does beside: HTWDATA's snapshot at bytes 0 and 1; the timer has counted (log 55). -/
def State.winTouch (s : State) (base off : Nat) : State :=
  if base = 0xB102 ∧ off < 2 then s.heatSnap
  else if base = 0xB82A ∧ s.dep.tmrEn = true then
    let t : State := s.drawn
    { t with dep := { t.dep with tmrcnt := t.dep.tmrcnt - BitVec.ofNat 16 (min (Config.freeCount s.free) t.dep.tmrcnt.toNat) } }
  else s

/-! ### What a write does -/

/-- Replace bytes of a value. -/
def putBytes (old off n v : Nat) : Nat :=
  old - fieldOf old (8 * off) (8 * n) * 2 ^ (8 * off) + v % 2 ^ (8 * n) * 2 ^ (8 * off)

/-- A frame as the dictionary engine holds it: bit 7 of its header's byte 7 is reserved (15 Table 15.13, 00 R12). -/
def frameBits (x : Nat) : BitVec 512 := BitVec.ofNat 512 x &&& ~~~(1#512 <<< 63)

/-- A doorbell payload without its reserved bits (12 Table 12.3, 00 R12). -/
def doorBits (x : Nat) : BitVec 128 := BitVec.ofNat 128 x &&& ~~~((0x1F#128 <<< 39) ||| (0x7F#128 <<< 121))

/-- Write dictionary engine and CAN controller: `x` is the register with its new bytes, `b` the written bytes alone, `low` says that
byte 0 is written. -/
def State.winPutDict (s : State) (base x b : Nat) (low : Bool) : State :=
  let d := s.dict
  match base with
  | 0x8048 => { s with dict := { d with rsp := frameBits x } }
  | 0x8088 => if low && bitOf b 0 then s.dectl (bitOf b 1) else s
  | 0x808C => { s with dict := { d with tmo := BitVec.ofNat 16 x } }
  | 0x8090 => { s with dict := { d with ntf := frameBits x } }
  | 0x80D0 => if low && bitOf b 0 then s.dengo else s
  | 0x8800 => { s with can := { s.can with en := bitOf x 0 && decide (s.straps.mgmtNode ≠ 0), drate := BitVec.ofNat 2 (x / 2) } }
  | _ => s

/-- Write debug ring, power and reset. -/
def State.winPutRing (s : State) (base x b : Nat) (low : Bool) : State :=
  match base with
  | 0x9000 => { s with dbg := { s.dbg with addr := BitVec.ofNat 32 x } }
  | 0x9004 => if low then s.drcmd (b % 8) else s
  | 0x9006 => { s with dbg := { s.dbg with err := s.dbg.err && !bitOf b 1 } }
  | 0x9008 => { s with dbg := { s.dbg with data := wd x } }
  | 0x9100 => (s.setTargets (BitVec.ofNat 4 x)).sequence
  | 0x9102 => { s with pwr := { s.pwr with err := s.pwr.err && !bitOf b 15 } }
  | 0x9104 => { s with pwr := { s.pwr with irqwake := BitVec.ofNat 32 x } }
  | 0x9108 =>
    let t : State := if low && bitOf b 0 then s.assertCore else s
    if low && bitOf b 1 then t.releaseCore else t
  | _ => s

/-- Write fill engine, copy engine, calibration. A delay code of 32 to 63, which Table 14.9 does not admit, is stored as written:
DESIGN CHOICE (log 176). -/
def State.winPutEngine (s : State) (base x b : Nat) (low : Bool) : State :=
  if 0xA810 ≤ base ∧ base < 0xA850 then
    { s with assay := { s.assay with delay := s.assay.delay.set (Fin.ofNat 32 ((base - 0xA810) / 2)) (BitVec.ofNat 8 (x % 64)) } }
  else
    match base with
    | 0x9800 => if low then s.fecmd b else s
    | 0xA000 => { s with ce := { s.ce with src := BitVec.ofNat 47 x } }
    | 0xA008 => { s with ce := { s.ce with dst := BitVec.ofNat 47 x } }
    | 0xA010 => { s with ce := { s.ce with len := BitVec.ofNat 32 x } }
    | 0xA014 => if low then s.ceCmd b else s
    | 0xA016 => { s with ce := { s.ce with valid := s.ce.valid && !bitOf b 15 } }
    | 0xA800 => if low then s.setPoint (BitVec.ofNat 16 (x % 2 ^ 8)) s.assay.trim else s
    | 0xA802 => if low then s.setPoint s.assay.vid (BitVec.ofNat 8 x) else s
    | 0xA980 => if low then { s with win := { s.win with d2dcnt := s.win.d2dcnt.set (Fin.ofNat 32 b) (0, 0, 0) } } else s
    | _ => s

/-- SMBCTL: SEND and RELEASE of a channel. -/
def State.secureMailCtl (s : State) (b : Nat) : State :=
  let c := secureChanOf b
  let t : State := if bitOf b 4 then s.mailSend c else s
  if bitOf b 5 then t.mailRelease c else t

/-- HFRES: RETRY or DECLINE of a slot (04 R102). -/
def State.resolveHeld (s : State) (b : Nat) : State :=
  match b / 4 % 4 with
  | 1 => s.retryHeld (Fin.ofNat 4 b)
  | 2 => s.declineHeld (Fin.ofNat 4 b) false
  | _ => s

/-- Write translation, doorbells, heat table, secure mailboxes; `off` is the first byte written. -/
def State.winPutService (s : State) (base off x b : Nat) (low : Bool) : State :=
  let w := s.win
  if 0xB0C8 ≤ base ∧ base < 0xB0E8 then
    s.mailConfig (secureChanOf ((base - 0xB0C8) / 4)) (bitOf x 31) (BitVec.ofNat 4 (x / 2 ^ 24)) (BitVec.ofNat 24 x)
  else if 0xB400 ≤ base then
    if (base - 0xB400) / 64 % 2 = 0 then s
    else s.mailWrite (secureChanOf ((base - 0xB400) / 128)) (off / 8) (wd (x / 2 ^ (off / 8 * 64)))
  else
    match base with
    | 0xB040 => if low then s.resolveHeld b else s
    | 0xB048 => { s with win := { w with s2page := BitVec.ofNat 33 x, s2all := bitOf x 33 } }
    | 0xB04E => if low && bitOf b 0 then s.s2go else s
    | 0xB060 => { s with win := { w with dbout := doorBits x } }
    | 0xB070 => { s with win := { w with dbdest := BitVec.ofNat 24 x } }
    | 0xB074 => if low && bitOf b 0 then s.dbSend else s
    | 0xB076 => { s with win := { w with dbunrt := w.dbunrt && !bitOf b 1 } }
    | 0xB092 => if low && bitOf b 0 then s.dbPop else s
    | 0xB0C0 => if low then s.secureMailCtl b else s
    | 0xB100 => { s with hl := { s.hl with htwsel := BitVec.ofNat 14 x } }
    | 0xB10A => if low && bitOf b 0 then s.agePass else s
    | 0xB10E => { s with hl := { s.hl with hfillw := BitVec.ofNat 8 x } }
    | _ => s

/-- A write of PMDATA: ignored once LOCK is set, PMADDR staying too; past program SRAM no word is written (R303, Table 14.12). -/
def Deputy.putPmdata (d : Deputy) (v : Nat) : Deputy :=
  if d.lock then d
  else
    let e : Deputy := if d.pmaddr.toNat < 0x4000 then d.progSet d.pmaddr.toNat (BitVec.ofNat 14 v) else d
    { e with pmaddr := d.pmaddr + 1 }

/-- A write of PMCTL: LOCK is only set; the spare block is not changed once it is set (R304). -/
def Deputy.putPmctl (d : Deputy) (x : Nat) : Deputy :=
  if d.lock then d else { d with lock := bitOf x 0, spen := bitOf x 5, spblk := BitVec.ofNat 4 (x / 2) }

/-- The vectors that IPEND and IENA hold. -/
def asyncBits : BitVec 16 := 0x7FF0

/-- Write deputy control. -/
def State.winPutControl (s : State) (base x b : Nat) : State :=
  let d := s.dep
  let set (d : Deputy) : State := { s with dep := d }
  match base with
  | 0xB800 => set { d with ipend := d.ipend &&& ~~~(BitVec.ofNat 16 b &&& asyncBits) }
  | 0xB802 => set { d with iena := BitVec.ofNat 16 x &&& asyncBits }
  | 0xB804 => set { d with splo := BitVec.ofNat 16 x }
  | 0xB806 => set { d with sphi := BitVec.ofNat 16 x }
  | 0xB80C => set { d with shValid := d.shValid && !bitOf b 0 }
  | 0xB810 => set { d with winsel := BitVec.ofNat 8 x }
  | 0xB814 => set { d with wdEn := bitOf x 15, wdPeriod := BitVec.ofNat 8 x }
  | 0xB816 => s.kick b
  | 0xB818 => set { d with recValid := d.recValid && !bitOf b 15 }
  | 0xB828 => set { d with tmrld := BitVec.ofNat 16 x }
  | 0xB82C => set { d with tmrEn := bitOf x 0 }
  | 0xB830 => set { d with pmaddr := BitVec.ofNat 16 x }
  | 0xB832 => set (d.putPmdata x)
  | 0xB834 => (set (d.putPmctl x)).blockSpared s
  | 0xB838 => set { d with extEn := bitOf x 0 }
  | 0xB844 => set { d with esc2 := d.esc2 && !bitOf b 1, dumpreq := d.dumpreq && !bitOf b 2, pwrchg := d.pwrchg && !bitOf b 3 }
  | _ => s

/-- Write `n` bytes of a register from its byte `off`; RO fields ignore it (00 R8), and a command register acts where its byte 0 is
written (log 74). -/
def State.winPut (s : State) (base off n v : Nat) : State :=
  let x := putBytes (s.winValue base) off n v
  let b := putBytes 0 off n v
  let low := decide (off = 0)
  if base < 0x9000 then s.winPutDict base x b low
  else if base < 0x9800 then s.winPutRing base x b low
  else if base < 0xB000 then s.winPutEngine base x b low
  else if base < 0xB800 then s.winPutService base off x b low
  else s.winPutControl base x b

/-! ### The core window (R316, Table 14.10) -/

/-- What a page of the core window shows. -/
inductive CorePage where
  /-- CSRs from this number. -/
  | csrs (first : Nat)
  /-- On-core memory from this offset, and its size. -/
  | ram (first size : Nat)
  /-- The bank of a level. -/
  | bank (level : Fin 8)
  /-- The spare bank. -/
  | spare
  /-- A hole. -/
  | hole
  deriving DecidableEq, Repr

/-- The page that WINSEL names. -/
def corePage (page : Nat) : CorePage :=
  if page = 0 then .csrs 0
  else if page = 1 then .csrs 0x800
  else if page = 2 then .ram 0 0x4000
  else if page = 3 then .ram 0x4000 0x800
  else if 0x10 ≤ page ∧ page < 0x18 then .bank (Fin.ofNat 8 (page - 0x10))
  else if page = 0x18 then .spare
  else .hole

/-- The page selected. -/
def State.page (s : State) : CorePage := corePage s.dep.winsel.toNat

/-- A byte offset of the bank layout that Table 14.10 gives. -/
def bankOffset (off : Nat) : Bool := decide (off < 0x150) || (decide (0x158 ≤ off) && decide (off < 0x160))

/-- The reason with which an access to a byte of the core window is refused (Table 14.10, R325). -/
def State.coreWindowFault (s : State) (ext : Bool) (off : Nat) : Option Nat :=
  match s.page with
  | .csrs _ => none
  | .ram _ size => if ext then some 2 else if off < size then none else some 1
  | .bank _ | .spare => if ext then some 2 else if !s.stopped then some 4 else if bankOffset off then none else some 1
  | .hole => if ext then some 2 else some 1

/-- The level whose state the spare bank, physical bank 8, holds (log 51). -/
def State.spareLevel (s : State) : Option (Fin 8) := s.levelOfPhys 8

/-- The level whose bank a page shows; none where the page shows no bank of a level (log 52). -/
def State.pageLevel (s : State) : Option (Fin 8) :=
  match s.page with
  | .bank l => if s.core.resident[l] then some l else none
  | .spare => s.spareLevel
  | _ => none

/-- A CSR of the core window exists: its number is defined and not in 0x700 to 0x7FF (R316). -/
def windowCsr (c : Nat) : Bool := !(decide (0x700 ≤ c) && decide (c ≤ 0x7FF)) && (csrRights c).isSome

/-- Bytes of a word. -/
def sliceOf (v : Word) (off n : Nat) : Nat := fieldOf v.toNat (8 * off) (8 * n)

/-- A read of a CSR's bytes: byte 0 takes a snapshot, and the others come from one (R316). -/
def State.winCsrRead (s : State) (c off n : Nat) : State × Nat :=
  if !windowCsr c then (s, 0)
  else
    let held : Option Word := match s.dep.winSnap with
      | some x => if x.1.toNat = c then some x.2 else none
      | none => none
    match off, held with
    | 0, _ =>
      let g := s.csrGet c
      ({ g.1 with dep := { g.1.dep with winSnap := some (BitVec.ofNat 12 c, g.2) } }, sliceOf g.2 0 n)
    | _, some v => (s, sliceOf v off n)
    | _, none =>
      let g := s.csrGet c
      (g.1, sliceOf g.2 off n)

/-- The staged bytes of a CSR. -/
def Deputy.staged (d : Deputy) (c : Nat) : Nat :=
  match d.winStage with
  | some x => if x.1.toNat = c then x.2.toNat else 0
  | none => 0

/-- LDFLT. -/
def State.setLdflt (s : State) (b : Bool) : State := { s with dep := { s.dep with winLdflt := b } }

/-- A write of a CSR's bytes: bytes 0 to 5 are staged, byte 7 commits (R316); none where the CSR makes the write wait. -/
def State.winCsrWrite (s : State) (c off n v : Nat) (secure : Bool) : Option State :=
  if !windowCsr c then some (s.setLdflt false)
  else if off + n = 8 then
    let x := wd (putBytes (s.dep.staged c) off n v)
    match s.csrPut c x x secure with
    | .ok t => some (t.setLdflt false)
    | .wait => none
    | .fault _ => some (s.setLdflt true)
    | .escalate f => some ((s.escalateTsb f).setLdflt true)
  else if off < 6 then
    let t : State := s.setLdflt false
    some { t with dep := { t.dep with winStage := some (BitVec.ofNat 12 c, BitVec.ofNat 48 (putBytes (s.dep.staged c) off n v)) } }
  else some (s.setLdflt false)

/-- WINSTAT.OFF. -/
def State.setOff (s : State) (b : Bool) : State := { s with dep := { s.dep with winOff := b } }

/-- A page of the core that needs PD_CORE on. -/
def CorePage.powered (p : CorePage) : Bool :=
  match p with
  | .csrs _ | .ram _ _ => true
  | _ => false

/-- A permitted read of the core window. -/
def State.coreWindowGet (s : State) (off n : Nat) : State × Nat :=
  if s.page.powered && decide (s.pwr.core ≠ .on) then (s.setOff true, 0)
  else
    let s : State := s.setOff false
    match s.page with
    | .csrs first => s.winCsrRead (first + off / 8) (off % 8) n
    | .ram first _ => (s, s.mem.onCoreNat (first + off) n)
    | .hole => (s, 0)
    | _ =>
      match s.pageLevel with
      | some l => (s, sliceOf ((s.bankOf l).wordAt (off / 8 * 8)) (off % 8) n)
      | none => (s, sliceOf ((freeWord 1 (10 * 512) (8 * 64 + off / 8)).getD 0) (off % 8) n)

/-- A permitted write of the core window; none where it waits. -/
def State.coreWindowPut (s : State) (off n v : Nat) (secure : Bool) : Option State :=
  if s.page.powered && decide (s.pwr.core ≠ .on) then some (s.setOff true)
  else
    let s : State := s.setOff false
    match s.page with
    | .csrs first => s.winCsrWrite (first + off / 8) (off % 8) n v secure
    | .ram first _ => some ({ s with mem := s.mem.setOnCoreNat (first + off) v n }.setLdflt false)
    | .hole => some s
    | _ =>
      match s.pageLevel with
      | some l =>
        let b := s.bankOf l
        let i := off / 8 * 8
        some ((s.setBankOf l (b.setWordAt i (wd (putBytes (b.wordAt i).toNat (off % 8) n v)))).setLdflt false)
      | none => some (s.setLdflt false)

/-! ### One access of the window (R305, R325) -/

/-- The address reaches the core window. -/
def inCoreWindow (a : Nat) : Bool := decide (0xC000 ≤ a)

/-- Extension code may make the access, the core window apart (Table 14.3). -/
def extReaches (a : Nat) (write : Bool) : Bool :=
  (decide (0x6000 ≤ a) && decide (a < 0x7000)) || (decide (0x8000 ≤ a) && decide (a < 0x9000))
    || (!write && decide (0xB800 ≤ a) && decide (a < 0xC000))

/-- The reason with which an access to a byte of the data space is refused: extension code first, then holes, then parity
(log 75). -/
def State.byteFault (s : State) (ext write : Bool) (a : Nat) : Option Nat :=
  if inCoreWindow a then s.coreWindowFault ext (a - 0xC000)
  else if ext && !extReaches a write then some 2
  else if 0x8000 ≤ a then (if (winReg a).isNone then some 1 else none)
  else if !write && nsMem a s.dep.dataBad then some 3
  else none

/-- A permitted read of one or two bytes of the window that lie in one register. -/
def State.winGet (s : State) (a n : Nat) : State × Nat :=
  if inCoreWindow a then s.coreWindowGet (a - 0xC000) n
  else
    match winReg a with
    | some r =>
      let t : State := s.winTouch r.1 (a - r.1)
      (t, fieldOf (t.winValue r.1) (8 * (a - r.1)) (8 * n))
    | none => (s, 0)

/-- A permitted write of one or two bytes of the window that lie in one register; none where it waits. -/
def State.winSet (s : State) (a n v : Nat) (secure : Bool) : Option State :=
  if inCoreWindow a then
    if (s.coreWindowFault false (a - 0xC000)).isSome then some s else s.coreWindowPut (a - 0xC000) n v secure
  else
    match winReg a with
    | some r => some (s.winPut r.1 (a - r.1) n v)
    | none => some s

/-- Perform one entry of the queue; at an odd address it is two bytes (R305). -/
def State.winPerform (s : State) (w : WinWrite) : Option State :=
  let a := w.addr.toNat
  if w.bytes = 2 ∧ a % 2 = 1 then
    match s.winSet a 1 (w.value.toNat % 2 ^ 8) w.secure with
    | some t => t.winSet (w.addr + 1).toNat 1 (w.value.toNat / 2 ^ 8) w.secure
    | none => none
  else s.winSet a w.bytes w.value.toNat w.secure

/-- Perform the oldest posted write; unchanged where it has to wait (R317). -/
def State.performOne (s : State) : State :=
  match s.dep.wqueue with
  | [] => s
  | w :: t => (State.winPerform { s with dep := { s.dep with wqueue := t } } w).getD s

/-- Perform every posted write: a list of them from the state without them. -/
def State.performAllPosted : List WinWrite → State → Option State
  | [], s => some s
  | w :: t, s => match s.winPerform w with
    | some s' => s'.performAllPosted t
    | none => none

/-- The posted writes are performed in order until one has to wait; the fuel bounds them (R317). -/
def State.performReady : Nat → State → State
  | 0, s => s
  | n + 1, s =>
    match s.dep.wqueue with
    | [] => s
    | w :: t =>
      match State.winPerform { s with dep := { s.dep with wqueue := t } } w with
      | some s' => s'.performReady n
      | none => s

/-- The window as the posted writes will leave it, as far as a later access can tell: one that waits is passed over. -/
def State.foreseen (s : State) : State :=
  s.dep.wqueue.foldl (fun s w => (s.winPerform w).getD s) { s with dep := { s.dep with wqueue := [] } }

/-- The state once every posted write is performed (R317); none while one waits. -/
def State.flushed (s : State) : Option State := ({ s with dep := { s.dep with wqueue := [] } }).performAllPosted s.dep.wqueue

/-! ### Commands -/

/-- WINDOW_WRITE_PERFORM (R317). -/
def execWindowWritePerform (s : State) : Host.Outcome State Fault Refusal := answer s s.performOne

/-- A window read, after every earlier window write has been performed; it waits while one of them does (R317). -/
def State.afterPosted (s : State) (k : State → State) : State :=
  match s.flushed with
  | some t => k t
  | none => s

/-- CORE_WINDOW_READ: a 16-bit read by firmware at an even offset, or of a byte at an odd one; a refused access performs nothing
(R316, log 76). -/
def execCoreWindowRead (offset : BitVec 14) (s : State) : Host.Outcome State Fault Refusal :=
  answer s (s.afterPosted fun s =>
    if (s.coreWindowFault false offset.toNat).isSome then s
    else (s.coreWindowGet offset.toNat (if offset.toNat % 2 = 0 then 2 else 1)).1)

/-- HTWDATA_READ: a read of bytes 0 and 1 takes the snapshot (Table 14.9). -/
def execHtwdataRead (s : State) : Host.Outcome State Fault Refusal := answer s (s.afterPosted State.heatSnap)

/-- CORE_WINDOW_WRITE: a 16-bit write at an even offset, or of a byte at an odd one, by firmware or by extension code: it is posted behind
the earlier ones, and waits while the queue is full; the queue is then performed as far as it can be (R316, R317, log 76). -/
def execCoreWindowWrite (offset : BitVec 14) (value : BitVec 16) (secure : Bool) (s : State) : Host.Outcome State Fault Refusal :=
  answer s
    (let n := if offset.toNat % 2 = 0 then 2 else 1
     if (s.foreseen.coreWindowFault (!secure) offset.toNat).isSome then s
     else
       let t := s.performReady 4
       if 4 ≤ t.dep.wqueue.length then t
       else
         let w : WinWrite :=
           { addr := 0xC000 + offset.setWidth 16, bytes := n, value := BitVec.ofNat 16 (value.toNat % 2 ^ (8 * n)), secure := secure }
         ({ t with dep := { t.dep with wqueue := t.dep.wqueue ++ [w] } }).performReady 4)

/-- PMDATA_WRITE (R303). -/
def execPmdataWrite (value : BitVec 16) (s : State) : Host.Outcome State Fault Refusal :=
  answer s { s with dep := s.dep.putPmdata value.toNat }

/-- PMCTL_WRITE (R304). -/
def execPmctlWrite (value : BitVec 16) (s : State) : Host.Outcome State Fault Refusal :=
  answer s (({ s with dep := s.dep.putPmctl value.toNat } : State).blockSpared s)

/-- TIMER_EXPIRY: vector 14, and the reload, while TMRCTL.EN = 1 (Table 14.9). -/
def execTimerExpiry (s : State) : Host.Outcome State Fault Refusal :=
  answer s (if s.dep.tmrEn then ({ s with dep := { s.dep with tmrcnt := s.dep.tmrld } }).raiseVector 14 else s)

/-- Write bytes of the window in ascending order, in pieces of two where the address is even; a refused byte is not written, and a
register that waits takes nothing. The fuel bounds the pieces. -/
def State.writeBytes (s : State) (secure : Bool) (a n v : Nat) : Nat → State
  | 0 => s
  | fuel + 1 =>
    if n = 0 then s
    else
      let k := if a % 2 = 0 ∧ 2 ≤ n then 2 else 1
      let t : State :=
        if (s.byteFault (!secure) true a).isSome then s
        else if a < 0x8000 then { s with dep := s.dep.setSramNat a v k false }
        else (s.winSet a k (v % 2 ^ (8 * k)) secure).getD s
      t.writeBytes secure (a + k) (n - k) (v / 2 ^ (8 * k)) fuel

/-- REGISTER_WRITE: a register by its access code (00 R8). A CSR's write reaches it while PD_CORE is on. -/
def execRegisterWrite (target : RegTarget) (value : BitVec 64) (secure : Bool) (s : State) : Host.Outcome State Fault Refusal :=
  match target with
  | .csr n =>
    answer s
      (if s.pwr.core ≠ .on then s
       else match s.csrPut n.toNat value value secure with
         | .ok t => t
         | .wait => s
         | .fault e => s.takeException e
         | .escalate f => s.escalateTsb f)
  | .window a n => if windowAccess a n then answer s (s.writeBytes secure a.toNat n value.toNat 8) else .refused .illFormed

end Sys2Proof.Machine
end

