-- ==== Sys2Proof/Machine/Boot.lean ====
section
/-! DEFINITION. PD_AON reset and the boot that follows it (17 R391 to R393, Table 17.14; 14 R318 to R322; 16 R361; 11 R255). -/

namespace Sys2Proof.Machine

/-! ### The spare map (16 R361, Table 16.7) -/

/-- A record of the spare map. -/
structure SpareRec where
  /-- CLASS. -/
  cls : Nat
  /-- STATE. -/
  state : Nat
  /-- MODE. -/
  mode : Nat
  /-- UNIT. -/
  unit : Nat
  /-- SPARE. -/
  spare : Nat
  deriving DecidableEq, Repr

/-- A record of 8 bytes; none where it breaks the layout: it is skipped. -/
def spareRecOf (v : Nat) : Option SpareRec :=
  let r : SpareRec :=
    { cls := fieldOf v 0 3, state := fieldOf v 6 2, mode := fieldOf v 8 2, unit := fieldOf v 16 12, spare := fieldOf v 28 4 }
  let clear := fieldOf v 3 3 == 0 && fieldOf v 10 6 == 0 && fieldOf v 32 32 == 0
  let good :=
    if r.cls < 6 then decide (1 ≤ r.state) && r.mode == 0
    else r.cls == 6 && decide (r.mode < 3)
  if clear && good then some r else none

/-- The records of a map whose header holds; none of a map that breaks it. -/
def spareRecsOf (l : List Byte) : List SpareRec :=
  if byteField l 0 2 = 0x4D53 ∧ byteField l 2 2 = 1 ∧ byteField l 6 2 = 0 then
    (List.range (byteField l 4 2)).filterMap (fun i =>
      if 8 * i + 16 ≤ l.length then spareRecOf (byteField l (8 * i + 8) 8) else none)
  else []

/-- The spare that a record names within its class: with its die for class 1, the T register for class 2. -/
def SpareRec.index (r : SpareRec) : Nat :=
  match r.cls with
  | 1 => 16 * (r.unit / 256) + r.spare
  | 2 => r.unit / 128
  | _ => r.spare

/-- A class record enters its fill machine, where its unit and spare exist. -/
def State.applySpare (s : State) (r : SpareRec) : State :=
  if h : r.cls < 5 then
    let c : Fin 5 := ⟨r.cls, h⟩
    let m := s.res.fills[c]
    if r.state = 3 then
      if (s.spareSet c).contains r.index then s.setFill c { m with deadSpares := r.index :: m.deadSpares } else s
    else if !s.fillUnit c r.unit then s
    else if r.state = 1 then
      if (s.sparesFor c r.unit).contains r.index && m.spareFree r.index then
        s.setFill c { m with dead := r.unit :: m.dead, inUse := m.inUse ++ [(r.index, r.unit)] }
      else s
    else
      let t : State := s.setFill c { m with dead := r.unit :: m.dead, retired := if c = 0 then m.retired else r.unit :: m.retired }
      if c = 3 then { t with pwr := { t.pwr with coreRetired := true } }
      else if c = 4 then { t with mem := t.mem.loseWay } else t
  else if r.cls = 6 then { s with res := { s.res with stopeMode := BitVec.ofNat 2 r.mode } }
  else s

/-- Firmware reapplies the spare map, with the stope's mode. -/
def State.applySpares (s : State) : State := (spareRecsOf (s.storedBytes 0x3001 1 0xA)).foldl State.applySpare s

/-! ### The operating point (11 R255) -/

/-- A value within limits. -/
def clampInt (lo hi v : Int) : Int := if v < lo then lo else if hi < v then hi else v

/-- The store holds an operating point. -/
def State.hasPoint (s : State) : Bool :=
  ((newest (s.storeCopy 0) (s.storeCopy 1)).getD []).any (fun r => r.idx == 0x5001 && r.sub == 1 && r.type == 3 && r.value.length == 4)

/-- Firmware moves to the persisted point within the limits, or else to VIDMAX with the trim nearest 0; it is last_good. -/
def State.bootPoint (s : State) (valid : Bool) : State :=
  let lo : Int := s.param 0x5000 4
  let hi : Int := s.param 0x5000 5
  let v : Int := if valid then clampInt lo hi s.assay.goodVid.toNat else hi
  let t : Int := clampInt (s.paramI16 0x5000 6) (s.paramI16 0x5000 7) (if valid then s.assay.goodTrim.toInt else 0)
  let vid := BitVec.ofInt 16 v
  let trim := BitVec.ofInt 8 t
  { s with
    assay := { s.assay with vid := vid, trim := trim, goodVid := vid, goodTrim := trim }
    pwr := if vid = 100 then s.pwr else { s.pwr with vidOk := false } }

/-! ### The boot sequence (17 Table 17.14) -/

/-- Steps 6 and 7: the dictionary store, the spare map, the operating point, CANCFG; HTCFG, and HLTAKE's reset values (12 Tables 12.4
and 12.10). -/
def State.bootStore (s : State) : State :=
  let s : State := s.loadStore
  let s : State := (s.applySpares).bootPoint s.hasPoint
  let rate := BitVec.ofNat 2 (s.param 0x2000 5)
  { s with
    dict := { s.dict with capRate := rate }
    hl := { s.hl with
      hfillw := BitVec.ofNat 8 (s.param 0x6000 3), thr := BitVec.ofNat 8 (s.param 0x6000 9), reflim := BitVec.ofNat 8 (s.param 0x6000 0xA) }
    can := { s.can with en := decide (s.straps.mgmtNode ≠ 0), drate := rate } }

/-- Steps 8 and 9: the domains are powered in order with CORE reset held, and the channels trained (log 54). -/
def State.bootPower (s : State) : State :=
  let s : State := s.setTargets (1 ||| s.policyTargets)
  let s : State := s.resetCore.loseStore
  let s : State := { s with
    pwr := { s.pwr with
      core := .on, store := if s.pwr.targets.getLsbD 2 then .on else .off, tile := if s.pwr.targets.getLsbD 1 then .on else .off }
    assay := { s.assay with delay := Vector.ofFn (fun h => Config.trainedCode h.val) } }
  (List.finRange 5).foldl State.openQueued s

/-- Steps 11 and 12: what firmware writes while CORE reset is held, the merge of the tally's copies, the release. The free pages and the
members that it works with are its own (log 36). -/
def State.bootRelease (s : State) (freePages : List (BitVec 33)) (members : List (BitVec 24)) : State :=
  let s : State := s.applyTiermap.applyBankpol
  let s : State := s.mergeTally (s.dumpSource.toList ++ s.storeSource.toList)
  ({ s with hl := { s.hl with free := freePages, members := members } }).releaseCore

/-- The firmware's part of the boot, from step 6 to the release. -/
def State.bootFirmware (s : State) (freePages : List (BitVec 33)) (members : List (BitVec 24)) : State :=
  s.bootStore.bootPower.bootRelease freePages members

/-- POWER_ON_BOOT: ROM from deputy reset, with the blocks of program SRAM that fail its test given (14 R318 to R322), then firmware where an image has been accepted and the core has not been
powered since PD_AON reset (R392). -/
def execPowerOnBoot (freePages : List (BitVec 33)) (members : List (BitVec 24)) (s : State) (badBlocks : BitVec 16 := 0) :
    Host.Outcome State Fault Refusal :=
  answer s
    (let bad := (List.range 16).filter (fun b => badBlocks.getLsbD b)
     let t : State := if s.dep.bootStatus = 0 then s.romBoot (bad.map (BitVec.ofNat 4)) else s
     if t.firmware && t.pwr.firstRelease && decide (t.pwr.core = .off) then t.bootFirmware freePages members else t)

/-! ### PD_AON reset (R391) -/

/-- What is outside the block stays: memory behind the memory port, without the scratch window. -/
def Mem.outside (m : Mem) : Mem :=
  { Mem.reset with
    cells := m.cells.filter (fun c => !inScratch c.1), poison := m.poison.filter (fun g => !inScratch (64 * g)) }

/-- Everything is reset, and the straps are sampled again: the build, the pins and memory stay, as do the commands that wait. -/
def State.aonReset (s : State) : State :=
  let b := s.build
  let bound := resetBound b
  let r := State.reset
  let t : State := { r with
    pending := s.pending, free := s.free, build := b, straps := s.straps, mem := s.mem.outside
    core := { r.core with resident := ownedBanks b bound }, bm := { r.bm with bound := bound }
    dep := { r.dep with rom := s.dep.rom }, pwr := { r.pwr with irq := s.pwr.irq }
    hl := { r.hl with lstack := s.straps.nodeId.setWidth 5 } }
  { t with ts := { t.ts with cache16 := BitVec.ofNat 4 t.tsSteps }, mem := { t.mem with tsSets := t.tsSteps * 8192 } }

/-- AON_RESET: AON_RSTn falls (R391). -/
def execAonReset (s : State) : Host.Outcome State Fault Refusal := answer s s.aonReset

end Sys2Proof.Machine
end

