-- ==== Sys2Proof/Machine/DepExec.lean ====
section
/-! DEFINITION. How the deputy executes (14 R302 to R314, R325, R326): registers and flags, data accesses, the stack, entering a vector,
gates of the extension region, and the completion of an instruction or of a delayed pair. -/

namespace Sys2Proof.Machine

/-! ### Registers and flags (R302, R307) -/

/-- A data register's index. -/
def dregFin (r : DReg) : Fin 8 := ⟨r.toNat, r.isLt⟩

/-- A data register. -/
def Deputy.reg (d : Deputy) (r : DReg) : Half := d.d[dregFin r]

/-- Write a data register. -/
def Deputy.setReg (d : Deputy) (r : DReg) (v : Half) : Deputy := { d with d := d.d.set (dregFin r) v }

/-- Write N, Z, C and V. -/
def Deputy.setFlags (d : Deputy) (f : Flags) : Deputy := { d with n := f.n, z := f.z, c := f.c, v := f.v }

/-- The flags word (Table 14.1), with DS as a saved word has it. -/
def Deputy.flagsWord (d : Deputy) (ds : Bool) : Half :=
  BitVec.ofNat 16 (bit d.v + bit d.c * 2 + bit d.z * 4 + bit d.n * 8 + bit d.ie * 16 + bit ds * 64 + d.bank.toNat * 256)

/-- Write the flags word: DS and the reserved bits are ignored (Table 14.1). -/
def Deputy.setFlagsWord (d : Deputy) (w : Half) : Deputy :=
  { d with
    v := w.getLsbD 0, c := w.getLsbD 1, z := w.getLsbD 2, n := w.getLsbD 3, ie := w.getLsbD 4, bank := w.extractLsb' 8 8 }

/-- Replace the deputy. -/
def State.setDep (s : State) (d : Deputy) : State := { s with dep := d }

/-! ### Arithmetic (Table 14.5; R30 in 16 bits, and in 8 for RPT.CMPB) -/

/-- Sum with carry in, and its flags. -/
def addWidth {w : Nat} (a b : BitVec w) (cin : Bool) : BitVec w × Flags :=
  let full := a.toNat + b.toNat + bit cin
  let r := BitVec.ofNat w full
  (r, { n := r.msb, z := r == 0, c := decide (2 ^ w ≤ full), v := a.msb == b.msb && r.msb != a.msb })

/-- N and Z of a result, C and V as given. -/
def halfFlags (r : Half) (c v : Bool) : Flags := { n := r.msb, z := r == 0, c := c, v := v }

/-- A logic result: C and V are cleared. -/
def halfLogic (r : Half) : Half × Flags := (r, halfFlags r false false)

/-- SHL by `k` below 16: C is the last bit out. -/
def halfShl (a : Half) (k : Nat) : Half × Flags := (a <<< k, halfFlags (a <<< k) (k != 0 && a.getLsbD (16 - k)) false)

/-- SHR by `k` below 16. -/
def halfShr (a : Half) (k : Nat) : Half × Flags := (a >>> k, halfFlags (a >>> k) (k != 0 && a.getLsbD (k - 1)) false)

/-- SAR by `k` below 16. -/
def halfSar (a : Half) (k : Nat) : Half × Flags :=
  (a.sshiftRight k, halfFlags (a.sshiftRight k) (k != 0 && a.getLsbD (k - 1)) false)

/-- MUL: the low half, V where the high half is not 0. -/
def halfMul (a b : Half) : Half × Flags := (a * b, halfFlags (a * b) false (decide (2 ^ 16 ≤ a.toNat * b.toNat)))

/-- DIVU: 0xFFFF and V for a divisor of 0 (log 77). -/
def halfDiv (a b : Half) : Half × Flags :=
  let r : Half := if b = 0 then 0xFFFF else a / b
  (r, halfFlags r false (b == 0))

/-- REMU: rd itself and V for a divisor of 0. -/
def halfRem (a b : Half) : Half × Flags :=
  let r : Half := if b = 0 then a else a % b
  (r, halfFlags r false (b == 0))

/-- The branch conditions (R306). -/
def depCond (c : BitVec 3) (d : Deputy) : Bool :=
  match c.toNat with
  | 0 => d.z
  | 1 => !d.z
  | 2 => d.c
  | 3 => !d.c
  | 4 => d.n
  | 5 => !d.n
  | 6 => d.n == d.v
  | _ => d.n != d.v

/-! ### Data accesses (R305, R317) -/

/-- What an access comes to. -/
inductive DepAcc (α : Type) where
  /-- Performed, with what it read. -/
  | ok (s : State) (v : α)
  /-- Refused: the address and the reason. -/
  | refuse (addr : Half) (reason : Nat)
  /-- A stack fault, of a pop or a push (R308). -/
  | stack (pop : Bool)
  /-- It waits for the window. -/
  | wait

/-- The first byte of an access that is refused. -/
def State.dataFault (s : State) (ext write : Bool) (a : Half) (n : Nat) : Option (Half × Nat) :=
  (List.range n).findSome? (fun i =>
    let b : Half := a + BitVec.ofNat 16 i
    (s.byteFault ext write b.toNat).map (fun r => (b, r)))

/-- A byte of the window. -/
def atWindow (a : Half) : Bool := decide (0x8000 ≤ a.toNat)

/-- Read one byte. -/
def State.byteGet (s : State) (a : Half) : State × Nat := if atWindow a then s.winGet a.toNat 1 else (s, (s.dep.sramNat a.toNat 1).1)

/-- Read one or two bytes; at an odd address the two are read apart. -/
def State.dataGet (s : State) (a : Half) (n : Nat) : State × Nat :=
  if n = 1 then s.byteGet a
  else if a.toNat % 2 = 0 then (if atWindow a then s.winGet a.toNat 2 else (s, (s.dep.sramNat a.toNat 2).1))
  else
    let x := s.byteGet a
    let y := x.1.byteGet (a + 1)
    (y.1, x.2 + y.2 * 2 ^ 8)

/-- A load: a window read follows every posted write (R317). -/
def State.dataLoad (s : State) (ext : Bool) (a : Half) (n : Nat) : DepAcc Half :=
  match (if atWindow a || atWindow (a + BitVec.ofNat 16 (n - 1)) then s.flushed else some s) with
  | none => .wait
  | some t =>
    match t.dataFault ext false a n with
    | some f => .refuse f.1 f.2
    | none =>
      let x := t.dataGet a n
      .ok x.1 (BitVec.ofNat 16 x.2)

/-- The window writes that a store posts. -/
def storePosts (ext : Bool) (a : Half) (n v : Nat) : List WinWrite :=
  if n = 2 && atWindow a && atWindow (a + 1) then [{ addr := a, bytes := 2, value := BitVec.ofNat 16 v, secure := !ext }]
  else ((List.range n).filter (fun i => atWindow (a + BitVec.ofNat 16 i))).map (fun i =>
    { addr := a + BitVec.ofNat 16 i, bytes := 1, value := BitVec.ofNat 16 (v / 2 ^ (8 * i) % 2 ^ 8), secure := !ext })

/-- The bytes of data SRAM that a store writes. -/
def Deputy.storeSram (d : Deputy) (a : Half) (n v : Nat) : Deputy :=
  (List.range n).foldl (fun d i =>
    let b : Half := a + BitVec.ofNat 16 i
    if atWindow b then d else d.setSram b.toNat (BitVec.ofNat 8 (v / 2 ^ (8 * i))) false) d

/-- A store: data SRAM at once, the window through its queue of 4, which it waits for while full (R317). What is refused is decided on
the window as the posted writes leave it. -/
def State.dataStore (s : State) (ext : Bool) (a : Half) (n v : Nat) : DepAcc Unit :=
  let posts := storePosts ext a n v
  match (if posts.isEmpty then s else s.foreseen).dataFault ext true a n with
  | some f => .refuse f.1 f.2
  | none =>
    if !posts.isEmpty && decide (4 < s.dep.wqueue.length + posts.length) then .wait
    else
      let d := s.dep.storeSram a n v
      .ok (s.setDep { d with wqueue := d.wqueue ++ posts }) ()

/-! ### The stack (R308) -/

/-- A stack word at this address is a fault. -/
def Deputy.stackBad (d : Deputy) (a : Half) : Bool :=
  a.getLsbD 0 || decide (a.toNat < d.splo.toNat) || decide (d.sphi.toNat < a.toNat + 1)

/-- Push a word. -/
def State.pushWord (s : State) (ext : Bool) (v : Half) : DepAcc Unit :=
  let a := s.dep.sp - 2
  if s.dep.stackBad a then .stack false
  else match s.dataStore ext a 2 v.toNat with
    | .ok t _ => .ok (t.setDep { t.dep with sp := a }) ()
    | x => x

/-- Pop a word. -/
def State.popWord (s : State) (ext : Bool) : DepAcc Half :=
  if s.dep.stackBad s.dep.sp then .stack true
  else match s.dataLoad ext s.dep.sp 2 with
    | .ok t v => .ok (t.setDep { t.dep with sp := t.dep.sp + 2 }) v
    | x => x

/-! ### Entering a vector (R312 to R314) -/

/-- What is saved as the interrupted PC: the branch's address where a pair is abandoned (R310). -/
def Deputy.resumePc (d : Deputy) : Half := (d.pair.map DepPair.addr).getD d.pc

/-- DS of the saved word. -/
def Deputy.resumeDs (d : Deputy) : Bool := d.pair.isSome

/-- The deputy goes on in a vector: IE = 0, and no pair, wait or RETI is left behind. -/
def Deputy.atVector (d : Deputy) (n : Nat) : Deputy :=
  { d with pc := BitVec.ofNat 16 (4 * n), ie := false, pair := none, waiting := false, retiShadow := false }

/-- A stack fault: the shadow takes PC and flags word, and vector 1 is taken without a push; with the shadow full the deputy halts and
the watchdog record is made (R314). -/
def State.stackFault (s : State) (pop : Bool) : State :=
  let d := s.dep
  if d.shValid then s.watchdog 2 none
  else s.setDep ({ d with shpc := d.resumePc, shfl := d.flagsWord d.resumeDs, shValid := true, shPop := pop }.atVector 1)

/-- Entry to a vector with the saved PC and DS: both pushes are checked first (R308, R314). Beyond data SRAM a pushed word is written to
the window at once (log 78). -/
def State.enterVector (s : State) (n : Nat) (pc : Half) (ds : Bool) : State :=
  let d := s.dep
  let a := d.sp - 2
  let b := d.sp - 4
  if d.stackBad a || d.stackBad b then
    if d.shValid then s.watchdog 2 none
    else s.setDep ({ d with shpc := pc, shfl := d.flagsWord ds, shValid := true, shPop := false }.atVector 1)
  else
    let t : State := (s.writeBytes true a.toNat 2 pc.toNat 2).writeBytes true b.toNat 2 (d.flagsWord ds).toNat 2
    t.setDep ({ t.dep with sp := b }.atVector n)

/-- A synchronous vector of the instruction at PC, or of the pair (R310, R312). -/
def State.syncVector (s : State) (n : Nat) : State := s.enterVector n s.dep.resumePc s.dep.resumeDs

/-- DFINFO (Table 14.9). -/
def faultInfo (reason : Nat) (write fetch ds : Bool) : BitVec 6 :=
  BitVec.ofNat 6 (reason % 8 + bit write * 8 + bit fetch * 16 + bit ds * 32)

/-- An access fault: DFADDR, DFINFO, vector 3. -/
def State.accessFault (s : State) (addr : Half) (reason : Nat) (write fetch : Bool) : State :=
  (s.setDep { s.dep with dfaddr := addr, dfinfo := faultInfo reason write fetch s.dep.resumeDs }).syncVector 3

/-- An asynchronous vector may be taken now: the lowest that is pending and enabled (R312). -/
def Deputy.asyncVector (d : Deputy) : Option Nat :=
  if d.halted || !d.ie || d.retiShadow then none
  else (List.range 15).find? (fun n => decide (4 ≤ n) && (d.ipend &&& d.iena).getLsbD n)

/-! ### The extension region's gates (R325, R326) -/

/-- The address lies in the extension region. -/
def inExt (a : Half) : Bool := decide (0x3800 ≤ a.toNat) && decide (a.toNat < 0x4000)

/-- How control passes. -/
inductive Transfer where
  /-- A jump, a branch, or the next word. -/
  | plain
  /-- A call with its return address. -/
  | call (ret : Half)
  /-- RET or RET.D. -/
  | ret
  /-- RETI. -/
  | reti
  deriving DecidableEq, Repr

/-- Control may pass from one address to another (R326). -/
def Deputy.gate (d : Deputy) (src dst : Half) (k : Transfer) : Bool :=
  match inExt src, inExt dst with
  | false, true =>
    match k with
    | .call _ => d.extEn && dst == 0x3800
    | .reti => true
    | _ => false
  | true, false =>
    match k with
    | .ret => dst == d.extgate
    | _ => false
  | _, _ => true

/-- PC := the target; EXTGATE records the return address where a call enters the region (R326). -/
def Deputy.goTo (d : Deputy) (src dst : Half) (k : Transfer) : Deputy :=
  let d : Deputy := { d with pc := dst, pair := none, retiShadow := decide (k = .reti) }
  match k with
  | .call ret => if !inExt src && inExt dst then { d with extgate := ret } else d
  | _ => d

/-! ### Completion (R310) -/

/-- What an instruction comes to. -/
inductive DepRes where
  /-- Done; the next word follows. -/
  | next (s : State)
  /-- Done; control passes. -/
  | go (s : State) (target : Half) (k : Transfer)
  /-- A delayed branch: its slot follows. -/
  | delayed (p : DepPair)
  /-- Stopped between two elements of a RPT: PC stays. -/
  | stay (s : State)
  /-- An undefined instruction. -/
  | undefined
  /-- A refused access, from this state. -/
  | access (s : State) (addr : Half) (reason : Nat) (write : Bool)
  /-- A stack fault. -/
  | stack (pop : Bool)
  /-- SWI. -/
  | soft
  /-- It waits for the window; nothing changes. -/
  | wait

/-- Go on with a performed access. -/
def DepAcc.run {α : Type} (x : DepAcc α) (s : State) (write : Bool) (k : State → α → DepRes) : DepRes :=
  match x with
  | .ok t v => k t v
  | .refuse a r => .access s a r write
  | .stack pop => .stack pop
  | .wait => .wait

/-- Pass control after the work that led to `t`, or take vector 3 with reason 5 from `s` (R326, log 79). -/
def State.passTo (s t : State) (src dst : Half) (k : Transfer) : State :=
  if s.dep.gate src dst k then t.setDep (t.dep.goTo src dst k) else s.accessFault dst 5 false true

/-- The branch's effects after its slot: its push or pop, then its change of PC; the pair commits whole, or not at all (R310). -/
def State.finishPair (s t : State) (p : DepPair) : State :=
  let ext := inExt p.addr
  if p.pop then
    match t.popWord ext with
    | .ok u v => s.passTo u p.addr v .ret
    | .refuse a r => s.accessFault a r false false
    | .stack _ => s.stackFault true
    | .wait => s
  else if p.push then
    match t.pushWord ext (p.addr + 2) with
    | .ok u _ => s.passTo u p.addr p.target (.call (p.addr + 2))
    | .refuse a r => s.accessFault a r true false
    | .stack _ => s.stackFault false
    | .wait => s
  else s.passTo t p.addr p.target .plain

/-- Complete an instruction that began in `s`. -/
def State.complete (s : State) (r : DepRes) : State :=
  let pc := s.dep.pc
  match r with
  | .next t =>
    match s.dep.pair with
    | some p => s.finishPair t p
    | none => s.passTo t pc (pc + 1) .plain
  | .go t target k => s.passTo t pc target k
  | .delayed p =>
    if s.dep.gate pc (pc + 1) .plain then s.setDep { s.dep with pc := pc + 1, pair := some p } else s.accessFault (pc + 1) 5 false true
  | .stay t => t
  | .undefined => s.syncVector 2
  | .access t addr reason write => t.accessFault addr reason write false
  | .stack pop => s.stackFault pop
  | .soft => s.enterVector 15 (pc + 1) false
  | .wait => s

/-- The address is a hole of program memory (Table 14.2). -/
def progHole (a : Half) : Bool :=
  (decide (0x4000 ≤ a.toNat) && decide (a.toNat < 0x8000)) || decide (0x9000 ≤ a.toNat)

/-- The word at PC is in parity error (R304). -/
def Deputy.fetchBad (d : Deputy) : Bool := decide (d.pc.toNat < 0x4000) && nsMem (d.progKey d.pc.toNat) d.progBad

/-- Execute the instruction at PC: the fetch, what a slot forbids (R310), then the instruction's own work. -/
def State.execute (s : State) (slot : Bool) (f : Bool → State → DepRes) : State :=
  let d := s.dep
  if progHole d.pc then s.accessFault d.pc 1 false true
  else if d.fetchBad then s.watchdog 3 (some (BitVec.ofNat 4 (d.pc.toNat / 1024)))
  else if d.pair.isSome && !slot then s.syncVector 2
  else s.complete (f (inExt d.pc) s)

/-- An instruction of the deputy issues unless the deputy has stopped, or waits for a vector (R306, R318). -/
def State.depIssue (s : State) (slot : Bool) (f : Bool → State → DepRes) : Host.Outcome State Fault Refusal :=
  answer s
    (if s.dep.halted || (s.dep.waiting && decide (s.dep.ipend &&& s.dep.iena = 0)) then s
     else (s.setDep { s.dep with waiting := false }).execute slot f)

/-! ### Shared forms -/

/-- The flags and result of an RR operation. -/
def rrForm (rd rs : DReg) (rsv : BitVec 1) (write : Bool) (op : Deputy → Half → Half → Half × Flags) (s : State) : DepRes :=
  if rsv ≠ 0 then .undefined
  else
    let d := s.dep
    let x := op d (d.reg rd) (d.reg rs)
    let e := d.setFlags x.2
    .next (s.setDep (if write then e.setReg rd x.1 else e))

/-- How an indirect access forms its address (Table 14.5): the address, and the register afterwards; none for a reserved mode. -/
def memMode (mode : BitVec 2) (a : Half) (size : Nat) : Option (Half × Half) :=
  match mode.toNat with
  | 0 => some (a, a)
  | 1 => some (a, a + BitVec.ofNat 16 size)
  | 2 => some (a - BitVec.ofNat 16 size, a - BitVec.ofNat 16 size)
  | _ => none

/-- LDW and LDB: a mode that changes the register loaded is reserved. -/
def loadForm (rd ra : DReg) (mode : BitVec 2) (size : Nat) (ext : Bool) (s : State) : DepRes :=
  match memMode mode (s.dep.reg ra) size with
  | none => .undefined
  | some m =>
    if mode ≠ 0 ∧ rd = ra then .undefined
    else (s.dataLoad ext m.1 size).run s false fun t v => .next (t.setDep ((t.dep.setReg ra m.2).setReg rd v))

/-- STW and STB: the value stored is rd as it was before (log 80). -/
def storeForm (rd ra : DReg) (mode : BitVec 2) (size : Nat) (ext : Bool) (s : State) : DepRes :=
  match memMode mode (s.dep.reg ra) size with
  | none => .undefined
  | some m => (s.dataStore ext m.1 size (s.dep.reg rd).toNat).run s true fun t _ => .next (t.setDep (t.dep.setReg ra m.2))

/-- A jump or a delayed one. -/
def jumpForm (d : Bool) (target : Half) (s : State) : DepRes :=
  if d then .delayed { addr := s.dep.pc, target := target, push := false, pop := false } else .go s target .plain

/-- A call: the ordinary form pushes its address + 1, the delayed form its address + 2 after the slot (R306, R310). -/
def callForm (d : Bool) (target : Half) (ext : Bool) (s : State) : DepRes :=
  if d then .delayed { addr := s.dep.pc, target := target, push := true, pop := false }
  else (s.pushWord ext (s.dep.pc + 1)).run s true fun t _ => .go t target (.call (s.dep.pc + 1))

/-! ### RPT (R309) -/

/-- The element operations. -/
inductive RptOp where
  | mov
  | fill
  | cmp
  deriving DecidableEq, Repr

/-- A register that RPT steps. -/
def Deputy.stepReg (d : Deputy) (r : DReg) (size : Nat) : Deputy := d.setReg r (d.reg r + BitVec.ofNat 16 size)

/-- One element left fewer. -/
def Deputy.oneLess (d : Deputy) : Deputy := d.setReg 7 (d.reg 7 - 1)

/-- What an element comes to: performed, a difference found, or an end of the RPT. -/
inductive RptStep where
  | more (s : State)
  | differs (s : State)
  | ends (r : DepRes)

/-- An access within an element. -/
def DepAcc.element {α : Type} (x : DepAcc α) (s : State) (write : Bool) (k : State → α → RptStep) : RptStep :=
  match x with
  | .ok t v => k t v
  | .refuse a r => .ends (.access s a r write)
  | _ => .ends (.stay s)

/-- The flags of an element's comparison, in its size. -/
def cmpFlags (size : Nat) (a b : Half) : Flags :=
  if size = 1 then (addWidth (a.setWidth 8) (~~~(b.setWidth 8)) true).2 else (addWidth a (~~~b) true).2

/-- One element, whole or not at all. -/
def rptElement (op : RptOp) (size : Nat) (ext : Bool) (s : State) : RptStep :=
  match op with
  | .mov =>
    (s.dataLoad ext (s.dep.reg 6) size).element s false fun t v =>
      (t.dataStore ext (t.dep.reg 5) size v.toNat).element s true fun u _ =>
        .more (u.setDep (((u.dep.stepReg 6 size).stepReg 5 size).oneLess))
  | .fill =>
    (s.dataStore ext (s.dep.reg 5) size ((s.dep.reg 0).toNat % 2 ^ (8 * size))).element s true fun t _ =>
      .more (t.setDep ((t.dep.stepReg 5 size).oneLess))
  | .cmp =>
    (s.dataLoad ext (s.dep.reg 6) size).element s false fun t a =>
      (t.dataLoad ext (t.dep.reg 5) size).element s false fun u b =>
        let d := u.dep.setFlags (cmpFlags size a b)
        if a = b then .more (u.setDep (((d.stepReg 6 size).stepReg 5 size).oneLess)) else .differs (u.setDep d)

/-- The flags of a comparison that runs out. -/
def ranOut : Flags := { n := false, z := true, c := true, v := false }

/-- The elements that remain: it stops between two where an asynchronous vector is to be taken. The fuel bounds them by D7. -/
def rptLoop (op : RptOp) (size : Nat) (ext : Bool) : Nat → State → DepRes
  | 0, s => .stay s
  | fuel + 1, s =>
    if s.dep.reg 7 = 0 then .next (if op = .cmp then s.setDep (s.dep.setFlags ranOut) else s)
    else if s.dep.asyncVector.isSome then .stay s
    else
      match rptElement op size ext s with
      | .more t => rptLoop op size ext fuel t
      | .differs t => .next t
      | .ends r => r

/-- RPT over the elements that D7 counts. -/
def rptForm (op : RptOp) (size : Nat) (ext : Bool) (s : State) : DepRes := rptLoop op size ext ((s.dep.reg 7).toNat + 1) s

end Sys2Proof.Machine
end

