-- ==== Sys2Proof/Machine/DepInstr.lean ====
section
/-! DEFINITION. The deputy's instructions (14 R306 to R310, Tables 14.4 and 14.5) and the entry to its asynchronous vectors (R312, R313).
Each command executes the instruction it names at PC. -/

namespace Sys2Proof.Machine

/-! ### RR -/

/-- DEPUTY_MOV: rd := rs; the flags stay. -/
def execDeputyMov (rd rs : DReg) (rsv : BitVec 1) (s : State) : Host.Outcome State Fault Refusal :=
  s.depIssue true fun _ s => rrForm rd rs rsv true (fun d _ b => (b, { n := d.n, z := d.z, c := d.c, v := d.v })) s

/-- DEPUTY_ADD. -/
def execDeputyAdd (rd rs : DReg) (rsv : BitVec 1) (s : State) : Host.Outcome State Fault Refusal :=
  s.depIssue true fun _ s => rrForm rd rs rsv true (fun _ a b => addWidth a b false) s

/-- DEPUTY_ADC. -/
def execDeputyAdc (rd rs : DReg) (rsv : BitVec 1) (s : State) : Host.Outcome State Fault Refusal :=
  s.depIssue true fun _ s => rrForm rd rs rsv true (fun d a b => addWidth a b d.c) s

/-- DEPUTY_SUB. -/
def execDeputySub (rd rs : DReg) (rsv : BitVec 1) (s : State) : Host.Outcome State Fault Refusal :=
  s.depIssue true fun _ s => rrForm rd rs rsv true (fun _ a b => addWidth a (~~~b) true) s

/-- DEPUTY_SBC. -/
def execDeputySbc (rd rs : DReg) (rsv : BitVec 1) (s : State) : Host.Outcome State Fault Refusal :=
  s.depIssue true fun _ s => rrForm rd rs rsv true (fun d a b => addWidth a (~~~b) d.c) s

/-- CMP: SUB without a write. -/
def execCmp (rd rs : DReg) (rsv : BitVec 1) (s : State) : Host.Outcome State Fault Refusal :=
  s.depIssue true fun _ s => rrForm rd rs rsv false (fun _ a b => addWidth a (~~~b) true) s

/-- DEPUTY_AND. -/
def execDeputyAnd (rd rs : DReg) (rsv : BitVec 1) (s : State) : Host.Outcome State Fault Refusal :=
  s.depIssue true fun _ s => rrForm rd rs rsv true (fun _ a b => halfLogic (a &&& b)) s

/-- DEPUTY_OR. -/
def execDeputyOr (rd rs : DReg) (rsv : BitVec 1) (s : State) : Host.Outcome State Fault Refusal :=
  s.depIssue true fun _ s => rrForm rd rs rsv true (fun _ a b => halfLogic (a ||| b)) s

/-- DEPUTY_XOR. -/
def execDeputyXor (rd rs : DReg) (rsv : BitVec 1) (s : State) : Host.Outcome State Fault Refusal :=
  s.depIssue true fun _ s => rrForm rd rs rsv true (fun _ a b => halfLogic (a ^^^ b)) s

/-- TST: AND without a write. -/
def execTst (rd rs : DReg) (rsv : BitVec 1) (s : State) : Host.Outcome State Fault Refusal :=
  s.depIssue true fun _ s => rrForm rd rs rsv false (fun _ a b => halfLogic (a &&& b)) s

/-- DEPUTY_SHL: by rs[3:0]. -/
def execDeputyShl (rd rs : DReg) (rsv : BitVec 1) (s : State) : Host.Outcome State Fault Refusal :=
  s.depIssue true fun _ s => rrForm rd rs rsv true (fun _ a b => halfShl a (b.toNat % 16)) s

/-- DEPUTY_SHR. -/
def execDeputyShr (rd rs : DReg) (rsv : BitVec 1) (s : State) : Host.Outcome State Fault Refusal :=
  s.depIssue true fun _ s => rrForm rd rs rsv true (fun _ a b => halfShr a (b.toNat % 16)) s

/-- DEPUTY_SAR. -/
def execDeputySar (rd rs : DReg) (rsv : BitVec 1) (s : State) : Host.Outcome State Fault Refusal :=
  s.depIssue true fun _ s => rrForm rd rs rsv true (fun _ a b => halfSar a (b.toNat % 16)) s

/-- DEPUTY_MUL. -/
def execDeputyMul (rd rs : DReg) (rsv : BitVec 1) (s : State) : Host.Outcome State Fault Refusal :=
  s.depIssue true fun _ s => rrForm rd rs rsv true (fun _ a b => halfMul a b) s

/-- DEPUTY_DIVU. -/
def execDeputyDivu (rd rs : DReg) (rsv : BitVec 1) (s : State) : Host.Outcome State Fault Refusal :=
  s.depIssue true fun _ s => rrForm rd rs rsv true (fun _ a b => halfDiv a b) s

/-- DEPUTY_REMU. -/
def execDeputyRemu (rd rs : DReg) (rsv : BitVec 1) (s : State) : Host.Outcome State Fault Refusal :=
  s.depIssue true fun _ s => rrForm rd rs rsv true (fun _ a b => halfRem a b) s

/-! ### IMM and DIR -/

/-- MOVL: rd := zext(imm8). -/
def execMovl (rd : DReg) (imm : BitVec 8) (s : State) : Host.Outcome State Fault Refusal :=
  s.depIssue true fun _ s => .next (s.setDep (s.dep.setReg rd (imm.setWidth 16)))

/-- MOVH: rd[15:8] := imm8, rd[7:0] kept. -/
def execMovh (rd : DReg) (imm : BitVec 8) (s : State) : Host.Outcome State Fault Refusal :=
  s.depIssue true fun _ s => .next (s.setDep (s.dep.setReg rd (imm ++ (s.dep.reg rd).setWidth 8)))

/-- DEPUTY_ADDI: rd := rd + sext(imm8), flags as ADD. -/
def execDeputyAddi (rd : DReg) (imm : BitVec 8) (s : State) : Host.Outcome State Fault Refusal :=
  s.depIssue true fun _ s =>
    let x := addWidth (s.dep.reg rd) (imm.signExtend 16) false
    .next (s.setDep ((s.dep.setFlags x.2).setReg rd x.1))

/-- DEPUTY_LD: 16 bits at BANK·256 + d8 (R305). -/
def execDeputyLd (rd : DReg) (d8 : BitVec 8) (s : State) : Host.Outcome State Fault Refusal :=
  s.depIssue true fun ext s =>
    (s.dataLoad ext (s.dep.bank ++ d8) 2).run s false fun t v => .next (t.setDep (t.dep.setReg rd v))

/-- DEPUTY_ST. -/
def execDeputySt (rd : DReg) (d8 : BitVec 8) (s : State) : Host.Outcome State Fault Refusal :=
  s.depIssue true fun ext s => (s.dataStore ext (s.dep.bank ++ d8) 2 (s.dep.reg rd).toNat).run s true fun t _ => .next t

/-! ### MEM -/

/-- LDW. -/
def execLdw (rd ra : DReg) (mode : BitVec 2) (s : State) : Host.Outcome State Fault Refusal :=
  s.depIssue true fun ext s => loadForm rd ra mode 2 ext s

/-- LDB: the byte is zero-extended. -/
def execLdb (rd ra : DReg) (mode : BitVec 2) (s : State) : Host.Outcome State Fault Refusal :=
  s.depIssue true fun ext s => loadForm rd ra mode 1 ext s

/-- STW. -/
def execStw (rd ra : DReg) (mode : BitVec 2) (s : State) : Host.Outcome State Fault Refusal :=
  s.depIssue true fun ext s => storeForm rd ra mode 2 ext s

/-- STB. -/
def execStb (rd ra : DReg) (mode : BitVec 2) (s : State) : Host.Outcome State Fault Refusal :=
  s.depIssue true fun ext s => storeForm rd ra mode 1 ext s

/-- PUSH: ra and mode are reserved (R308). -/
def execPush (rd : DReg) (rsvRa : BitVec 3) (rsvMode : BitVec 2) (s : State) : Host.Outcome State Fault Refusal :=
  s.depIssue true fun ext s =>
    if rsvRa ≠ 0 ∨ rsvMode ≠ 0 then .undefined else (s.pushWord ext (s.dep.reg rd)).run s true fun t _ => .next t

/-- POP. -/
def execPop (rd : DReg) (rsvRa : BitVec 3) (rsvMode : BitVec 2) (s : State) : Host.Outcome State Fault Refusal :=
  s.depIssue true fun ext s =>
    if rsvRa ≠ 0 ∨ rsvMode ≠ 0 then .undefined
    else (s.popWord ext).run s false fun t v => .next (t.setDep (t.dep.setReg rd v))

/-- SPECIAL_MOVE_GET_SP. -/
def execSpecialMoveGetSp (rd : DReg) (rsvMode : BitVec 2) (s : State) : Host.Outcome State Fault Refusal :=
  s.depIssue true fun _ s => if rsvMode ≠ 0 then .undefined else .next (s.setDep (s.dep.setReg rd s.dep.sp))

/-- SPECIAL_MOVE_SET_SP: not in a slot (R310). -/
def execSpecialMoveSetSp (rd : DReg) (rsvMode : BitVec 2) (s : State) : Host.Outcome State Fault Refusal :=
  s.depIssue false fun _ s => if rsvMode ≠ 0 then .undefined else .next (s.setDep { s.dep with sp := s.dep.reg rd })

/-- SPECIAL_MOVE_GET_FLAGS. -/
def execSpecialMoveGetFlags (rd : DReg) (rsvMode : BitVec 2) (s : State) : Host.Outcome State Fault Refusal :=
  s.depIssue true fun _ s => if rsvMode ≠ 0 then .undefined else .next (s.setDep (s.dep.setReg rd (s.dep.flagsWord false)))

/-- SPECIAL_MOVE_SET_FLAGS. -/
def execSpecialMoveSetFlags (rd : DReg) (rsvMode : BitVec 2) (s : State) : Host.Outcome State Fault Refusal :=
  s.depIssue true fun _ s => if rsvMode ≠ 0 then .undefined else .next (s.setDep (s.dep.setFlagsWord (s.dep.reg rd)))

/-- SPECIAL_MOVE_GET_BANK. -/
def execSpecialMoveGetBank (rd : DReg) (rsvMode : BitVec 2) (s : State) : Host.Outcome State Fault Refusal :=
  s.depIssue true fun _ s => if rsvMode ≠ 0 then .undefined else .next (s.setDep (s.dep.setReg rd (s.dep.bank.setWidth 16)))

/-- SPECIAL_MOVE_SET_BANK. -/
def execSpecialMoveSetBank (rd : DReg) (rsvMode : BitVec 2) (s : State) : Host.Outcome State Fault Refusal :=
  s.depIssue true fun _ s => if rsvMode ≠ 0 then .undefined else .next (s.setDep { s.dep with bank := (s.dep.reg rd).setWidth 8 })

/-! ### Branches (R306, R310) -/

/-- BCC: PC + sext(off6) where the condition holds, which is read at the branch (log 81). -/
def execBcc (cond : BitVec 3) (d : Bool) (off : BitVec 6) (s : State) : Host.Outcome State Fault Refusal :=
  s.depIssue false fun _ s =>
    let pc := s.dep.pc
    if depCond cond s.dep then jumpForm d (pc + off.signExtend 16) s
    else if d then jumpForm true (pc + 2) s
    else .next s

/-- JMP rs. -/
def execJmp (d : Bool) (rs : DReg) (rsv : BitVec 3) (s : State) : Host.Outcome State Fault Refusal :=
  s.depIssue false fun _ s => if rsv ≠ 0 then .undefined else jumpForm d (s.dep.reg rs) s

/-- DEPUTY_CALL: CALL rs. -/
def execDeputyCall (d : Bool) (rs : DReg) (rsv : BitVec 3) (s : State) : Host.Outcome State Fault Refusal :=
  s.depIssue false fun ext s => if rsv ≠ 0 then .undefined else callForm d (s.dep.reg rs) ext s

/-- BRA: PC + sext(off7). -/
def execBra (d : Bool) (off : BitVec 7) (s : State) : Host.Outcome State Fault Refusal :=
  s.depIssue false fun _ s => jumpForm d (s.dep.pc + off.signExtend 16) s

/-- DEPUTY_CALLR: call PC + sext(off7). -/
def execDeputyCallr (d : Bool) (off : BitVec 7) (s : State) : Host.Outcome State Fault Refusal :=
  s.depIssue false fun ext s => callForm d (s.dep.pc + off.signExtend 16) ext s

/-! ### SYS -/

/-- NOP. -/
def execNop (s : State) : Host.Outcome State Fault Refusal := s.depIssue true fun _ s => .next s

/-- DEPUTY_RET: PC := pop. -/
def execDeputyRet (s : State) : Host.Outcome State Fault Refusal :=
  s.depIssue false fun ext s => (s.popWord ext).run s false fun t v => .go t v .ret

/-- RET_D: the pop follows the slot (R310). -/
def execRetD (s : State) : Host.Outcome State Fault Refusal :=
  s.depIssue false fun _ s => .delayed { addr := s.dep.pc, target := 0, push := false, pop := true }

/-- RETI: flags word := pop, then PC := pop. -/
def execReti (s : State) : Host.Outcome State Fault Refusal :=
  s.depIssue false fun ext s =>
    (s.popWord ext).run s false fun t w =>
      (t.popWord ext).run s false fun u v => .go (u.setDep (u.dep.setFlagsWord w)) v .reti

/-- EI. -/
def execEi (s : State) : Host.Outcome State Fault Refusal := s.depIssue false fun _ s => .next (s.setDep { s.dep with ie := true })

/-- DI. -/
def execDi (s : State) : Host.Outcome State Fault Refusal := s.depIssue false fun _ s => .next (s.setDep { s.dep with ie := false })

/-- DEPUTY_WAIT: issue stops until a vector enabled in IENA is pending. -/
def execDeputyWait (s : State) : Host.Outcome State Fault Refusal :=
  s.depIssue false fun _ s => .next (s.setDep { s.dep with waiting := true })

/-- RPT_MOVW (R309). -/
def execRptMovw (s : State) : Host.Outcome State Fault Refusal := s.depIssue false fun ext s => rptForm .mov 2 ext s

/-- RPT_MOVB. -/
def execRptMovb (s : State) : Host.Outcome State Fault Refusal := s.depIssue false fun ext s => rptForm .mov 1 ext s

/-- RPT_FILLW. -/
def execRptFillw (s : State) : Host.Outcome State Fault Refusal := s.depIssue false fun ext s => rptForm .fill 2 ext s

/-- RPT_FILLB. -/
def execRptFillb (s : State) : Host.Outcome State Fault Refusal := s.depIssue false fun ext s => rptForm .fill 1 ext s

/-- RPT_CMPW. -/
def execRptCmpw (s : State) : Host.Outcome State Fault Refusal := s.depIssue false fun ext s => rptForm .cmp 2 ext s

/-- RPT_CMPB. -/
def execRptCmpb (s : State) : Host.Outcome State Fault Refusal := s.depIssue false fun ext s => rptForm .cmp 1 ext s

/-- SWI: vector 15, to return to the next instruction (log 82). -/
def execSwi (s : State) : Host.Outcome State Fault Refusal := s.depIssue false fun _ _ => .soft

/-! ### Interrupts -/

/-- INTERRUPT_ENTRY: the lowest vector that is pending and enabled, while IE = 1; a delayed pair whose slot has not executed is abandoned
(R310, R312, R313). -/
def execInterruptEntry (s : State) : Host.Outcome State Fault Refusal :=
  answer s
    (match s.dep.asyncVector with
     | some n => s.enterVector n s.dep.resumePc s.dep.resumeDs
     | none => s)

end Sys2Proof.Machine
end

