-- ==== Sys2Proof/Machine/Fp.lean ====
section
/-! DEFINITION. Floating-point instructions (02 R36 to R39): F64, F32 and BF16 in the general registers. -/

namespace Sys2Proof.Machine

/-- The major opcode of a format (Table 2.4). -/
def fpOpcode : FpFormat → Nat
  | .f64 => 0x14
  | .f32 => 0x15
  | .bf16 => 0x16

/-- The operand bits of a format in a register; the upper bits are ignored (R25). -/
def fpBits (p : FpFormat) (w : Word) : Nat := w.toNat % 2 ^ (fpParams p).width

/-- The datum of a format in a register. -/
def fpOperand (p : FpFormat) (w : Word) : Fp := fpDecode (fpParams p) (fpBits p w)

/-- FPSTAT with the exceptions raised added (R36). -/
def State.raiseFp (s : State) (x : FpExc) : State :=
  { s with core := { s.core with fpstat := s.core.fpstat ||| x.bits } }

/-- The rounding mode in force, FPCTL.RM (R36). -/
def State.rounding (s : State) : Rounding := roundingOf s.core.fprm

/-- rd := a floating-point result of format `p`, its upper bits clear (R25), with FL by R37. -/
def State.putFp (s : State) (p : FpFormat) (rd : RegIx) (r : FpResult) : IRes :=
  .done (((s.writeG rd (wd r.bits)).setFl (fpFlags (fpParams p) r.bits r.exc.nx)).raiseFp r.exc)

/-- A two-operand operation (Table 2.9). -/
def fpBinary (func : Nat) (p : FpFormat) (rd ra rb rsv : RegIx) (f : FpParams → Rounding → Fp → Fp → FpResult)
    (s : State) : Host.Outcome State Fault Refusal :=
  s.issue fun s => guardRsv (rsv == 0) (encR6 (fpOpcode p) rd ra rb func rsv) s
    (s.putFp p rd (f (fpParams p) s.rounding (fpOperand p (s.readG ra)) (fpOperand p (s.readG rb))))

/-- FMIN and FMAX (Table 2.9). -/
def fpSelect (func : Nat) (isMax : Bool) (p : FpFormat) (rd ra rb rsv : RegIx) (s : State) :
    Host.Outcome State Fault Refusal :=
  s.issue fun s => guardRsv (rsv == 0) (encR6 (fpOpcode p) rd ra rb func rsv) s
    (s.putFp p rd (fpMinMax (fpParams p) isMax (fpBits p (s.readG ra)) (fpBits p (s.readG rb))))

/-- FNEG and FABS: only the sign bit changes, and no exception is raised (R36). -/
def fpSignOp (func : Nat) (p : FpFormat) (rd ra rb rsv : RegIx) (f : Nat → Nat → Nat) (s : State) :
    Host.Outcome State Fault Refusal :=
  s.issue fun s => guardRsv (rsv == 0) (encR6 (fpOpcode p) rd ra rb func rsv) s
    (s.putFp p rd { bits := f (2 ^ ((fpParams p).width - 1)) (fpBits p (s.readG ra)) })

/-- A conversion between formats (Table 2.9). -/
def fpConvertOp (func : Nat) (dst p : FpFormat) (rd ra rb rsv : RegIx) (s : State) : Host.Outcome State Fault Refusal :=
  s.issue fun s => guardRsv (rsv == 0) (encR6 (fpOpcode p) rd ra rb func rsv) s
    (s.putFp dst rd (fpConvert (fpParams dst) s.rounding (fpOperand p (s.readG ra))))

/-- The flags of FCVTI and FCVTU: N and Z from the integer, C from inexactness, V where invalid (R38). -/
def intFlags (r : Word) (invalid inexact : Bool) : Flags := { n := r.msb, z := r == 0, c := inexact, v := invalid }

/-- A conversion to an integer (R38); with the flag func[6] it rounds toward zero. -/
def fpToIntOp (func : Nat) (lo hi : Int) (p : FpFormat) (rd ra rb : RegIx) (rtz : Bool) (rsv : BitVec 4) (s : State) :
    Host.Outcome State Fault Refusal :=
  s.issue fun s =>
    guardRsv (rsv == 0) (encR (fpOpcode p) rd ra rb (rsv.toNat * 128 + bit rtz * 64 + func)) s
      (let rm := if rtz then .zero else s.rounding
       let (v, nv, nx) := fpToInt rm lo hi (fpOperand p (s.readG ra))
       let r := BitVec.ofInt 64 v
       .done (((s.writeG rd r).setFl (intFlags r nv nx)).raiseFp { nv := nv, nx := nx }))

/-- A conversion from an integer (Table 2.9). -/
def fpOfIntOp (func : Nat) (signed : Bool) (p : FpFormat) (rd ra rb rsv : RegIx) (s : State) :
    Host.Outcome State Fault Refusal :=
  s.issue fun s => guardRsv (rsv == 0) (encR6 (fpOpcode p) rd ra rb func rsv) s
    (let v : Int := if signed then (s.readG ra).toInt else (s.readG ra).toNat
     s.putFp p rd (fpOfInt (fpParams p) s.rounding v))

/-- FADD (R38). -/
def execFadd (p : FpFormat) (rd ra rb rsv : RegIx) (s : State) : Host.Outcome State Fault Refusal :=
  fpBinary 0x00 p rd ra rb rsv fpAdd s

/-- FSUB (R38). -/
def execFsub (p : FpFormat) (rd ra rb rsv : RegIx) (s : State) : Host.Outcome State Fault Refusal :=
  fpBinary 0x01 p rd ra rb rsv (fun q rm a b => fpAdd q rm a b.flip) s

/-- FMUL (R38). -/
def execFmul (p : FpFormat) (rd ra rb rsv : RegIx) (s : State) : Host.Outcome State Fault Refusal :=
  fpBinary 0x02 p rd ra rb rsv fpMul s

/-- FDIV (R38). -/
def execFdiv (p : FpFormat) (rd ra rb rsv : RegIx) (s : State) : Host.Outcome State Fault Refusal :=
  fpBinary 0x03 p rd ra rb rsv fpDiv s

/-- FSQRT: the rb field is reserved (Table 2.9). -/
def execFsqrt (p : FpFormat) (rd ra rb rsv : RegIx) (s : State) : Host.Outcome State Fault Refusal :=
  s.issue fun s => guardRsv (rsv == 0 && rb == 0) (encR6 (fpOpcode p) rd ra rb 0x04 rsv) s
    (s.putFp p rd (fpSqrt (fpParams p) s.rounding (fpOperand p (s.readG ra))))

/-- FMIN: minimumNumber (R38). -/
def execFmin (p : FpFormat) (rd ra rb rsv : RegIx) (s : State) : Host.Outcome State Fault Refusal :=
  fpSelect 0x05 false p rd ra rb rsv s

/-- FMAX: maximumNumber (R38). -/
def execFmax (p : FpFormat) (rd ra rb rsv : RegIx) (s : State) : Host.Outcome State Fault Refusal :=
  fpSelect 0x06 true p rd ra rb rsv s

/-- FCMP: FL by the relation; a signalling NaN raises invalid, a quiet one as the open choice says (R37, log 15). The rd
field is reserved (Table 2.9). -/
def execFcmp (p : FpFormat) (rd ra rb rsv : RegIx) (s : State) : Host.Outcome State Fault Refusal :=
  s.issue fun s => guardRsv (rsv == 0 && rd == 0) (encR6 (fpOpcode p) rd ra rb 0x07 rsv) s
    (let a := fpOperand p (s.readG ra)
     let b := fpOperand p (s.readG rb)
     let nv := a.isSnan || b.isSnan || ((a.isNan || b.isNan) && Config.fcmpQuietInvalid)
     .done ((s.setFl (compareFlags (fpCompare a b))).raiseFp { nv := nv }))

/-- FNEG: the sign bit inverted (R36). -/
def execFneg (p : FpFormat) (rd ra rb rsv : RegIx) (s : State) : Host.Outcome State Fault Refusal :=
  fpSignOp 0x08 p rd ra rb rsv (fun top x => if x < top then x + top else x - top) s

/-- FABS: the sign bit cleared (R36). -/
def execFabs (p : FpFormat) (rd ra rb rsv : RegIx) (s : State) : Host.Outcome State Fault Refusal :=
  fpSignOp 0x09 p rd ra rb rsv (fun top x => x % top) s

/-- FCVT.F64 (R38). -/
def execFcvtF64 (p : FpFormat) (rd ra rb rsv : RegIx) (s : State) : Host.Outcome State Fault Refusal :=
  fpConvertOp 0x10 .f64 p rd ra rb rsv s

/-- FCVT.F32 (R38). -/
def execFcvtF32 (p : FpFormat) (rd ra rb rsv : RegIx) (s : State) : Host.Outcome State Fault Refusal :=
  fpConvertOp 0x11 .f32 p rd ra rb rsv s

/-- FCVT.BF16 (R38). -/
def execFcvtBf16 (p : FpFormat) (rd ra rb rsv : RegIx) (s : State) : Host.Outcome State Fault Refusal :=
  fpConvertOp 0x12 .bf16 p rd ra rb rsv s

/-- FCVTI: to a signed 64-bit integer (R38). -/
def execFcvti (p : FpFormat) (rd ra rb : RegIx) (rtz : Bool) (rsv : BitVec 4) (s : State) : Host.Outcome State Fault Refusal :=
  fpToIntOp 0x13 (-(2 ^ 63)) (2 ^ 63 - 1) p rd ra rb rtz rsv s

/-- FCVTU: to an unsigned 64-bit integer (R38). -/
def execFcvtu (p : FpFormat) (rd ra rb : RegIx) (rtz : Bool) (rsv : BitVec 4) (s : State) : Host.Outcome State Fault Refusal :=
  fpToIntOp 0x14 0 (2 ^ 64 - 1) p rd ra rb rtz rsv s

/-- ICVTF: from a signed integer (R38). -/
def execIcvtf (p : FpFormat) (rd ra rb rsv : RegIx) (s : State) : Host.Outcome State Fault Refusal :=
  fpOfIntOp 0x15 true p rd ra rb rsv s

/-- UCVTF: from an unsigned integer (R38). -/
def execUcvtf (p : FpFormat) (rd ra rb rsv : RegIx) (s : State) : Host.Outcome State Fault Refusal :=
  fpOfIntOp 0x16 false p rd ra rb rsv s

/-- The precision of FMA by its prec field; 0b11 is reserved (R39). -/
def fmaFormat (prec : BitVec 2) : Option FpFormat :=
  match prec.toNat with
  | 0 => some .f64
  | 1 => some .f32
  | 2 => some .bf16
  | _ => none

/-- The datum with its sign inverted where `b` holds. -/
def Fp.negIf (b : Bool) (x : Fp) : Fp := if b then x.flip else x

/-- FMA: (±ra·rb) ± rc with one rounding; neg[3] negates the product, neg[2] negates rc (R39). -/
def execFma (rd ra rb rc : RegIx) (prec neg rsv : BitVec 2) (s : State) : Host.Outcome State Fault Refusal :=
  s.issue fun s =>
    let w := encF4 0x17 rd ra rb rc prec neg rsv
    match fmaFormat prec with
    | none => .exc s (undefinedWord w)
    | some p => guardRsv (rsv == 0) w s
        (s.putFp p rd (fpFma (fpParams p) s.rounding ((fpOperand p (s.readG ra)).negIf (neg.getLsbD 1))
          (fpOperand p (s.readG rb)) ((fpOperand p (s.readG rc)).negIf (neg.getLsbD 0))))

end Sys2Proof.Machine
end

