-- ==== Sys2Proof/Machine/LoadStore.lean ====
section
/-! DEFINITION. Loads, stores and atomics (02 R40, R41; 03 R64, R65, R74, R75). -/

namespace Sys2Proof.Machine

/-- A load of a register: rt := the value, extended; a device read is issued and its instruction waits for the answer
(03 R65). -/
def State.loadReg (s : State) (rt : RegIx) (va : Word) (size : BitVec 2) (sx acq : Bool) : IRes :=
  match s.load va (sizeBytes size) acq with
  | .ok s v => .done (s.writeG rt (extendBytes v (sizeBytes size) sx))
  | .device s pa => .wait (s.issueDevice (.reg rt size sx) pa (sizeBytes size) va)
  | .exc s e => .exc s e
  | .wait s => .wait s

/-- A store of a register (R40). -/
def State.storeReg (s : State) (rt : RegIx) (va : Word) (size : BitVec 2) (release : Bool) : IRes :=
  match s.store va (sizeBytes size) (s.readG rt) release with
  | .ok s => .done s
  | .exc s e => .exc s e
  | .wait s => .wait s

/-- LD: ord makes it an acquire load (R40). -/
def execLd (rt ra : RegIx) (size : BitVec 2) (sx ord : Bool) (off : BitVec 12) (s : State) :
    Host.Outcome State Fault Refusal :=
  s.issue fun s => s.loadReg rt (s.eaOffset ra size off) size sx ord

/-- ST: sx is reserved (R40). -/
def execSt (rt ra : RegIx) (size : BitVec 2) (sx ord : Bool) (off : BitVec 12) (s : State) :
    Host.Outcome State Fault Refusal :=
  s.issue fun s => guardRsv (!sx) (encM 0x19 rt ra size sx ord off) s
    (s.storeReg rt (s.eaOffset ra size off) size ord)

/-- The func field of LDX and STX (R40). -/
def indexedFunc (size : BitVec 2) (sx ord sh : Bool) (rsv : BitVec 6) : Nat :=
  rsv.toNat * 32 + bit sh * 16 + bit ord * 8 + bit sx * 4 + size.toNat

/-- LDX (R40). -/
def execLdx (rt ra rb : RegIx) (size : BitVec 2) (sx ord sh : Bool) (rsv : BitVec 6) (s : State) :
    Host.Outcome State Fault Refusal :=
  s.issue fun s => guardRsv (rsv == 0) (encR 0x1A rt ra rb (indexedFunc size sx ord sh rsv)) s
    (s.loadReg rt (s.eaIndexed ra rb size sh) size sx ord)

/-- STX: func[2] is reserved (R40). -/
def execStx (rt ra rb : RegIx) (size : BitVec 2) (sx ord sh : Bool) (rsv : BitVec 6) (s : State) :
    Host.Outcome State Fault Refusal :=
  s.issue fun s => guardRsv (rsv == 0 && !sx) (encR 0x1B rt ra rb (indexedFunc size sx ord sh rsv)) s
    (s.storeReg rt (s.eaIndexed ra rb size sh) size ord)

/-- The bytes of an atomic (R41). -/
def atomicBytes (wide : Bool) : Nat := if wide then 8 else 4

/-- A signed reading of `n` bytes. -/
def signedBytes (v n : Nat) : Int := if v < 2 ^ (8 * n - 1) then v else (v : Int) - 2 ^ (8 * n)

/-- An atomic of Table R41: the address is the base, the new value is computed from the old one, rb and rd. -/
def atomicOp (code : Nat) (rd ra rb : RegIx) (wide : Bool) (ord : BitVec 2) (rsv : RegIx)
    (f : Nat → Nat → Nat → Nat → Nat) (s : State) : Host.Outcome State Fault Refusal :=
  s.issue fun s =>
    guardRsv (rsv == 0) (encR 0x1C rd ra rb (rsv.toNat * 64 + ord.toNat * 16 + bit wide * 8 + code)) s
      (let n := atomicBytes wide
       let b := (s.readG rb).toNat % 2 ^ (8 * n)
       let d := (s.readG rd).toNat % 2 ^ (8 * n)
       match s.atomic code (s.baseReg ra) n (fun old => f n old b d) with
       | .ok s v => .done (s.writeG rd (wd v))
       | .device s _ => .wait s
       | .exc s e => .exc s e
       | .wait s => .wait s)

/-- ATOMIC ADD (R41). -/
def execAtomicAdd (rd ra rb : RegIx) (wide : Bool) (ord : BitVec 2) (rsv : RegIx) (s : State) :
    Host.Outcome State Fault Refusal :=
  atomicOp 0 rd ra rb wide ord rsv (fun n old b _ => (old + b) % 2 ^ (8 * n)) s

/-- ATOMIC SWAP (R41). -/
def execAtomicSwap (rd ra rb : RegIx) (wide : Bool) (ord : BitVec 2) (rsv : RegIx) (s : State) :
    Host.Outcome State Fault Refusal :=
  atomicOp 1 rd ra rb wide ord rsv (fun _ _ b _ => b) s

/-- ATOMIC CAS: writes rb only where the old value equals rd (R41). -/
def execAtomicCas (rd ra rb : RegIx) (wide : Bool) (ord : BitVec 2) (rsv : RegIx) (s : State) :
    Host.Outcome State Fault Refusal :=
  atomicOp 2 rd ra rb wide ord rsv (fun _ old b d => if old = d then b else old) s

/-- ATOMIC MIN, signed (R41). -/
def execAtomicMin (rd ra rb : RegIx) (wide : Bool) (ord : BitVec 2) (rsv : RegIx) (s : State) :
    Host.Outcome State Fault Refusal :=
  atomicOp 3 rd ra rb wide ord rsv (fun n old b _ => if signedBytes b n < signedBytes old n then b else old) s

/-- ATOMIC MAX, signed (R41). -/
def execAtomicMax (rd ra rb : RegIx) (wide : Bool) (ord : BitVec 2) (rsv : RegIx) (s : State) :
    Host.Outcome State Fault Refusal :=
  atomicOp 4 rd ra rb wide ord rsv (fun n old b _ => if signedBytes old n < signedBytes b n then b else old) s

/-- ATOMIC MINU (R41). -/
def execAtomicMinu (rd ra rb : RegIx) (wide : Bool) (ord : BitVec 2) (rsv : RegIx) (s : State) :
    Host.Outcome State Fault Refusal :=
  atomicOp 5 rd ra rb wide ord rsv (fun _ old b _ => if b < old then b else old) s

/-- ATOMIC MAXU (R41). -/
def execAtomicMaxu (rd ra rb : RegIx) (wide : Bool) (ord : BitVec 2) (rsv : RegIx) (s : State) :
    Host.Outcome State Fault Refusal :=
  atomicOp 6 rd ra rb wide ord rsv (fun _ old b _ => if old < b then b else old) s

end Sys2Proof.Machine
end

