-- ==== Sys2Proof/Machine/MemPort.lean ====
section
/-! DEFINITION. The memory port's responses (17 R378 to R382): data that memory returns, errors that are retried once, errors of
writes, and requests without a response. -/

namespace Sys2Proof.Machine

/-- The number of a granule from PA[46:6]. -/
def granuleOf (g : BitVec 41) : Nat := g.toNat

/-- Memory holds these bytes in a granule, poisoned or clean (17 R381). -/
def Mem.hold (m : Mem) (g : Nat) (data : BitVec 512) (poison : Bool) : Mem :=
  (m.setBackNat (64 * g) data.toNat 64).setBackPoison g poison

/-- A read has failed: the first failure issues it once more; the second delivers the granule poisoned to the requester and leaves
memory as it is, under class 10 (R382). -/
def State.readFails (s : State) (channel : Nat) (g : BitVec 41) (parity : Bool) : State :=
  let f := s.fab
  if f.reissued.contains g then
    let t : State := { s with
      fab := { f with reissued := f.reissued.erase g }
      mem := { s.mem with copyPoison := nsInsert (granuleOf g) s.mem.copyPoison } }
    t.parityDetected 10 1 channel (64 * granuleOf g)
  else
    let t : State := { s with fab := { f with reissued := f.reissued ++ [g] } }
    if parity then t.parityDetected 10 0 channel (64 * granuleOf g) else t

/-- A read is answered: memory's data and their poison, or a failure (R381, R382). -/
def State.readAnswer (s : State) (channel : Nat) (g : BitVec 41) (data : BitVec 512) (poison err parity : Bool) : State :=
  let s : State := if err then { s with fab := { s.fab with rdErrs := s.fab.rdErrs + 1 } } else s
  if err || parity then s.readFails channel g parity
  else
    let m := s.mem.hold (granuleOf g) data poison
    { s with fab := { s.fab with reissued := s.fab.reissued.erase g }
             mem := { m with copyPoison := nsErase (granuleOf g) m.copyPoison } }

/-- What a failed write is reported as: status 4 of the tram channel's oldest descriptor or of the copy engine, an event-log record of a
cache write-back (R382). -/
def State.writeFails (s : State) (src : Nat) (channel : Fin 32) (g : BitVec 41) : State :=
  let s : State := { s with fab := { s.fab with wrErrs := s.fab.wrErrs + 1 } }
  if src = 4 then
    let x := s.tr.ch[channel]
    s.setChannel channel { x with opens := match x.opens with
      | o :: t => { o with status := 4, bytes := o.bytes } :: t
      | [] => [] }
  else if src = 5 then (if s.ce.busy then { s with ce := { s.ce with next := 4 } } else s)
  else if src = 6 then s.logEvent 1 10 channel.val (64 * granuleOf g) 0
  else s

/-- A write or atomic is answered. On an error memory has left the granule as it was, which `left` gives, or marked poisoned (R381). -/
def State.writeAnswer (s : State) (src : Nat) (channel : Fin 32) (g : BitVec 41) (err : Bool) (left : Option (BitVec 512)) : State :=
  if !err then s
  else
    let t : State := { s with mem := match left with
      | some d => s.mem.hold (granuleOf g) d (nsMem (granuleOf g) s.mem.poison)
      | none => s.mem.setBackPoison (granuleOf g) true }
    t.writeFails src channel g

/-- A request without a response in time counts as answered with ERR (R382). What its write left in memory stays as it is (log 71). -/
def State.portTimeout (s : State) (write : Bool) (src : Nat) (channel : Fin 32) (g : BitVec 41) : State :=
  let s : State := { s with fab := { s.fab with timeouts := s.fab.timeouts + 1 } }
  if write then s.writeFails src channel g else s.readAnswer channel.val g 0 false true false

/-- READ_RESPONSE. -/
def execReadResponse (channel : BitVec 4) (id : BitVec 8) (granule : BitVec 41) (data : BitVec 512) (poison err parity : Bool)
    (s : State) : Host.Outcome State Fault Refusal :=
  -- the identifier tells requests apart and has no further effect
  let _ := id
  answer s (s.readAnswer channel.toNat granule data poison err parity)

/-- WRITE_RESPONSE. -/
def execWriteResponse (src : BitVec 3) (channel : BitVec 5) (granule : BitVec 41) (err : Bool) (left : Option (BitVec 512))
    (s : State) : Host.Outcome State Fault Refusal := answer s (s.writeAnswer src.toNat (tramOf channel) granule err left)

/-- RESPONSE_TIMEOUT. -/
def execResponseTimeout (write : Bool) (src : BitVec 3) (channel : BitVec 5) (granule : BitVec 41) (s : State) :
    Host.Outcome State Fault Refusal := answer s (s.portTimeout write src.toNat (tramOf channel) granule)

end Sys2Proof.Machine
end

