-- ==== Sys2Proof/Machine/Move.lean ====
section
/-! DEFINITION. Move instructions (02 R34): halfword immediates, ADR and the register moves of Table 2.7. None writes FL
but SETFL. -/

namespace Sys2Proof.Machine

/-- The sign-extended halfword at position hw: LIH's value (R34). -/
def lihValue (hw : BitVec 2) (imm : BitVec 16) : Word := sext16 imm <<< (16 * hw.toNat)

/-- The value with halfword hw replaced: INH (R34). -/
def inhValue (old : Word) (hw : BitVec 2) (imm : BitVec 16) : Word :=
  (old &&& ~~~(0xFFFF#64 <<< (16 * hw.toNat))) ||| (zext16 imm <<< (16 * hw.toNat))

/-- LIH: rd := sext(imm16) << k (R34). -/
def execLih (rd : RegIx) (hw : BitVec 2) (rsv : BitVec 3) (imm : BitVec 16) (s : State) :
    Host.Outcome State Fault Refusal :=
  s.issue fun s => guardRsv (rsv == 0) (encW 0x08 rd hw rsv imm) s (.done (s.writeG rd (lihValue hw imm)))

/-- INH: halfword hw of rd := imm16 (R34). -/
def execInh (rd : RegIx) (hw : BitVec 2) (rsv : BitVec 3) (imm : BitVec 16) (s : State) :
    Host.Outcome State Fault Refusal :=
  s.issue fun s => guardRsv (rsv == 0) (encW 0x09 rd hw rsv imm) s
    (.done (s.writeG rd (inhValue (s.readG rd) hw imm)))

/-- FLH: rd := rd xor (zext(imm16) << k) (R34). -/
def execFlh (rd : RegIx) (hw : BitVec 2) (rsv : BitVec 3) (imm : BitVec 16) (s : State) :
    Host.Outcome State Fault Refusal :=
  s.issue fun s => guardRsv (rsv == 0) (encW 0x0A rd hw rsv imm) s
    (.done (s.writeG rd (s.readG rd ^^^ (zext16 imm <<< (16 * hw.toNat)))))

/-- ADR: rd := PC + sext(imm21)·4 (R34). -/
def execAdr (rd : RegIx) (imm : BitVec 21) (s : State) : Host.Outcome State Fault Refusal :=
  s.issue fun s => .done (s.writeG rd (branchTarget s.bank.pc imm))

/-- MOV: rd := ra; the rb field, not named in Table 2.7 for MOV, is not checked (log 19). -/
def execMov (rd ra rb rsv : RegIx) (s : State) : Host.Outcome State Fault Refusal :=
  s.issue fun s => guardRsv (rsv == 0) (encR6 0x0B rd ra rb 0x00 rsv) s (.done (s.writeG rd (s.readG ra)))

/-- PICK: rd := ra where the condition holds, else rb (R34). -/
def execPick (rd ra rb : RegIx) (cond : BitVec 4) (rsv : BitVec 1) (s : State) : Host.Outcome State Fault Refusal :=
  s.issue fun s => guardRsv (rsv == 0) (encR 0x0B rd ra rb (cond.toNat * 128 + rsv.toNat * 64 + 1)) s
    (.done (s.writeG rd (if condHolds cond s.bank.fl then s.readG ra else s.readG rb)))

/-- GETSP: rd := SP (R34). -/
def execGetsp (rd ra rb rsv : RegIx) (s : State) : Host.Outcome State Fault Refusal :=
  s.issue fun s => guardRsv (rsv == 0) (encR6 0x0B rd ra rb 0x02 rsv) s (.done (s.writeG rd s.bank.sp))

/-- SETSP: SP := ra (R34). -/
def execSetsp (rd ra rb rsv : RegIx) (s : State) : Host.Outcome State Fault Refusal :=
  s.issue fun s => guardRsv (rsv == 0) (encR6 0x0B rd ra rb 0x03 rsv) s (.done (s.setSp (s.readG ra)))

/-- GETFL: rd := zext(FL) (R34). -/
def execGetfl (rd ra rb rsv : RegIx) (s : State) : Host.Outcome State Fault Refusal :=
  s.issue fun s => guardRsv (rsv == 0) (encR6 0x0B rd ra rb 0x04 rsv) s
    (.done (s.writeG rd (s.bank.fl.toBits.setWidth 64)))

/-- SETFL: FL := ra[3:0] (R34). -/
def execSetfl (rd ra rb rsv : RegIx) (s : State) : Host.Outcome State Fault Refusal :=
  s.issue fun s => guardRsv (rsv == 0) (encR6 0x0B rd ra rb 0x05 rsv) s
    (.done (s.setFl (Flags.ofBits ((s.readG ra).setWidth 4))))

end Sys2Proof.Machine
end

