-- ==== Sys2Proof/Machine/ParityErr.lean ====
section
/-! DEFINITION. Detected parity errors of every class (16 R350, R351, Tables 16.1 and 16.2; 06 R167, 07 R190, 09 R227), and what
follows for the spares (16 R356, Table 16.5). -/

namespace Sys2Proof.Machine

/-- A 64-byte granule of the L1 data cache or the L2: a clean copy is dropped, the only copy is poisoned (Table 16.1 classes 1 and 2). -/
def Mem.parityAt (m : Mem) (g : Nat) (clean : Bool) : Mem :=
  if !clean && (lineFind g m.cache).isSome then m.poisonL2 g else { m with copyPoison := nsErase g m.copyPoison }

/-- A 64-byte granule of the tile store: a clean cache line is dropped, a dirty one poisoned, and every scratch line is an only copy
(Table 16.1 class 7). -/
def Mem.parityStoreAt (m : Mem) (g : Nat) (clean : Bool) : Mem :=
  if clean && !inScratch (64 * g) then { m with copyPoison := nsErase g m.copyPoison } else m.poisonStore g

/-- An entry of the store buffer will write its granule poisoned (class 4). -/
def Mem.parityStore (m : Mem) (i : Nat) : Mem := { m with sb := m.sb.modify i (fun e => { e with poison := true }) }

/-- Write a row of an accumulator. -/
def State.setK (s : State) (k : Fin 4) (row : Fin 128) (y : BitVec 4096) : State :=
  s.setRegs (s.tile.regs.setK k (s.tile.regs.k[k].set row y) s.tile.regs.kpois[k])

/-- An error in accumulator storage: every element of the row takes the poison value at once, and OVF is set where a finite one takes the
marker (07 R189, R190). -/
def State.poisonRow (s : State) (k : Fin 4) (row : Fin 128) : State :=
  let r := s.tile.regs
  let x : BitVec 32 := if r.ktype.getLsbD k.val then BitVec.ofNat 32 marker32 else BitVec.ofNat 32 poison32
  let y : BitVec 4096 := BitVec.ofNat 4096 (packWords 32 (List.replicate 128 x.toNat))
  let ovf := r.ktype.getLsbD k.val && (List.range 128).any (fun j => elemAt ((r.k[k])[row]).toNat 32 j != marker32)
  (if ovf then s.setTflags flagOvf else s).setK k row y

/-- A new mark in a register's own storage (06 R167, R168); one marked already is counted alone. -/
def State.storageMark (s : State) (c : TileClass) (reg index : Nat) (old : Bool) (mark : TileRegs → TileRegs) : State :=
  let t : State := s.setRegs (mark s.tile.regs)
  if old then t.countParity 8 else t.markEvent c reg index true 0

/-- An error in tile storage: `kind` is TPEVT's CLASS, or 5 for a seam slot. Of T the unit is 128·t + lane, of K the physical column
with the row and register given apart, of V, SS, Q and the seam the register or slot. -/
def State.parityTile (s : State) (kind unit row k : Nat) : State :=
  let r := s.tile.regs
  match kind with
  | 0 =>
    let t := Fin.ofNat 8 (unit / 128)
    s.storageMark .t t.val (unit % 128) ((r.tpois[t]).getLsbD (unit % 128)) (fun r =>
      { r with tpois := r.tpois.set t (r.tpois[t] ||| (1#128 <<< (unit % 128))) })
  | 1 =>
    let k := Fin.ofNat 4 k
    let i := Fin.ofNat 128 row
    (s.poisonRow k i).storageMark .k k.val i.val ((r.kpois[k]).getLsbD i.val) (fun r =>
      { r with kpois := r.kpois.set k (r.kpois[k] ||| (1#128 <<< i.val)) })
  | 2 => s.storageMark .v (unit % 8) 0 (r.vpois.getLsbD (unit % 8)) (fun r => { r with vpois := r.vpois ||| (1#8 <<< (unit % 8)) })
  | 3 =>
    s.storageMark .ss (unit % 64) 0 (r.sspois.getLsbD (unit % 64)) (fun r => { r with sspois := r.sspois ||| (1#64 <<< (unit % 64)) })
  | 4 => s.storageMark .q (unit % 16) 0 (r.qpois.getLsbD (unit % 16)) (fun r => { r with qpois := r.qpois ||| (1#16 <<< (unit % 16)) })
  | _ =>
    let i := Fin.ofNat 4 unit
    let x := s.tile.seam[i]
    ({ s with tile := { s.tile with seam := s.tile.seam.set i { x with poison := true } } }).tileParity

/-- An error in the assay: a clean side-buffer entry is made invalid, otherwise the oldest sample is discarded, with its wide check
(Table 16.1 class 9, 11 Table 11.2). -/
def Assay.parityAt (a : Assay) (clean : Bool) (unit : Nat) : Assay :=
  if clean then { a with side := a.side.filter (fun e => e.place.val != unit % 4) }
  else { a with pend := a.pend.drop 1, widePend := if a.pend.head?.any (·.wide) then none else a.widePend }

/-- A tally counter or bucket in error is reloaded from what was last persisted (Table 16.2). -/
def State.reloadTally (s : State) (sub : Nat) (bucket : Option Nat) : State :=
  let x := largest (s.dumpSource.toList ++ s.storeSource.toList)
  let r := s.res
  let s : State := { s with res := match bucket with
    | none => { r with tally := r.tally.setIfInBounds sub (wd ((x.counter sub).getD 0)) }
    | some b => { r with hist := smSet 0#64 (32 * sub + b) (wd ((x.bucket sub b).getD 0)) r.hist } }
  s.tallyInc 0x59

/-- An always-on record in error (Table 16.2), by kind: 0 sync record, 1 mailbox slot, 2 heat-table entry, 3 tally counter, 4 tally
bucket, 5 assay histogram counter, 6 the dictionary's buffers. -/
def State.parityRecord (s : State) (kind addr : Nat) : State :=
  match kind with
  | 0 => s.setObj (BitVec.ofNat 13 addr) { s.obj (BitVec.ofNat 13 addr) with pois := true }
  | 1 =>
    let c := Fin.ofNat 16 addr
    { s with mb := { s.mb with ch := s.mb.ch.set c { s.mb.ch[c] with inPois := true } } }
  | 2 => { s with hl := { s.hl with heat := smSet none (addr % 16384) none s.hl.heat } }
  | 3 => s.reloadTally (addr % 128) none
  | 4 => s.reloadTally (addr / 32 % 64) (some (addr % 32))
  | 5 => { s with assay := { s.assay with hist := smSet 0#32 (addr % 8192) 0 s.assay.hist } }
  | _ => { s with dict := { s.dict with bad := true } }

/-- An entry of a TLB or of the table-entry cache is dropped, by kind: 0 the L2 TLB or FLAT's, 1 the table-entry cache, 2 and 3 the L1
instruction and data TLB (Table 16.1 class 3). -/
def Xlat.parityAt (x : Xlat) (kind unit : Nat) : Xlat :=
  match kind with
  | 0 => { x with tlb := x.tlb.eraseIdx unit }
  | 1 => { x with tec := x.tec.eraseIdx unit }
  | 2 => { x with itlb := x.itlb.eraseIdx unit }
  | _ => { x with dtlb := x.dtlb.eraseIdx unit }

/-- A register of a physical bank is in error (Table 16.1 class 5): in the running level's bank the level escalates (05 R131); the image
of another level is marked, so that its level escalates when it runs (log 183). -/
def State.parityBank (s : State) (bank reg : Nat) : State :=
  match s.levelOfPhys bank with
  | none => s
  | some l =>
    if l ≠ s.lvl then { s with res := { s.res with bankPoison := s.res.bankPoison.set l true } }
    else if s.core.mode = .run then s.escalate 25 (wd reg) 4 s.bank.pc
    else s

/-- What a class does about an error (Table 16.1). -/
def State.parityEffect (s : State) (cls : Nat) (clean : Bool) (unit addr part : Nat) : State :=
  match cls with
  | 1 | 2 => { s with mem := s.mem.parityAt (addr / 64) clean }
  | 7 => { s with mem := s.mem.parityStoreAt (addr / 64) clean }
  | 3 => { s with xl := s.xl.parityAt part unit }
  | 4 => { s with mem := s.mem.parityStore unit }
  | 5 => s.parityBank unit part
  | 6 => { s with mem := { s.mem with onCorePoison := nsInsert (addr % 0x4800 / 64) s.mem.onCorePoison } }
  | 9 => { s with assay := s.assay.parityAt clean unit }
  | 10 => if clean then s else { s with mem := s.mem.setBackPoison (addr / 64) true }
  | 11 => { s with fab := { s.fab with parity := s.fab.parity + 1, bad := true } }
  | 12 =>
    { s with dep :=
        if part = 0 then { s.dep with progBad := nsInsert (s.dep.progKey (addr % 0x4000)) s.dep.progBad }
        else { s.dep with dataBad := nsInsert (addr % 0x8000) s.dep.dataBad } }
  | 13 => s.parityRecord part addr
  | _ => s

/-- KIND of the capture (Table 16.16). -/
def parityKind (cls : Nat) (clean : Bool) : Nat :=
  if cls = 5 then 2 else if cls = 0 || cls = 3 || (clean && cls != 4 && cls != 6 && cls != 8) then 0 else 1

/-- The structures of a class are powered, so that an error can be found there. -/
def State.parityPowered (s : State) (cls : Nat) : Bool :=
  if cls ≤ 6 then decide (s.pwr.core = .on)
  else if cls = 7 then decide (s.pwr.store = .on)
  else if cls = 8 ∨ cls = 9 then decide (s.pwr.tile = .on)
  else true

/-! ### Spares -/

/-- The fill class whose units hold the storage of an error (Table 16.4). -/
def fillOfParity (cls part : Nat) : Option (Fin 5) :=
  match cls with
  | 2 => some 4
  | 5 => some 3
  | 7 => some 1
  | 8 => if part % 8 = 0 then some 2 else if part % 8 = 1 then some 0 else none
  | _ => none

/-- The spare that a unit number names, if it names one (Table 16.4). -/
def spareOfUnit (c : Fin 5) (u : Nat) : Option Nat :=
  match c with
  | 0 => if 128 ≤ u ∧ u < 136 then some (u - 128) else none
  | 1 => if 192 ≤ u % 256 ∧ u % 256 < 208 then some (16 * (u / 256) + (u % 256 - 192)) else none
  | 2 => none
  | 3 => if u = 8 then some 0 else none
  | 4 => if u = 16 ∨ u = 17 then some (u - 16) else none

/-- During a fill of the class the error may strike its source or its spare (Table 16.5). -/
def State.parityInFill (s : State) (c : Fin 5) (u : Nat) : State :=
  match s.res.fills[c].openFill with
  | none => s
  | some o =>
    if o.unit = u then s.sourceFails c
    else
      match spareOfUnit c u with
      | some n => if o.spare = some n then s.spareFails c else s
      | none => s

/-- Firmware counts a unit's errors and asks for a fill at the second within 2^32 MGMT cycles (16 R356). -/
def State.countUnit (s : State) (c : Fin 5) (u : Nat) : State :=
  if !s.firmware then s
  else
    let now := s.mgmtcyc
    let rest := s.res.unitSeen.filter (fun x => !(x.1 == c.val && x.2.1 == u))
    let put (l : List (Nat × Nat × Word)) : State := { s with res := { s.res with unitSeen := l } }
    match s.res.unitSeen.find? (fun x => x.1 == c.val && x.2.1 == u) with
    | some x => if (now - x.2.2).toNat ≤ 2 ^ 32 then (put rest).requestFill c u else put ((c.val, u, now) :: rest)
    | none => put ((c.val, u, now) :: rest)

/-- What an error means for the spares. -/
def State.paritySpares (s : State) (cls unit part : Nat) : State :=
  match fillOfParity cls part with
  | some c => (s.parityInFill c unit).countUnit c unit
  | none => s

/-- The granules that an error poisons for the first time: an only copy that the caches or scratch hold, the granule of a buffered store,
write data of the memory port (Table 16.1; POISWRITE, log 114). -/
def State.newlyPoisoned (s : State) (cls : Nat) (clean : Bool) (unit addr : Nat) : Nat :=
  match cls with
  | 1 | 2 => bit (!clean && (lineFind (addr / 64) s.mem.cache).any (fun l => !l.poison))
  | 4 => bit (s.mem.sb[unit]?.any (fun e => !e.poison))
  | 7 => bit ((!clean || inScratch addr) && !s.mem.poisoned (addr / 64) && ((lineFind (addr / 64) s.mem.tsc).isSome || inScratch addr))
  | 10 => bit (!clean && !nsMem (addr / 64) s.mem.poison)
  | _ => 0

/-- Detection (16 R351): an error in tile state is captured and logged here and counted with its mark. -/
def State.parityFound (s : State) (cls : Fin 14) (clean : Bool) (unit addr part : Nat) : State :=
  if cls = 8 then
    let t : State := ((s.captureParity 8 1 unit 0).logEvent 1 8 unit 0 0).raiseVector 11
    t.parityTile (part % 8) unit (part / 8 % 128) (part / 1024 % 4)
  else
    ((s.parityEffect cls.val clean unit addr part).tallyAdd 0x31 (s.newlyPoisoned cls.val clean unit addr)).parityDetected cls
      (parityKind cls.val clean) unit addr

/-- PARITY_ERROR (16 R351). Refused where the class is not one of Table 16.1. -/
def execParityError (cls : BitVec 4) (clean : Bool) (unit : BitVec 12) (addr : BitVec 47) (part : BitVec 13) (s : State) :
    Host.Outcome State Fault Refusal :=
  if parityClass cls then
    answer s
      (if s.parityPowered cls.toNat then
        (s.parityFound (Fin.ofNat 14 cls.toNat) clean unit.toNat addr.toNat part.toNat).paritySpares cls.toNat unit.toNat part.toNat
       else s)
  else .refused .illFormed

end Sys2Proof.Machine
end

