-- ==== Sys2Proof/Machine/StringOps.lean ====
section
/-! DEFINITION. Block-repeat string instructions (02 R49 to R53): elements one by one in ascending order, in chunks, with
G28 the count, G29 the source and G30 the destination. -/

namespace Sys2Proof.Machine

/-- The outcome of one element. -/
inductive Elem where
  /-- Performed; the registers have advanced. -/
  | next (s : State)
  /-- The stop condition was met at this element (R50). -/
  | stop (s : State)
  | exc (s : State) (e : Exc)
  /-- Held, or waiting for a zero-fill: the elements before it are performed (R53). -/
  | wait (s : State)
  /-- A device element has been issued: the elements before it are performed (R52). -/
  | device (s : State)

/-- An element's value. -/
inductive ElemVal where
  | ok (s : State) (v : Nat)
  | no (r : Elem)

/-- The answer that waits for this instruction's device read at an address. -/
def State.elemDatum (s : State) (va : Word) : Option DevDatum :=
  s.core.devData.find? (fun d => decide (d.level = s.lvl) && d.pc == s.bank.pc && d.va == va)

/-- This instruction's device reads are consumed: its element is performed. -/
def State.consumeData (s : State) : State :=
  { s with core := { s.core with devData := s.core.devData.filter (fun d => !(decide (d.level = s.lvl) && d.pc == s.bank.pc)) } }

/-- Read one element of `n` bytes; a device element comes from the answer of its one access, which is kept until the element is
performed (R52, 03 R65). `other` checks the element's other access before a device read is issued: if that access faults, the read is
not made (R53, log 163). -/
def State.loadElem (s : State) (va : Word) (n : Nat) (other : State → Parts) : ElemVal :=
  match s.load va n with
  | .ok s v => .ok s v
  | .exc s e => .no (.exc s e)
  | .wait s => .no (.wait s)
  | .device s pa =>
    match s.elemDatum va with
    | some d => if d.poison then .no (.exc s.consumeData (poisonExc va)) else .ok s (d.data.toNat % 2 ^ (8 * n))
    | none =>
      match other s with
      | .exc s e => .no (.exc s e)
      | .wait s => .no (.wait s)
      | .ok s _ => .no (.device (s.issueDevice .element pa n va))

/-- G28, G29 and G30. -/
def regCount : RegIx := 28
/-- The source address register. -/
def regSrc : RegIx := 29
/-- The destination address register. -/
def regDst : RegIx := 30

/-- Advance after an element: G28 down by one, and the addresses that the instruction moves (R49). -/
def State.advanceElem (s : State) (n : Nat) (src dst : Bool) : State :=
  let s := s.writeG regCount (s.readG regCount - 1)
  let s := if src then s.writeG regSrc (s.readG regSrc + wd n) else s
  if dst then s.writeG regDst (s.readG regDst + wd n) else s

/-- The flags at a stop (R50). -/
def stopFlags (a b n : Nat) : Flags :=
  { n := decide (signedBytes a n < signedBytes b n), z := true, c := decide (b ≤ a), v := false }

/-- Write one element. -/
def State.storeElem (s : State) (va : Word) (n : Nat) (v : Nat) (src dst : Bool) : Elem :=
  match s.store va n (wd v) false with
  | .ok s => .next (s.consumeData.advanceElem n src dst)
  | .exc s e => .exc s e
  | .wait s => .wait s

/-- An element has no other access. -/
def noOther (s : State) : Parts := .ok s []

/-- RMOV's element. -/
def elemMov (n : Nat) (s : State) : Elem :=
  match s.loadElem (s.readG regSrc) n (fun t => t.checkParts .store (t.readG regDst) n) with
  | .no r => r
  | .ok s v => s.storeElem (s.readG regDst) n v true true

/-- RFILL's element. The value is rv's at each element: where rv names G28, G29 or G30, which the instruction advances, the spec does not
say whether its value at the start is meant (log 164). -/
def elemFill (rv : RegIx) (n : Nat) (s : State) : Elem :=
  s.storeElem (s.readG regDst) n ((s.readG rv).toNat % 2 ^ (8 * n)) false true

/-- The stop condition: on equality where `stop` is 1, on difference where it is 0 (R49). -/
def stopMet (stop : Bool) (a b : Nat) : Bool := decide (a = b) == stop

/-- RCMP's element. -/
def elemCmp (stop : Bool) (n : Nat) (s : State) : Elem :=
  match s.loadElem (s.readG regSrc) n (fun t => t.checkParts .load (t.readG regDst) n) with
  | .no r => r
  | .ok s a =>
    match s.loadElem (s.readG regDst) n noOther with
    | .no r => r
    | .ok s b =>
      let s := s.consumeData
      if stopMet stop a b then .stop (s.setFl (stopFlags a b n)) else .next (s.advanceElem n true true)

/-- RSCAN's element; rv is read at each element, as RFILL reads it (log 164). -/
def elemScan (stop : Bool) (rv : RegIx) (n : Nat) (s : State) : Elem :=
  let b := (s.readG rv).toNat % 2 ^ (8 * n)
  match s.loadElem (s.readG regSrc) n noOther with
  | .no r => r
  | .ok s a =>
    let s := s.consumeData
    if stopMet stop a b then .stop (s.setFl (stopFlags a b n)) else .next (s.advanceElem n true false)

/-- An address lies on a side-effect page, as its translation shows. -/
def State.sideEffect (s : State) (kind : AccKind) (va : Word) : Bool :=
  match s.translate { kind := kind, va := va, eaddr := va, priv := s.super } with
  | .ok _ (.phys _ .device) => true
  | _ => false

/-- The element at G29 or at G30 that comes next is on a side-effect page: RMOV. -/
def devMov (s : State) : Bool := s.sideEffect .load (s.readG regSrc) || s.sideEffect .store (s.readG regDst)

/-- The same: RFILL. -/
def devFill (s : State) : Bool := s.sideEffect .store (s.readG regDst)

/-- The same: RCMP. -/
def devCmp (s : State) : Bool := s.sideEffect .load (s.readG regSrc) || s.sideEffect .load (s.readG regDst)

/-- The same: RSCAN. -/
def devScan (s : State) : Bool := s.sideEffect .load (s.readG regSrc)

/-- Elements of the chunk that begins at `addr`: those wholly below the next 64-byte boundary, or one that straddles it
(R51). -/
def chunkElems (addr : Word) (n : Nat) : Nat :=
  let room := 64 - addr.toNat % 64
  if n ≤ room then room / n else 1

/-- One chunk: at most `k` elements (R51), and one on a side-effect page, which `dev` tells of the next element (R52). An element that
faults or is held ends the chunk before it: the elements before it are performed, and the registers stand at it (R53). -/
def runChunk (elem : State → Elem) (dev : State → Bool) : Nat → Bool → State → Elem
  | 0, _, s => .next s
  | k + 1, first, s =>
    if s.readG regCount = 0 then .next s
    else if dev s then (if first then elem s else .next s)
    else
      match elem s with
      | .next t => runChunk elem dev k false t
      | r => r

/-- The chunks of a string instruction, at most `limit` of them, the end being decided by `finish` (R49 to R51). -/
def runChunks (elem : State → Elem) (dev : State → Bool) (size : State → Nat) (finish : State → State) : Nat → State → IRes
  | 0, s => .wait s
  | k + 1, s =>
    if s.readG regCount = 0 then .done (finish s)
    else
      match runChunk elem dev (size s) true s with
      | .next t => if t.readG regCount = 0 then .done (finish t) else runChunks elem dev size finish k t
      | .stop t => .done t
      | .exc t e => .exc t e
      | .wait t => .wait t
      | .device t => .wait t

/-- The flags of RCMP and RSCAN where the count ran out (R50). -/
def State.clearFl (s : State) : State := s.setFl { n := false, z := false, c := false, v := false }

/-- A string instruction: with `chunks` given, an event follows that many of its chunks and the instruction is to be
issued again (R51, log 7); otherwise it runs to its end. -/
def stringOp (chunks : Option Nat) (elem : State → Elem) (dev : State → Bool) (size : State → Nat) (finish : State → State)
    (s : State) : IRes :=
  runChunks elem dev size finish (chunks.getD ((s.readG regCount).toNat + 1)) s

/-- RMOV: rv and stop are reserved (R49). -/
def execRmov (size : BitVec 2) (stop : Bool) (rv : RegIx) (rsv : BitVec 18) (chunks : Option Nat) (s : State) :
    Host.Outcome State Fault Refusal :=
  s.issue fun s => guardRsv (rsv == 0 && rv == 0 && !stop) (encS 0x28 size stop rv rsv) s
    (let n := sizeBytes size
     stringOp chunks (elemMov n) devMov (fun s => chunkElems (s.readG regDst) n) id s)

/-- RFILL: stop is reserved (R49). -/
def execRfill (size : BitVec 2) (stop : Bool) (rv : RegIx) (rsv : BitVec 18) (chunks : Option Nat) (s : State) :
    Host.Outcome State Fault Refusal :=
  s.issue fun s => guardRsv (rsv == 0 && !stop) (encS 0x29 size stop rv rsv) s
    (let n := sizeBytes size
     stringOp chunks (elemFill rv n) devFill (fun s => chunkElems (s.readG regDst) n) id s)

/-- RCMP: rv is reserved (R49, R50). -/
def execRcmp (size : BitVec 2) (stop : Bool) (rv : RegIx) (rsv : BitVec 18) (chunks : Option Nat) (s : State) :
    Host.Outcome State Fault Refusal :=
  s.issue fun s => guardRsv (rsv == 0 && rv == 0) (encS 0x2A size stop rv rsv) s
    (let n := sizeBytes size
     stringOp chunks (elemCmp stop n) devCmp (fun s => chunkElems (s.readG regDst) n) State.clearFl s)

/-- RSCAN (R49, R50). -/
def execRscan (size : BitVec 2) (stop : Bool) (rv : RegIx) (rsv : BitVec 18) (chunks : Option Nat) (s : State) :
    Host.Outcome State Fault Refusal :=
  s.issue fun s => guardRsv (rsv == 0) (encS 0x2B size stop rv rsv) s
    (let n := sizeBytes size
     stringOp chunks (elemScan stop rv n) devScan (fun s => chunkElems (s.readG regSrc) n) State.clearFl s)

end Sys2Proof.Machine
end

