-- ==== Sys2Proof/Machine/Take.lean ====
section
/-! DEFINITION. Task take: peeking at a queue object, scoring its head entry and taking it (13 R288, R289; 12 R273, R274). -/

namespace Sys2Proof.Machine

/-! ### The object's unit -/

/-- The queue checks of a take operation on a local object (R287, Table 13.3): the record of a usable queue. -/
def State.queueOf (s : State) (n : BitVec 13) (priv : Bool) : Option SyncObj :=
  match s.checkObj n priv with
  | some _ => none
  | none => if (s.obj n).mode = 3 then some (s.obj n) else none

/-- The reply to a PEEK: STATUS, entry, HEAD and descriptor IA (R289). -/
structure TakeReply where
  /-- STATUS of Table 13.4. -/
  status : Nat
  /-- The entry. -/
  entry : Word
  /-- SEQ. -/
  seq : BitVec 32
  /-- DESC, 0 where there is none. -/
  desc : Nat
  deriving DecidableEq, Repr

/-- The reply of a refused operation. -/
def TakeReply.refused : TakeReply := { status := 3, entry := 0, seq := 0, desc := 0 }

/-- PEEK at the object's unit (R289 step 1). -/
def State.peekObj (s : State) (n : BitVec 13) (priv : Bool) : TakeReply :=
  match s.queueOf n priv with
  | none => .refused
  | some o =>
    if !o.hasRing || o.lo == 0 then { TakeReply.refused with status := 1 }
    else
      let e := if s.unbacked (o.entryAddr o.hi) then 0 else s.mem.readNat (o.entryAddr o.hi) 8
      { status := 0, entry := wd e, seq := BitVec.ofNat 32 o.hi,
        desc := if bitOf e 47 then (o.dtab.toNat * 64 + 64 * (e / 2 ^ 48)) % 2 ^ 47 else 0 }

/-- A read of the head entry at an unbacked scratch address is noted (03 R81). -/
def State.peekNote (s : State) (n : BitVec 13) : State :=
  let o := s.obj n
  if decide (o.mode = 3) && o.hasRing && o.lo != 0 && s.unbacked (o.entryAddr o.hi) then s.noteUnbacked (o.entryAddr o.hi) else s

/-- TAKE at the object's unit (R289 step 3): the head is removed while HEAD equals SEQ. -/
def State.takeObj (s : State) (n : BitVec 13) (priv : Bool) (seq : BitVec 32) : State × TakeReply :=
  let r := s.peekObj n priv
  if r.status ≠ 0 then (s, r)
  else if r.seq ≠ seq then (s, { r with status := 2 })
  else
    let o := s.obj n
    (s.setObj n (o.withHalves (o.hi + 1) (o.lo - 1)), r)

/-- The packet of a take operation or reply (Table 13.4). -/
def State.takePacket (s : State) (dst : BitVec 24) (op : Nat) (name : BitVec 37) (r : TakeReply) : Packet :=
  { s.packetTo dst with
    inl := inlineOf [wd (op * 2 ^ 60 + r.status * 2 ^ 57 + 2 ^ 56 + name.toNat), r.entry,
                     wd (r.seq.toNat * 2 ^ 32 + s.straps.nodeId.toNat), wd r.desc] }

/-- The object's name in a sync packet. -/
def packetName (p : Packet) : BitVec 37 := (packetWord p 0).setWidth 37

/-- The reply in a PEEKREPLY or TAKEREPLY packet. -/
def packetReply (p : Packet) : TakeReply :=
  { status := (packetWord p 0).toNat / 2 ^ 57 % 8, entry := packetWord p 1,
    seq := BitVec.ofNat 32 ((packetWord p 2).toNat / 2 ^ 32), desc := (packetWord p 3).toNat % 2 ^ 47 / 64 * 64 }

/-- The sender of a sync packet. -/
def packetSender (p : Packet) : BitVec 24 := (packetWord p 2).setWidth 24

/-- PEEK: a packet arrives at the object's unit, which replies (R289). -/
def execPeek (p : Packet) (s : State) : Host.Outcome State Fault Refusal :=
  answer s (s.received fun s =>
    (let name := packetName p
     let here := nameNode (name.setWidth 64) == s.straps.nodeId
     let r := if here then s.peekObj (name.setWidth 13) ((packetWord p 0).getLsbD 56) else .refused
     (if here && r.status == 0 then s.peekNote (name.setWidth 13) else s).sendPacket 5 (s.takePacket (packetSender p) 3 name r)))

/-- TAKE: a packet arrives at the object's unit, which removes the head if HEAD still equals SEQ, and replies (R289). -/
def execTake (p : Packet) (s : State) : Host.Outcome State Fault Refusal :=
  answer s (s.received fun s =>
    (let name := packetName p
     let here := nameNode (name.setWidth 64) == s.straps.nodeId
     let seq : BitVec 32 := BitVec.ofNat 32 ((packetWord p 2).toNat / 2 ^ 32)
     let x := if here then s.takeObj (name.setWidth 13) ((packetWord p 0).getLsbD 56) seq else (s, .refused)
     x.1.sendPacket 5 (x.1.takePacket (packetSender p) 5 name x.2)))

/-! ### Scoring (12 R273, R274) -/

/-- The address lies in a single-stack NEAR pool of a stack (12 R260, R274). -/
def State.inNearPool (s : State) (pa stack : Nat) : Bool :=
  !inScratch pa && (match s.region pa with
    | some r => !r.device && !r.secure && r.tier == 0 && r.ilways == 0 && r.ilfirst.toNat == stack
    | none => false)

/-- A stage-2 walk that leaves memory and the heat table as they were. -/
def State.walkPeek (s : State) (ia : Nat) : State × Option Nat :=
  match s.stage2 ia { kind := .load, s1walk := false, ad := false } with
  | .ok t pa _ _ => ({ t with mem := s.mem }, some pa)
  | .held t _ => ({ t with mem := s.mem }, none)
  | .restart t => ({ t with mem := s.mem }, none)

/-- A slot that covers an IA page with read permission, made with a stage on. -/
def TlbSlot.knows (t : TlbSlot) (page : Nat) : Bool := t.coversIa page && t.r && t.mt != 4

/-- Translate at stage 2 only, by a slot of a TLB that the draw says is still resident, or by a walk, leaving memory as it was: no held
record, and a fault is no translation (12 R274). -/
def State.peekStage2 (s : State) (ia : Nat) : State × Option Nat :=
  match (s.xl.itlb ++ s.xl.dtlb ++ s.xl.tlb).find? (fun t => t.knows (ia / 2 ^ 14)) with
  | some t =>
    if Config.tlbHit s.free then (s.drawn, some ((t.ppage + (ia / 2 ^ 14 - t.ipage)) * 2 ^ 14 + ia % 2 ^ 14)) else s.drawn.walkPeek ia
  | none => s.walkPeek ia

/-- The sampled pages of a range: at most `b`, evenly spaced from the first (12 R274, log 44). -/
def samplePages (first count b : Nat) : List Nat :=
  if count ≤ b then (List.range count).map (first + ·) else (List.range b).map (fun i => first + i * count / b)

/-- The ranges of a page-set descriptor as (first page, count), none where it breaks its layout (12 R273). -/
def descRanges (d : Nat) : Option (List (Nat × Nat)) :=
  let n := d % 8
  if n = 0 ∨ d / 8 % 2 ^ 61 ≠ 0 then none
  else
    let words := (List.range n).map (fun i => fieldOf d (64 * (i + 1)) 64)
    if words.any (fun w => fieldOf w 33 23 != 0) then none
    else some (words.map (fun w => (w % 2 ^ 33, w / 2 ^ 56 + 1)))

/-- Count the local pages among those sampled. -/
def State.countLocal (s : State) : List Nat → State × Nat
  | [] => (s, 0)
  | p :: t =>
    let x := s.peekStage2 (p * 2 ^ 14)
    let y := x.1.countLocal t
    (y.1, y.2 + bit (match x.2 with | some pa => s.inNearPool pa s.hl.lstack.toNat | none => false))

/-- The residency score of a descriptor at an IA (12 R274). -/
def State.score (s : State) (desc : Nat) : State × Nat :=
  if desc = 0 then (s, 256)
  else
    let x := s.peekStage2 desc
    match x.2 with
    | none => (x.1, 0)
    | some pa =>
      match descRanges (s.mem.readNat pa 64) with
      | none => (x.1, 0)
      | some rs =>
        let pages := rs.flatMap (fun r => samplePages r.1 r.2 (64 / rs.length))
        let y := x.1.countLocal pages
        (y.1, 256 * y.2 / pages.length)

/-- Score an entry and decide whether it qualifies: the score reaches THR, or the head of this object has been refused
REFLIM times in a row. Each scoring is counted, as a take or as a refusal (12 R274, log 180). The count of refusals follows the object. -/
def State.judge (s : State) (name : BitVec 37) (desc : Nat) : State × Bool :=
  let s := if s.sy.lastObj = some name then s else { s with sy := { s.sy with lastObj := some name, refused := 0 } }
  let x := s.score desc
  let s := x.1
  if s.hl.thr.toNat ≤ x.2 ∨ s.hl.reflim.toNat ≤ s.sy.refused then ({ s with hl := { s.hl with takes := s.hl.takes + 1 } }, true)
  else ({ s with sy := { s.sy with refused := s.sy.refused + 1 }, hl := { s.hl with refusals := s.hl.refusals + 1 } }, false)

/-! ### The banksman's side (R289) -/

/-- Set the phase of the take. -/
def State.takePhase (s : State) (p : TakePhase) : State := { s with sy := { s.sy with phase := p } }

/-- A taken entry: refusals cleared, its TSB appended with its SUBPRI (R289 step 4). -/
def State.accept (s : State) (e : Word) : State :=
  let s := { s with sy := { s.sy with refused := 0, phase := .idle } }
  s.addReady { tsb := BitVec.ofNat 37 (e.toNat / 1024), subpri := BitVec.ofNat 4 e.toNat, tilewait := false }

/-- A take may run: EN, an empty ready list, a level-0 context that has a TSB (R289, 05 R123). -/
def State.takeRuns (s : State) : Bool :=
  s.sy.takeEn && s.bm.ready.isEmpty && s.bm.tsbp[0] != 0 && decide (s.core.mode ≠ .held)

/-- Step 1: PEEK. A take from a local object runs the same steps inside the core, without packets. -/
def State.startTake (s : State) : State :=
  let name := s.sy.takeObj
  let node := nameNode (name.setWidth 64)
  if node = s.straps.nodeId then
    let n : BitVec 13 := name.setWidth 13
    let r := s.peekObj n true
    if r.status ≠ 0 then s.takePhase .waiting
    else
      let x := (s.peekNote n).judge name r.desc
      if x.2 then
        let y := x.1.takeObj n true r.seq
        if y.2.status = 0 then y.1.accept y.2.entry else y.1.takePhase .waiting
      else x.1.takePhase .waiting
  else (s.sendPacket 5 (s.takePacket node 2 name { TakeReply.refused with status := 0 })).takePhase (.peeked name)

/-- TASK_TAKE (R289). -/
def execTaskTake (s : State) : Host.Outcome State Fault Refusal :=
  answer s (if s.takeRuns && decide (s.sy.phase = .idle) then s.startTake else s)

/-- TAKE_RETRY_WAIT: the 1,024-cycle wait expires and PEEK repeats, unless an entry was added meanwhile (R289). -/
def execTakeRetryWait (s : State) : Host.Outcome State Fault Refusal :=
  answer s (if s.sy.phase = .waiting then (if s.takeRuns then s.startTake else s.takePhase .idle) else s)

/-- PEEKREPLY: the entry is scored; TAKE follows, or the wait (R289 steps 2 and 3). A take under way goes on for its object, whatever
SOTAKE has been given since (log 181). -/
def execPeekreply (p : Packet) (s : State) : Host.Outcome State Fault Refusal :=
  answer s (s.received fun s =>
    (let name := packetName p
     if s.sy.phase = .peeked name then
       let r := packetReply p
       if r.status ≠ 0 then s.takePhase .waiting
       else
         let x := s.judge name r.desc
         if x.2 then
           (x.1.sendPacket 5 (x.1.takePacket (nameNode (name.setWidth 64)) 4 name { r with entry := 0, desc := 0 })).takePhase
             (.taking name r.seq)
         else x.1.takePhase .waiting
     else s))

/-- TAKEREPLY: the entry's TSB joins the ready list; status 2 returns to step 1 at once (R289). -/
def execTakereply (p : Packet) (s : State) : Host.Outcome State Fault Refusal :=
  answer s (s.received fun s =>
    (match s.sy.phase with
     | .taking obj _ =>
       if packetName p = obj then
         let r := packetReply p
         if r.status = 0 then s.accept r.entry
         else if r.status = 2 then (if s.takeRuns then s.startTake else s.takePhase .idle)
         else s.takePhase .waiting
       else s
     | _ => s))

end Sys2Proof.Machine
end

