-- ==== Sys2Proof/Machine/Dispatch.lean ====
section
/-! DEFINITION. What each command does: one arm per constructor of Instr, each a direct call of its meaning. -/

namespace Sys2Proof.Machine

/-- The effect of a command on everything but the queue. -/
def exec (i : Instr) (s : State) : Host.Outcome State Fault Refusal :=
  match i with
  -- 02 Scalar core
  | .add rd ra rb rsv => Sys2Proof.Machine.execAdd rd ra rb rsv s
  | .sub rd ra rb rsv => Sys2Proof.Machine.execSub rd ra rb rsv s
  | .adc rd ra rb rsv => Sys2Proof.Machine.execAdc rd ra rb rsv s
  | .sbc rd ra rb rsv => Sys2Proof.Machine.execSbc rd ra rb rsv s
  | .and rd ra rb rsv => Sys2Proof.Machine.execAnd rd ra rb rsv s
  | .or rd ra rb rsv => Sys2Proof.Machine.execOr rd ra rb rsv s
  | .xor rd ra rb rsv => Sys2Proof.Machine.execXor rd ra rb rsv s
  | .andn rd ra rb rsv => Sys2Proof.Machine.execAndn rd ra rb rsv s
  | .shl rd ra rb rsv => Sys2Proof.Machine.execShl rd ra rb rsv s
  | .shr rd ra rb rsv => Sys2Proof.Machine.execShr rd ra rb rsv s
  | .sar rd ra rb rsv => Sys2Proof.Machine.execSar rd ra rb rsv s
  | .ror rd ra rb rsv => Sys2Proof.Machine.execRor rd ra rb rsv s
  | .min rd ra rb rsv => Sys2Proof.Machine.execMin rd ra rb rsv s
  | .max rd ra rb rsv => Sys2Proof.Machine.execMax rd ra rb rsv s
  | .minu rd ra rb rsv => Sys2Proof.Machine.execMinu rd ra rb rsv s
  | .maxu rd ra rb rsv => Sys2Proof.Machine.execMaxu rd ra rb rsv s
  | .clz rd ra rb rsv => Sys2Proof.Machine.execClz rd ra rb rsv s
  | .ctz rd ra rb rsv => Sys2Proof.Machine.execCtz rd ra rb rsv s
  | .popc rd ra rb rsv => Sys2Proof.Machine.execPopc rd ra rb rsv s
  | .sextb rd ra rb rsv => Sys2Proof.Machine.execSextb rd ra rb rsv s
  | .sexth rd ra rb rsv => Sys2Proof.Machine.execSexth rd ra rb rsv s
  | .sextw rd ra rb rsv => Sys2Proof.Machine.execSextw rd ra rb rsv s
  | .zextb rd ra rb rsv => Sys2Proof.Machine.execZextb rd ra rb rsv s
  | .zexth rd ra rb rsv => Sys2Proof.Machine.execZexth rd ra rb rsv s
  | .zextw rd ra rb rsv => Sys2Proof.Machine.execZextw rd ra rb rsv s
  | .addi rd ra imm => Sys2Proof.Machine.execAddi rd ra imm s
  | .subi rd ra imm => Sys2Proof.Machine.execSubi rd ra imm s
  | .andi rd ra imm => Sys2Proof.Machine.execAndi rd ra imm s
  | .ori rd ra imm => Sys2Proof.Machine.execOri rd ra imm s
  | .xori rd ra imm => Sys2Proof.Machine.execXori rd ra imm s
  | .shi rd ra imm => Sys2Proof.Machine.execShi rd ra imm s
  | .addsp rd ra imm => Sys2Proof.Machine.execAddsp rd ra imm s
  | .lih rd hw rsv imm => Sys2Proof.Machine.execLih rd hw rsv imm s
  | .inh rd hw rsv imm => Sys2Proof.Machine.execInh rd hw rsv imm s
  | .flh rd hw rsv imm => Sys2Proof.Machine.execFlh rd hw rsv imm s
  | .adr rd imm => Sys2Proof.Machine.execAdr rd imm s
  | .mov rd ra rb rsv => Sys2Proof.Machine.execMov rd ra rb rsv s
  | .pick rd ra rb cond rsv => Sys2Proof.Machine.execPick rd ra rb cond rsv s
  | .getsp rd ra rb rsv => Sys2Proof.Machine.execGetsp rd ra rb rsv s
  | .setsp rd ra rb rsv => Sys2Proof.Machine.execSetsp rd ra rb rsv s
  | .getfl rd ra rb rsv => Sys2Proof.Machine.execGetfl rd ra rb rsv s
  | .setfl rd ra rb rsv => Sys2Proof.Machine.execSetfl rd ra rb rsv s
  | .mul rd ra rb rsv => Sys2Proof.Machine.execMul rd ra rb rsv s
  | .mulh rd ra rb rsv => Sys2Proof.Machine.execMulh rd ra rb rsv s
  | .mulhu rd ra rb rsv => Sys2Proof.Machine.execMulhu rd ra rb rsv s
  | .mulhsu rd ra rb rsv => Sys2Proof.Machine.execMulhsu rd ra rb rsv s
  | .div rd ra rb rsv => Sys2Proof.Machine.execDiv rd ra rb rsv s
  | .divu rd ra rb rsv => Sys2Proof.Machine.execDivu rd ra rb rsv s
  | .rem rd ra rb rsv => Sys2Proof.Machine.execRem rd ra rb rsv s
  | .remu rd ra rb rsv => Sys2Proof.Machine.execRemu rd ra rb rsv s
  | .fadd p rd ra rb rsv => Sys2Proof.Machine.execFadd p rd ra rb rsv s
  | .fsub p rd ra rb rsv => Sys2Proof.Machine.execFsub p rd ra rb rsv s
  | .fmul p rd ra rb rsv => Sys2Proof.Machine.execFmul p rd ra rb rsv s
  | .fdiv p rd ra rb rsv => Sys2Proof.Machine.execFdiv p rd ra rb rsv s
  | .fsqrt p rd ra rb rsv => Sys2Proof.Machine.execFsqrt p rd ra rb rsv s
  | .fmin p rd ra rb rsv => Sys2Proof.Machine.execFmin p rd ra rb rsv s
  | .fmax p rd ra rb rsv => Sys2Proof.Machine.execFmax p rd ra rb rsv s
  | .fcmp p rd ra rb rsv => Sys2Proof.Machine.execFcmp p rd ra rb rsv s
  | .fneg p rd ra rb rsv => Sys2Proof.Machine.execFneg p rd ra rb rsv s
  | .fabs p rd ra rb rsv => Sys2Proof.Machine.execFabs p rd ra rb rsv s
  | .fcvtF64 p rd ra rb rsv => Sys2Proof.Machine.execFcvtF64 p rd ra rb rsv s
  | .fcvtF32 p rd ra rb rsv => Sys2Proof.Machine.execFcvtF32 p rd ra rb rsv s
  | .fcvtBf16 p rd ra rb rsv => Sys2Proof.Machine.execFcvtBf16 p rd ra rb rsv s
  | .fcvti p rd ra rb rtz rsv => Sys2Proof.Machine.execFcvti p rd ra rb rtz rsv s
  | .fcvtu p rd ra rb rtz rsv => Sys2Proof.Machine.execFcvtu p rd ra rb rtz rsv s
  | .icvtf p rd ra rb rsv => Sys2Proof.Machine.execIcvtf p rd ra rb rsv s
  | .ucvtf p rd ra rb rsv => Sys2Proof.Machine.execUcvtf p rd ra rb rsv s
  | .fma rd ra rb rc prec neg rsv => Sys2Proof.Machine.execFma rd ra rb rc prec neg rsv s
  | .ld rt ra size sx ord off => Sys2Proof.Machine.execLd rt ra size sx ord off s
  | .st rt ra size sx ord off => Sys2Proof.Machine.execSt rt ra size sx ord off s
  | .ldx rt ra rb size sx ord sh rsv => Sys2Proof.Machine.execLdx rt ra rb size sx ord sh rsv s
  | .stx rt ra rb size sx ord sh rsv => Sys2Proof.Machine.execStx rt ra rb size sx ord sh rsv s
  | .atomicAdd rd ra rb wide ord rsv => Sys2Proof.Machine.execAtomicAdd rd ra rb wide ord rsv s
  | .atomicSwap rd ra rb wide ord rsv => Sys2Proof.Machine.execAtomicSwap rd ra rb wide ord rsv s
  | .atomicCas rd ra rb wide ord rsv => Sys2Proof.Machine.execAtomicCas rd ra rb wide ord rsv s
  | .atomicMin rd ra rb wide ord rsv => Sys2Proof.Machine.execAtomicMin rd ra rb wide ord rsv s
  | .atomicMax rd ra rb wide ord rsv => Sys2Proof.Machine.execAtomicMax rd ra rb wide ord rsv s
  | .atomicMinu rd ra rb wide ord rsv => Sys2Proof.Machine.execAtomicMinu rd ra rb wide ord rsv s
  | .atomicMaxu rd ra rb wide ord rsv => Sys2Proof.Machine.execAtomicMaxu rd ra rb wide ord rsv s
  | .brc cond off => Sys2Proof.Machine.execBrc cond off s
  | .br off => Sys2Proof.Machine.execBr off s
  | .call off => Sys2Proof.Machine.execCall off s
  | .callr ra rsv => Sys2Proof.Machine.execCallr ra rsv s
  | .ret rsv => Sys2Proof.Machine.execRet rsv s
  | .jr ra rsv => Sys2Proof.Machine.execJr ra rsv s
  | .loop ra len rsv => Sys2Proof.Machine.execLoop ra len rsv s
  | .loopi count len => Sys2Proof.Machine.execLoopi count len s
  | .rmov size stop rv rsv chunks => Sys2Proof.Machine.execRmov size stop rv rsv chunks s
  | .rfill size stop rv rsv chunks => Sys2Proof.Machine.execRfill size stop rv rsv chunks s
  | .rcmp size stop rv rsv chunks => Sys2Proof.Machine.execRcmp size stop rv rsv chunks s
  | .rscan size stop rv rsv chunks => Sys2Proof.Machine.execRscan size stop rv rsv chunks s
  | .trap code rsv => Sys2Proof.Machine.execTrap code rsv s
  | .eret rsv => Sys2Proof.Machine.execEret rsv s
  | .fence mask rsv => Sys2Proof.Machine.execFence mask rsv s
  | .bkpt rsv => Sys2Proof.Machine.execBkpt rsv s
  | .tlbinvAll rsv => Sys2Proof.Machine.execTlbinvAll rsv s
  | .tlbinvAsid ra rsv => Sys2Proof.Machine.execTlbinvAsid ra rsv s
  | .tlbinvVa ra rb rsv => Sys2Proof.Machine.execTlbinvVa ra rb rsv s
  | .clean ra rsv => Sys2Proof.Machine.execClean ra rsv s
  | .inval ra rsv => Sys2Proof.Machine.execInval ra rsv s
  | .flush ra rsv => Sys2Proof.Machine.execFlush ra rsv s
  | .iinval ra rsv => Sys2Proof.Machine.execIinval ra rsv s
  | .zero ra rsv => Sys2Proof.Machine.execZero ra rsv s
  | .post ra rb rsv => Sys2Proof.Machine.execPost ra rb rsv s
  | .wait ra rsv => Sys2Proof.Machine.execWait ra rsv s
  | .trywait rd ra rsv => Sys2Proof.Machine.execTrywait rd ra rsv s
  | .read rd ra rsv => Sys2Proof.Machine.execRead rd ra rsv s
  | .arm ra rb rsv => Sys2Proof.Machine.execArm ra rb rsv s
  | .step rsv => Sys2Proof.Machine.execStep rsv s
  | .draw rd q rsv => Sys2Proof.Machine.execDraw rd q rsv s
  | .sev ev rsv => Sys2Proof.Machine.execSev ev rsv s
  | .sleep rsv => Sys2Proof.Machine.execSleep rsv s
  | .csrr rd ra csr p => Sys2Proof.Machine.execCsrr rd ra csr s p
  | .csrw rd ra csr p => Sys2Proof.Machine.execCsrw rd ra csr s p
  | .csrs rd ra csr p => Sys2Proof.Machine.execCsrs rd ra csr s p
  | .csrc rd ra csr p => Sys2Proof.Machine.execCsrc rd ra csr s p
  | .csrwi rd imm csr p => Sys2Proof.Machine.execCsrwi rd imm csr s p
  | .csrsi rd imm csr p => Sys2Proof.Machine.execCsrsi rd imm csr s p
  | .csrci rd imm csr p => Sys2Proof.Machine.execCsrci rd imm csr s p
  -- 00 R8, any register
  | .registerWrite target value secure => Sys2Proof.Machine.execRegisterWrite target value secure s
  -- 02 winze port
  | .winzeRequest rd ra rb op func p early => Sys2Proof.Machine.execWinzeRequest rd ra rb op func p s early
  | .wzReqTransfer => Sys2Proof.Machine.execWzReqTransfer s
  | .wzRsp tag data dpar status => Sys2Proof.Machine.execWzRsp tag data dpar status s
  | .wzTimeout tag => Sys2Proof.Machine.execWzTimeout s tag
  -- 03 memory system
  | .storeBufferDrain index => Sys2Proof.Machine.execStoreBufferDrain index s
  | .deviceLoadReturn level data poison => Sys2Proof.Machine.execDeviceLoadReturn level data poison s
  | .streamPrefetch tracker va => Sys2Proof.Machine.execStreamPrefetch tracker va s
  | .tscfgWrite value => Sys2Proof.Machine.execTscfgWrite value s
  | .reassignmentEnd => Sys2Proof.Machine.execReassignmentEnd s
  -- 04, 05 translation, banksman
  | .holdLimit slot => Sys2Proof.Machine.execHoldLimit slot s
  | .irq line level => Sys2Proof.Machine.execIrq line level s
  | .nmi => Sys2Proof.Machine.execNmi s
  | .eventEntry => Sys2Proof.Machine.execEventEntry s
  | .taskSwitch => Sys2Proof.Machine.execTaskSwitch s
  | .rladd value => Sys2Proof.Machine.execRladd value s
  | .bankpolWrite value => Sys2Proof.Machine.execBankpolWrite value s
  | .tsbpWrite n value => Sys2Proof.Machine.execTsbpWrite n value s
  | .lazyFill => Sys2Proof.Machine.execLazyFill s
  | .lazyRestore => Sys2Proof.Machine.execLazyRestore s
  | .budgetEnd => Sys2Proof.Machine.execBudgetEnd s
  | .timeSliceSave => Sys2Proof.Machine.execTimeSliceSave s
  | .timeSliceRestore => Sys2Proof.Machine.execTimeSliceRestore s
  -- 06 to 10 The tile extension, its queue, streams, the journal
  | .tcfg rd ra imm12 => Sys2Proof.Machine.execTcfg rd ra imm12 s
  | .tzero rd ra imm12 => Sys2Proof.Machine.execTzero rd ra imm12 s
  | .kzero rd ra imm12 => Sys2Proof.Machine.execKzero rd ra imm12 s
  | .tmov rd ra imm12 => Sys2Proof.Machine.execTmov rd ra imm12 s
  | .tfence rd ra imm12 => Sys2Proof.Machine.execTfence rd ra imm12 s
  | .tloadV tile ra rb rsv7 rsv4 => Sys2Proof.Machine.execTloadV tile ra rb rsv7 rsv4 s
  | .tloadD tile wc ra rb rsv5 rsv4 => Sys2Proof.Machine.execTloadD tile wc ra rb rsv5 rsv4 s
  | .tstoreV tile ra rb rsv7 rsv4 => Sys2Proof.Machine.execTstoreV tile ra rb rsv7 rsv4 s
  | .tstoreD tile wc ra rb rsv5 rsv4 => Sys2Proof.Machine.execTstoreD tile wc ra rb rsv5 rsv4 s
  | .tloadQ tile fmt d ra rb slot rsv => Sys2Proof.Machine.execTloadQ tile fmt d ra rb slot rsv s
  | .tstoreQ tile fmt d ra rb slot rsv => Sys2Proof.Machine.execTstoreQ tile fmt d ra rb slot rsv s
  | .vload v ra rb rsv7 rsv5 => Sys2Proof.Machine.execVload v ra rb rsv7 rsv5 s
  | .vstore v ra rb rsv7 rsv5 => Sys2Proof.Machine.execVstore v ra rb rsv7 rsv5 s
  | .opa kd ta tb rc fa fb rsv => Sys2Proof.Machine.execOpa kd ta tb rc fa fb rsv s
  | .opmax kd ta tb rc fa fb rsv => Sys2Proof.Machine.execOpmax kd ta tb rc fa fb rsv s
  | .opmin kd ta tb rc fa fb rsv => Sys2Proof.Machine.execOpmin kd ta tb rc fa fb rsv s
  | .kout k seam vr kz ra rb slot rsv => Sys2Proof.Machine.execKout k seam vr kz ra rb slot rsv s
  | .seamld rd ra slot sel seam rsv => Sys2Proof.Machine.execSeamld rd ra slot sel seam rsv s
  | .scaleSet rd ra slot sel seam rsv => Sys2Proof.Machine.execScaleSet rd ra slot sel seam rsv s
  | .scaleUpd rd ra slot sel seam rsv => Sys2Proof.Machine.execScaleUpd rd ra slot sel seam rsv s
  | .scaleRd rd ra slot sel seam rsv => Sys2Proof.Machine.execScaleRd rd ra slot sel seam rsv s
  | .stepUpdateEntry => Sys2Proof.Machine.execStepUpdateEntry s
  | .tileEntryStart faults => Sys2Proof.Machine.execTileEntryStart s faults
  | .tileEntryComplete index => Sys2Proof.Machine.execTileEntryComplete index s
  | .tflagsWrite value => Sys2Proof.Machine.execTflagsWrite value s
  | .qdataWrite rd ra => Sys2Proof.Machine.execQdataWrite rd ra s
  | .qdataRead rd => Sys2Proof.Machine.execQdataRead rd s
  | .append portOk => Sys2Proof.Machine.execAppend portOk s
  | .jnlcfgWrite value => Sys2Proof.Machine.execJnlcfgWrite value s
  -- 11 The assay
  | .sameFormatCheck faults => Sys2Proof.Machine.execSameFormatCheck faults s
  | .wideCheck => Sys2Proof.Machine.execWideCheck s
  | .calibrationStep => Sys2Proof.Machine.execCalibrationStep s
  | .calibrationStepClose => Sys2Proof.Machine.execCalibrationStepClose s
  | .d2dTuning channel early late => Sys2Proof.Machine.execD2dTuning channel early late s
  | .ashselClr => Sys2Proof.Machine.execAshselClr s
  -- 16 Fills and parity
  | .stopeColumnFill unit => Sys2Proof.Machine.execStopeColumnFill unit s
  | .tileStoreBankFill unit => Sys2Proof.Machine.execTileStoreBankFill unit s
  | .operandTileRowFill unit => Sys2Proof.Machine.execOperandTileRowFill unit s
  | .registerBankFill unit => Sys2Proof.Machine.execRegisterBankFill unit s
  | .l2WayFill unit => Sys2Proof.Machine.execL2WayFill unit s
  | .fillClose cls => Sys2Proof.Machine.execFillClose cls s
  | .parityError cls clean unit addr part => Sys2Proof.Machine.execParityError cls clean unit addr part s
  -- 12 Haulage
  | .heatEvent miss => Sys2Proof.Machine.execHeatEvent miss s
  | .htage => Sys2Proof.Machine.execHtage s
  | .agingPassEnd => Sys2Proof.Machine.execAgingPassEnd s
  | .htwdataRead => Sys2Proof.Machine.execHtwdataRead s
  | .haulageEpoch => Sys2Proof.Machine.execHaulageEpoch s
  | .migrationTimeout migid => Sys2Proof.Machine.execMigrationTimeout migid s
  | .revoke => Sys2Proof.Machine.execRevoke s
  | .remap => Sys2Proof.Machine.execRemap s
  | .abort => Sys2Proof.Machine.execAbort s
  | .s2invDoorbell => Sys2Proof.Machine.execS2invDoorbell s
  | .release => Sys2Proof.Machine.execRelease s
  | .hint => Sys2Proof.Machine.execHint s
  | .request => Sys2Proof.Machine.execRequest s
  | .ack => Sys2Proof.Machine.execAck s
  | .memberRequestTimeout => Sys2Proof.Machine.execMemberRequestTimeout s
  | .pin count iapg => Sys2Proof.Machine.execPin count iapg s
  | .unpin count iapg => Sys2Proof.Machine.execUnpin count iapg s
  | .promote count iapg => Sys2Proof.Machine.execPromote count iapg s
  | .demote count iapg => Sys2Proof.Machine.execDemote count iapg s
  -- 13 Sync objects, mailboxes, tram, fabric
  | .taskTake => Sys2Proof.Machine.execTaskTake s
  | .takeRetryWait => Sys2Proof.Machine.execTakeRetryWait s
  | .peek p => Sys2Proof.Machine.execPeek p s
  | .peekreply p => Sys2Proof.Machine.execPeekreply p s
  | .take p => Sys2Proof.Machine.execTake p s
  | .takereply p => Sys2Proof.Machine.execTakereply p s
  | .remotePost p => Sys2Proof.Machine.execRemotePost p s
  | .parkedWaiterTake => Sys2Proof.Machine.execParkedWaiterTake s
  | .sodataWrite value => Sys2Proof.Machine.execSodataWrite value s
  | .sowakePop => Sys2Proof.Machine.execSowakePop s
  | .send channel => Sys2Proof.Machine.execSend channel s
  | .mailboxRelease channel => Sys2Proof.Machine.execMailboxRelease channel s
  | .mailboxSendPacket channel => Sys2Proof.Machine.execMailboxSendPacket channel s
  | .mailbox p => Sys2Proof.Machine.execMailbox p s
  | .credit p => Sys2Proof.Machine.execCredit p s
  | .mbcfgWrite channel value => Sys2Proof.Machine.execMbcfgWrite channel value s
  | .trhead channel head => Sys2Proof.Machine.execTrhead channel head s
  | .descriptorStart channel => Sys2Proof.Machine.execDescriptorStart channel s
  | .copy channel => Sys2Proof.Machine.execCopy channel s
  | .copyReduce channel => Sys2Proof.Machine.execCopyReduce channel s
  | .gather channel => Sys2Proof.Machine.execGather channel s
  | .remoteRead channel => Sys2Proof.Machine.execRemoteRead channel s
  | .remoteWrite channel => Sys2Proof.Machine.execRemoteWrite channel s
  | .remoteReduce channel => Sys2Proof.Machine.execRemoteReduce channel s
  | .journalAppend channel => Sys2Proof.Machine.execJournalAppend channel s
  | .digest channel => Sys2Proof.Machine.execDigest channel s
  | .descriptorComplete channel => Sys2Proof.Machine.execDescriptorComplete channel s
  | .trstatWrite value => Sys2Proof.Machine.execTrstatWrite value s
  | .trcfgWrite value => Sys2Proof.Machine.execTrcfgWrite value s
  | .readPacket p => Sys2Proof.Machine.execReadPacket p s
  | .readreply p => Sys2Proof.Machine.execReadreply p s
  | .writePacket p => Sys2Proof.Machine.execWritePacket p s
  | .reducePacket p => Sys2Proof.Machine.execReducePacket p s
  | .ackPacket p => Sys2Proof.Machine.execAckPacket p s
  | .nack p => Sys2Proof.Machine.execNack p s
  | .doorbellReceive p => Sys2Proof.Machine.execDoorbellReceive p s
  | .doorbellSend => Sys2Proof.Machine.execDoorbellSend s
  | .dbpop => Sys2Proof.Machine.execDbpop s
  -- 14 Deputy windows
  | .retry slot => Sys2Proof.Machine.execRetry slot s
  | .decline slot => Sys2Proof.Machine.execDecline slot s
  | .s2inv => Sys2Proof.Machine.execS2inv s
  | .s2invComplete => Sys2Proof.Machine.execS2invComplete s
  | .copyEngineCopy srcl dstl sec irq => Sys2Proof.Machine.execCopyEngineCopy srcl dstl sec irq s
  | .cleanpa irq => Sys2Proof.Machine.execCleanpa irq s
  | .invpa irq => Sys2Proof.Machine.execInvpa irq s
  | .copyEngineCompletion portError => Sys2Proof.Machine.execCopyEngineCompletion portError s
  -- 14 Deputy instructions
  | .deputyMov rd rs rsv => Sys2Proof.Machine.execDeputyMov rd rs rsv s
  | .deputyAdd rd rs rsv => Sys2Proof.Machine.execDeputyAdd rd rs rsv s
  | .deputyAdc rd rs rsv => Sys2Proof.Machine.execDeputyAdc rd rs rsv s
  | .deputySub rd rs rsv => Sys2Proof.Machine.execDeputySub rd rs rsv s
  | .deputySbc rd rs rsv => Sys2Proof.Machine.execDeputySbc rd rs rsv s
  | .cmp rd rs rsv => Sys2Proof.Machine.execCmp rd rs rsv s
  | .deputyAnd rd rs rsv => Sys2Proof.Machine.execDeputyAnd rd rs rsv s
  | .deputyOr rd rs rsv => Sys2Proof.Machine.execDeputyOr rd rs rsv s
  | .deputyXor rd rs rsv => Sys2Proof.Machine.execDeputyXor rd rs rsv s
  | .tst rd rs rsv => Sys2Proof.Machine.execTst rd rs rsv s
  | .deputyShl rd rs rsv => Sys2Proof.Machine.execDeputyShl rd rs rsv s
  | .deputyShr rd rs rsv => Sys2Proof.Machine.execDeputyShr rd rs rsv s
  | .deputySar rd rs rsv => Sys2Proof.Machine.execDeputySar rd rs rsv s
  | .deputyMul rd rs rsv => Sys2Proof.Machine.execDeputyMul rd rs rsv s
  | .deputyDivu rd rs rsv => Sys2Proof.Machine.execDeputyDivu rd rs rsv s
  | .deputyRemu rd rs rsv => Sys2Proof.Machine.execDeputyRemu rd rs rsv s
  | .movl rd imm => Sys2Proof.Machine.execMovl rd imm s
  | .movh rd imm => Sys2Proof.Machine.execMovh rd imm s
  | .deputyAddi rd imm => Sys2Proof.Machine.execDeputyAddi rd imm s
  | .deputyLd rd d8 => Sys2Proof.Machine.execDeputyLd rd d8 s
  | .deputySt rd d8 => Sys2Proof.Machine.execDeputySt rd d8 s
  | .ldw rd ra mode => Sys2Proof.Machine.execLdw rd ra mode s
  | .ldb rd ra mode => Sys2Proof.Machine.execLdb rd ra mode s
  | .stw rd ra mode => Sys2Proof.Machine.execStw rd ra mode s
  | .stb rd ra mode => Sys2Proof.Machine.execStb rd ra mode s
  | .push rd rsvRa rsvMode => Sys2Proof.Machine.execPush rd rsvRa rsvMode s
  | .pop rd rsvRa rsvMode => Sys2Proof.Machine.execPop rd rsvRa rsvMode s
  | .specialMoveGetSp rd rsvMode => Sys2Proof.Machine.execSpecialMoveGetSp rd rsvMode s
  | .specialMoveSetSp rd rsvMode => Sys2Proof.Machine.execSpecialMoveSetSp rd rsvMode s
  | .specialMoveGetFlags rd rsvMode => Sys2Proof.Machine.execSpecialMoveGetFlags rd rsvMode s
  | .specialMoveSetFlags rd rsvMode => Sys2Proof.Machine.execSpecialMoveSetFlags rd rsvMode s
  | .specialMoveGetBank rd rsvMode => Sys2Proof.Machine.execSpecialMoveGetBank rd rsvMode s
  | .specialMoveSetBank rd rsvMode => Sys2Proof.Machine.execSpecialMoveSetBank rd rsvMode s
  | .bcc cond d off => Sys2Proof.Machine.execBcc cond d off s
  | .jmp d rs rsv => Sys2Proof.Machine.execJmp d rs rsv s
  | .deputyCall d rs rsv => Sys2Proof.Machine.execDeputyCall d rs rsv s
  | .bra d off => Sys2Proof.Machine.execBra d off s
  | .deputyCallr d off => Sys2Proof.Machine.execDeputyCallr d off s
  | .nop => Sys2Proof.Machine.execNop s
  | .deputyRet => Sys2Proof.Machine.execDeputyRet s
  | .retD => Sys2Proof.Machine.execRetD s
  | .reti => Sys2Proof.Machine.execReti s
  | .ei => Sys2Proof.Machine.execEi s
  | .di => Sys2Proof.Machine.execDi s
  | .deputyWait => Sys2Proof.Machine.execDeputyWait s
  | .rptMovw => Sys2Proof.Machine.execRptMovw s
  | .rptMovb => Sys2Proof.Machine.execRptMovb s
  | .rptFillw => Sys2Proof.Machine.execRptFillw s
  | .rptFillb => Sys2Proof.Machine.execRptFillb s
  | .rptCmpw => Sys2Proof.Machine.execRptCmpw s
  | .rptCmpb => Sys2Proof.Machine.execRptCmpb s
  | .swi => Sys2Proof.Machine.execSwi s
  -- 14 Deputy vectors, watchdog, windows
  | .interruptEntry => Sys2Proof.Machine.execInterruptEntry s
  | .watchdogFirstStage => Sys2Proof.Machine.execWatchdogFirstStage s
  | .watchdogRecord => Sys2Proof.Machine.execWatchdogRecord s
  | .wdkick value => Sys2Proof.Machine.execWdkick value s
  | .timerExpiry => Sys2Proof.Machine.execTimerExpiry s
  | .pmdataWrite value => Sys2Proof.Machine.execPmdataWrite value s
  | .pmctlWrite value => Sys2Proof.Machine.execPmctlWrite value s
  | .coreWindowRead offset => Sys2Proof.Machine.execCoreWindowRead offset s
  | .coreWindowWrite offset value secure => Sys2Proof.Machine.execCoreWindowWrite offset value secure s
  | .windowWritePerform => Sys2Proof.Machine.execWindowWritePerform s
  -- 15 to 17 Boot, dictionary, power, debug
  | .powerOnBoot freePages members badBlocks => Sys2Proof.Machine.execPowerOnBoot freePages members s badBlocks
  | .fuseRdy => Sys2Proof.Machine.execFuseRdy s
  | .dictionaryRead arrival firmware => Sys2Proof.Machine.execDictionaryRead arrival firmware s
  | .dictionaryWrite arrival firmware => Sys2Proof.Machine.execDictionaryWrite arrival firmware s
  | .blockRead arrival firmware => Sys2Proof.Machine.execBlockRead arrival firmware s
  | .dictionaryAnswer more => Sys2Proof.Machine.execDictionaryAnswer more s
  | .dictionaryTimeout => Sys2Proof.Machine.execDictionaryTimeout s
  | .notify => Sys2Proof.Machine.execNotify s
  | .dictionaryStoreWrite => Sys2Proof.Machine.execDictionaryStoreWrite s
  | .tallyPersist => Sys2Proof.Machine.execTallyPersist s
  | .telemetrySample temp vmon => Sys2Proof.Machine.execTelemetrySample temp vmon s
  | .dumpReq => Sys2Proof.Machine.execDumpReq s
  | .readResponse channel id granule data poison err parity => Sys2Proof.Machine.execReadResponse channel id granule data poison err parity s
  | .writeResponse src channel granule err left => Sys2Proof.Machine.execWriteResponse src channel granule err left s
  | .responseTimeout write src channel granule => Sys2Proof.Machine.execResponseTimeout write src channel granule s
  | .pdCoreOff => Sys2Proof.Machine.execPdCoreOff s
  | .pdCoreOn => Sys2Proof.Machine.execPdCoreOn s
  | .pdTileOff => Sys2Proof.Machine.execPdTileOff s
  | .pdTileOn => Sys2Proof.Machine.execPdTileOn s
  | .pdStoreOff => Sys2Proof.Machine.execPdStoreOff s
  | .pdStoreRetention => Sys2Proof.Machine.execPdStoreRetention s
  | .pdStoreOn => Sys2Proof.Machine.execPdStoreOn s
  | .pwrAck domain level => Sys2Proof.Machine.execPwrAck domain level s
  | .pwrRetackStore level => Sys2Proof.Machine.execPwrRetackStore level s
  | .pwrAckTimeout domain => Sys2Proof.Machine.execPwrAckTimeout domain s
  | .vidOk => Sys2Proof.Machine.execVidOk s
  | .corerstAssert => Sys2Proof.Machine.execCorerstAssert s
  | .corerstRelease => Sys2Proof.Machine.execCorerstRelease s
  | .aonReset => Sys2Proof.Machine.execAonReset s
  | .ringRead tap addr => Sys2Proof.Machine.execRingRead tap addr s
  | .ringWrite tap addr data => Sys2Proof.Machine.execRingWrite tap addr data s
  | .halt tap => Sys2Proof.Machine.execHalt tap s
  | .resume tap => Sys2Proof.Machine.execResume tap s
  | .debugStep tap => Sys2Proof.Machine.execDebugStep tap s
  | .freeze => Sys2Proof.Machine.execFreeze s
  | .fieldNetworkFrame ident fd frame dlc => Sys2Proof.Machine.execFieldNetworkFrame ident fd frame s dlc
  | .busOffRecovery => Sys2Proof.Machine.execBusOffRecovery s
  | .reservedPacketType ty => Sys2Proof.Machine.execReservedPacketType ty s
  | .fabricCreditReturn vc flits => Sys2Proof.Machine.execFabricCreditReturn vc flits s
  | .tapReset => Sys2Proof.Machine.execTapReset s
  | .tapInstructionLoad ir => Sys2Proof.Machine.execTapInstructionLoad ir s

end Sys2Proof.Machine
end

