-- ==== Sys2Proof/Safety.lean ====
section
/-! DEFINITION. What claims are stated in: how a command ends, what the spec hard-wires, and what a frame compares. -/

namespace Sys2Proof

open Sys2Proof.Machine

/-! ### How a command ends -/

/-- The command answers the next state `t`, with what the spec hard-wires as it was. -/
def Yields (c : Instr) (s t : State) : Prop := exec c s = .next (hardwire s t)

/-- The scalar core issues an instruction in `s`, and it executes in `u`: the core runs, no deferred fault, breakpoint or fetch fault
comes first (02 R59, R62, 03 R77, 17 R398). -/
def Issues (s u : State) : Prop := s.preIssue = .go u

/-- An instruction of the scalar core completes, its work leaving `r`: PC advances or the loop decides, and it is counted. -/
def Completes (c : Instr) (s r : State) : Prop := Yields c s r.advancePc.retire

/-- An instruction of the scalar core completes with a transfer of control. -/
def Jumps (c : Instr) (s r : State) (target : Word) : Prop := Yields c s (r.setPc target).retire

/-- An instruction of the scalar core raises an exception in `r` (05 R130). -/
def Traps (c : Instr) (s r : State) (e : Exc) : Prop := Yields c s (r.takeException e)

/-- An instruction of the scalar core completes with rd := r and FL := f. -/
def Writes (c : Instr) (s u : State) (rd : RegIx) (r : Word) (f : Flags) : Prop := Completes c s ((u.writeG rd r).setFl f)

/-- N and Z of a result with C and V given. -/
def flagsOf (r : Word) (c v : Bool) : Flags := { n := r.msb, z := decide (r = 0), c := c, v := v }

/-- The deputy executes the instruction at PC: it has not stopped and does not wait, PC names a good word of program memory, and no
delayed branch has its slot here (14 R303, R304, R306, R310). -/
def DepReady (s : State) : Prop :=
  s.dep.halted = false ∧ s.dep.waiting = false ∧ progHole s.dep.pc = false ∧ s.dep.fetchBad = false ∧ s.dep.pair = none

/-- The next word lies on the same side of the extension region's border (14 R326). -/
def DepStraight (s : State) : Prop := inExt s.dep.pc = inExt (s.dep.pc + 1)

/-- The machine `t` with the deputy `d`, which goes on at an address. -/
def depAt (t : State) (d : Deputy) (pc : Half) : State := { t with dep := { d with pc := pc, pair := none, retiShadow := false } }

/-- An instruction of the deputy completes in `s`, having led to `t` with the deputy `d`, and goes on with the next word. -/
def DepDone (c : Instr) (s t : State) (d : Deputy) : Prop := Yields c s (depAt t d (s.dep.pc + 1))

/-- N and Z of a deputy's result with C and V given. -/
def halfFlagsOf (r : Half) (c v : Bool) : Flags := { n := r.msb, z := decide (r = 0), c := c, v := v }

/-- A tile instruction of `u` passes steps 2 to 5 of 06 R162: PD_TILE is on and not retired, TCTL.EN is set, the privilege suffices, and its
context has or obtains the tile extension, which leaves `v`; and the queue has a place. -/
def TilePasses (u v : State) : Prop :=
  u.pwr.tile = .on ∧ u.tileRetired = false ∧ u.tile.en = true ∧ (u.super = true ∨ u.tile.uen = true) ∧ u.obtainTile = .ok v
    ∧ v.tile.queue.length < 16

/-- A tile instruction completes by entering the queue (06 R164). -/
def Enters (c : Instr) (s v : State) (op : TileOp) : Prop :=
  Completes c s { v with tile := { v.tile with queue := v.tile.queue ++ [{ op := op, started := false }] } }

/-! ### Invariants -/

/-- The values that the spec hard-wires in the banksman and the core: level 0 is active (05 R109), EV32 and EV63 route to level 7 and EV56
to EV62 to level 0 (05 R120), and EV56 to EV62 are never pending (05 R120). -/
def Hardwired (s : State) : Prop :=
  s.core.active[0] = true ∧ s.bm.evrt[32] = 7 ∧ s.bm.evrt[63] = 7
    ∧ (∀ k : Fin 64, 56 ≤ k.val → k.val < 63 → s.bm.evrt[k] = 0)
    ∧ s.bm.evpend &&& 0x7F00000000000000 = 0

/-- The queue of posted window writes fits its 4 entries (14 R317). -/
def PostsFit (s : State) : Prop := s.dep.wqueue.length ≤ 4

/-! ### Frames -/

/-- Nothing but the scalar core's own state and the tally of its instructions differs: memory, the tile extension, the deputy and every
other unit are as they were. -/
def CoreOnly (s t : State) : Prop :=
  t.mem = s.mem ∧ t.xl = s.xl ∧ t.ts = s.ts ∧ t.pf = s.pf ∧ t.tile = s.tile ∧ t.jnl = s.jnl ∧ t.assay = s.assay ∧ t.dep = s.dep
    ∧ t.ce = s.ce ∧ t.win = s.win ∧ t.hl = s.hl ∧ t.sy = s.sy ∧ t.mb = s.mb ∧ t.tr = s.tr ∧ t.fab = s.fab ∧ t.dict = s.dict
    ∧ t.can = s.can ∧ t.pwr = s.pwr ∧ t.straps = s.straps ∧ t.dbg = s.dbg ∧ t.wz = s.wz

/-- Memory, its caches and the store buffer are as they were: at most a read request stands at the memory port. -/
def SameMemory (s t : State) : Prop := t.mem = { s.mem with mrq := t.mem.mrq }

/-- Nothing but the deputy differs. -/
def DeputyOnly (s t : State) : Prop := ∃ d, t = { s with dep := d }

end Sys2Proof
end

