-- ==== Sys2Proof/Certificates/Slice0/Obligations.lean ====
section
/-! DEFINITION. What is claimed of the model: one definition per statement, its rules of the spec named. -/

open Sys2Proof Sys2Proof.Machine

/-! ### The queue, what is hard-wired, reset -/

/-- A step with a command at the front of the queue is exec of that command on the state with the queue's rest. -/
def Obligations.StepRunsFrontCommand : Prop :=
  ∀ (c : Instr) (s : State), step { s with pending := c :: s.pending } = exec c s

/-- Whatever the state, every step that answers leaves level 0 active, the fixed event routes and the reserved events as the spec has them
(05 R109, R120), and the build options as they were. -/
def Obligations.StepKeepsHardwiredFields : Prop :=
  ∀ s t : State, step s = .next t → Hardwired t ∧ t.build = s.build

/-- The state after reset has what the spec hard-wires, canonical memory, an empty queue, and the reset values of Tables 5.11 and 5.12. -/
def Obligations.ResetState : Prop :=
  Hardwired State.reset ∧ Memory.wf State.reset.mem = true ∧ PostsFit State.reset ∧ State.reset.pending = []
    ∧ State.reset.lvl = 0 ∧ State.reset.bank.pc = 0xFFFFFFFFFFFFF800 ∧ State.reset.bank.excm = true ∧ State.reset.bank.ml = 6
    ∧ State.reset.bank.priv = true ∧ State.reset.core.mode = .held

/-- Every command whose operands its table row admits answers a next state in every state, and one whose operands it does not admit is
refused as ill-formed; no command faults. -/
def Obligations.WellFormedCommandsAnswer : Prop :=
  ∀ (c : Instr) (s : State),
    (c.wf = true → ∃ t, exec c s = .next t) ∧ (c.wf = false → exec c s = .refused .illFormed)

/-! ### Scalar core: integer instructions (02) -/

/-- ADD, SUB, ADC, SBC and ADDI, SUBI, ADDSP: result, N and Z, the carry as the unsigned sum's overflow (for a subtraction: no borrow), and V
as the signed result's overflow (R30, R32, R33). -/
def Obligations.AdditionResultAndFlags : Prop :=
  ∀ (s u : State) (rd ra rb : RegIx) (imm : BitVec 16), Issues s u →
    let a := u.readG ra
    let b := u.readG rb
    let i : Word := imm.signExtend 64
    let c := bit u.bank.fl.c
    let sp := u.bank.sp
    Writes (.add rd ra rb 0) s u rd (a + b) (flagsOf (a + b) (decide (2 ^ 64 ≤ a.toNat + b.toNat)) (decide ((a + b).toInt ≠ a.toInt + b.toInt)))
    ∧ Writes (.sub rd ra rb 0) s u rd (a - b) (flagsOf (a - b) (decide (b.toNat ≤ a.toNat)) (decide ((a - b).toInt ≠ a.toInt - b.toInt)))
    ∧ (let r := a + b + wd c
       Writes (.adc rd ra rb 0) s u rd r (flagsOf r (decide (2 ^ 64 ≤ a.toNat + b.toNat + c)) (decide (r.toInt ≠ a.toInt + b.toInt + c))))
    ∧ (let r := a - b - wd (1 - c)
       Writes (.sbc rd ra rb 0) s u rd r
         (flagsOf r (decide (b.toNat + (1 - c) ≤ a.toNat)) (decide (r.toInt ≠ a.toInt - b.toInt - ((1 - c : Nat) : Int)))))
    ∧ Writes (.addi rd ra imm) s u rd (a + i) (flagsOf (a + i) (decide (2 ^ 64 ≤ a.toNat + i.toNat)) (decide ((a + i).toInt ≠ a.toInt + i.toInt)))
    ∧ Writes (.subi rd ra imm) s u rd (a - i) (flagsOf (a - i) (decide (i.toNat ≤ a.toNat)) (decide ((a - i).toInt ≠ a.toInt - i.toInt)))
    ∧ Completes (.addsp 0 0 imm) s ((u.setSp (sp + i)).setFl
        (flagsOf (sp + i) (decide (2 ^ 64 ≤ sp.toNat + i.toNat)) (decide ((sp + i).toInt ≠ sp.toInt + i.toInt))))

/-- The logic operations, minima and maxima, extensions and their immediates: result, N and Z from it, C and V clear (R30, R32, R33).
The shifts by rb[5:0] or the immediate's amount: result, N and Z from it, C the last bit shifted out (for ROR the result's top bit), clear
for an amount of 0, V clear (Table 2.6, R33).
CLZ counts the zeros above the highest set bit, CTZ those below the lowest, POPC the set bits; C is set for an operand of 0 (Table 2.6). -/
def Obligations.LogicShiftAndCountResults : Prop :=
  (
  ∀ (s u : State) (rd ra rb : RegIx) (imm : BitVec 16), Issues s u →
    let a := u.readG ra
    let b := u.readG rb
    let gives (c : Instr) (r : Word) : Prop := Writes c s u rd r (flagsOf r false false)
    gives (.and rd ra rb 0) (a &&& b) ∧ gives (.or rd ra rb 0) (a ||| b) ∧ gives (.xor rd ra rb 0) (a ^^^ b)
    ∧ gives (.andn rd ra rb 0) (a &&& ~~~b)
    ∧ gives (.min rd ra rb 0) (if a.toInt ≤ b.toInt then a else b) ∧ gives (.max rd ra rb 0) (if a.toInt ≤ b.toInt then b else a)
    ∧ gives (.minu rd ra rb 0) (if a.toNat ≤ b.toNat then a else b) ∧ gives (.maxu rd ra rb 0) (if a.toNat ≤ b.toNat then b else a)
    ∧ gives (.sextb rd ra 0 0) ((a.setWidth 8).signExtend 64) ∧ gives (.sexth rd ra 0 0) ((a.setWidth 16).signExtend 64)
    ∧ gives (.sextw rd ra 0 0) ((a.setWidth 32).signExtend 64)
    ∧ gives (.zextb rd ra 0 0) (wd (a.toNat % 2 ^ 8)) ∧ gives (.zexth rd ra 0 0) (wd (a.toNat % 2 ^ 16))
    ∧ gives (.zextw rd ra 0 0) (wd (a.toNat % 2 ^ 32))
    ∧ gives (.andi rd ra imm) (a &&& wd imm.toNat) ∧ gives (.ori rd ra imm) (a ||| wd imm.toNat)
    ∧ gives (.xori rd ra imm) (a ^^^ wd imm.toNat)
  ) ∧ (
  ∀ (s u : State) (rd ra rb : RegIx) (kind : Fin 4) (n : Fin 64), Issues s u →
    let a := u.readG ra
    let k := (u.readG rb).toNat % 64
    let gives (c : Instr) (r : Word) (out : Bool) : Prop := Writes c s u rd r (flagsOf r out false)
    gives (.shl rd ra rb 0) (a <<< k) (k ≠ 0 && a.getLsbD (64 - k))
    ∧ gives (.shr rd ra rb 0) (a >>> k) (k ≠ 0 && a.getLsbD (k - 1))
    ∧ gives (.sar rd ra rb 0) (a.sshiftRight k) (k ≠ 0 && a.getLsbD (k - 1))
    ∧ gives (.ror rd ra rb 0) (a.rotateRight k) (k ≠ 0 && (a.rotateRight k).msb)
    ∧ (let c : Instr := .shi rd ra (BitVec.ofNat 16 (kind.val * 64 + n.val))
       (kind = 0 → gives c (a <<< n.val) (n ≠ 0 && a.getLsbD (64 - n.val)))
       ∧ (kind = 1 → gives c (a >>> n.val) (n ≠ 0 && a.getLsbD (n.val - 1)))
       ∧ (kind = 2 → gives c (a.sshiftRight n.val) (n ≠ 0 && a.getLsbD (n.val - 1)))
       ∧ (kind = 3 → gives c (a.rotateRight n.val) (n ≠ 0 && (a.rotateRight n.val).msb)))
  ) ∧ (
  ∀ (s u : State) (rd ra : RegIx), Issues s u →
    let a := u.readG ra
    let gives (c : Instr) (n : Nat) : Prop := Writes c s u rd (wd n) (flagsOf (wd n) (decide (a = 0)) false)
    (∃ n, n ≤ 64 ∧ gives (.clz rd ra 0 0) n ∧ (∀ i, i < n → a.getLsbD (63 - i) = false) ∧ (n < 64 → a.getLsbD (63 - n) = true))
    ∧ (∃ n, n ≤ 64 ∧ gives (.ctz rd ra 0 0) n ∧ (∀ i, i < n → a.getLsbD i = false) ∧ (n < 64 → a.getLsbD n = true))
    ∧ gives (.popc rd ra 0 0) ((List.range 64).countP (fun i => a.getLsbD i))
  )

/-- The moves: what each writes; FL stays, but for SETFL (R34). -/
def Obligations.MoveResults : Prop :=
  ∀ (s u : State) (rd ra rb : RegIx) (hw : BitVec 2) (imm : BitVec 16) (imm21 : BitVec 21) (cond : BitVec 4), Issues s u →
    let a := u.readG ra
    let k := 16 * hw.toNat
    Completes (.lih rd hw 0 imm) s (u.writeG rd ((imm.signExtend 64 : Word) <<< k))
    ∧ Completes (.inh rd hw 0 imm) s (u.writeG rd ((u.readG rd &&& ~~~((0xFFFF : Word) <<< k)) ||| (imm.setWidth 64 : Word) <<< k))
    ∧ Completes (.flh rd hw 0 imm) s (u.writeG rd (u.readG rd ^^^ (imm.setWidth 64 : Word) <<< k))
    ∧ Completes (.adr rd imm21) s (u.writeG rd (u.bank.pc + (imm21.signExtend 64 : Word) * 4))
    ∧ Completes (.mov rd ra rb 0) s (u.writeG rd a)
    ∧ Completes (.pick rd ra rb cond 0) s (u.writeG rd (if condHolds cond u.bank.fl then a else u.readG rb))
    ∧ Completes (.getsp rd ra rb 0) s (u.writeG rd u.bank.sp)
    ∧ Completes (.setsp rd ra rb 0) s (u.setSp a)
    ∧ Completes (.getfl rd ra rb 0) s (u.writeG rd (u.bank.fl.toBits.setWidth 64))
    ∧ Completes (.setfl rd ra rb 0) s (u.setFl { n := a.getLsbD 3, z := a.getLsbD 2, c := a.getLsbD 1, v := a.getLsbD 0 })

/-- Multiplication: the low half with V where the signed product does not fit, and the high halves of the three products; C clear;
a reserved bit of a multiplication or division raises cause 1 (R35, R26).
Division: quotient and remainder recompose the dividend, the remainder smaller than the divisor and, signed, of the dividend's sign; the
results of a zero divisor and of −2^63 by −1, with V set (R35). -/
def Obligations.MultiplyAndDivideResults : Prop :=
  (
  ∀ (s u : State) (rd ra rb : RegIx), Issues s u →
    let a := u.readG ra
    let b := u.readG rb
    let gives (c : Instr) (r : Word) (v : Bool) : Prop := Writes c s u rd r (flagsOf r false v)
    gives (.mul rd ra rb 0) (a * b) (decide ((a * b).toInt ≠ a.toInt * b.toInt))
    ∧ gives (.mulh rd ra rb 0) (BitVec.ofInt 64 (a.toInt * b.toInt / 2 ^ 64)) false
    ∧ gives (.mulhu rd ra rb 0) (wd (a.toNat * b.toNat / 2 ^ 64)) false
    ∧ gives (.mulhsu rd ra rb 0) (BitVec.ofInt 64 (a.toInt * b.toNat / 2 ^ 64)) false
    ∧ (∀ rsv : BitVec 9, rsv ≠ 0 →
      let undef (c : Instr) (op k : Nat) : Prop := Traps c s u { cause := 1, eaddr := encR2 op rd ra rb k rsv }
      undef (.mul rd ra rb rsv) 0x10 0 ∧ undef (.mulh rd ra rb rsv) 0x10 1 ∧ undef (.mulhu rd ra rb rsv) 0x10 2
      ∧ undef (.mulhsu rd ra rb rsv) 0x10 3 ∧ undef (.div rd ra rb rsv) 0x11 0 ∧ undef (.divu rd ra rb rsv) 0x11 1
      ∧ undef (.rem rd ra rb rsv) 0x11 2 ∧ undef (.remu rd ra rb rsv) 0x11 3)
  ) ∧ (
  ∀ (s u : State) (rd ra rb : RegIx), Issues s u →
    let a := u.readG ra
    let b := u.readG rb
    let gives (c : Instr) (r : Word) (v : Bool) : Prop := Writes c s u rd r (flagsOf r false v)
    let least : Word := 0x8000000000000000
    let ones : Word := 0xFFFFFFFFFFFFFFFF
    (b = 0 → gives (.div rd ra rb 0) ones true ∧ gives (.divu rd ra rb 0) ones true ∧ gives (.rem rd ra rb 0) a true
      ∧ gives (.remu rd ra rb 0) a true)
    ∧ (a = least → b = ones → gives (.div rd ra rb 0) least true ∧ gives (.rem rd ra rb 0) 0 true)
    ∧ (b ≠ 0 → ∃ q r : Word, gives (.divu rd ra rb 0) q false ∧ gives (.remu rd ra rb 0) r false
        ∧ a.toNat = q.toNat * b.toNat + r.toNat ∧ r.toNat < b.toNat)
    ∧ (b ≠ 0 → ¬(a = least ∧ b = ones) → ∃ q r : Word, gives (.div rd ra rb 0) q false ∧ gives (.rem rd ra rb 0) r false
        ∧ a.toInt = q.toInt * b.toInt + r.toInt ∧ r.toInt.natAbs < b.toInt.natAbs ∧ (0 ≤ a.toInt → 0 ≤ r.toInt) ∧ (a.toInt ≤ 0 → r.toInt ≤ 0))
  )

/-- An instruction of the integer groups with a reserved bit set does nothing but raise cause 1, EADDR holding its word (R26).
A CSR instruction without the privilege its register's column asks for raises cause 2, EADDR holding the word and EINFO the number; one that
names no register raises cause 1, EINFO 4; neither changes anything else (R55, 00 R15).
A stack pointer that is not a multiple of 8 raises cause 13 in CALL, CALLR and RET, with nothing pushed or popped (R43 to R45). -/
def Obligations.ReservedRightsAndAlignmentTraps : Prop :=
  (
  ∀ (s u : State) (rd ra rb rsv : RegIx) (rsv9 : BitVec 9) (rsv3 : BitVec 3) (hw : BitVec 2) (imm : BitVec 16), Issues s u →
    (rsv ≠ 0 → Traps (.add rd ra rb rsv) s u { cause := 1, eaddr := encR6 0x00 rd ra rb 0x01 rsv }
      ∧ Traps (.xor rd ra rb rsv) s u { cause := 1, eaddr := encR6 0x00 rd ra rb 0x07 rsv }
      ∧ Traps (.clz rd ra rb rsv) s u { cause := 1, eaddr := encR6 0x00 rd ra rb 0x11 rsv }
      ∧ Traps (.mov rd ra rb rsv) s u { cause := 1, eaddr := encR6 0x0B rd ra rb 0x00 rsv })
    ∧ (rb ≠ 0 → Traps (.clz rd ra rb 0) s u { cause := 1, eaddr := encR6 0x00 rd ra rb 0x11 0 })
    ∧ (rsv9 ≠ 0 → Traps (.mul rd ra rb rsv9) s u { cause := 1, eaddr := encR2 0x10 rd ra rb 0 rsv9 }
      ∧ Traps (.div rd ra rb rsv9) s u { cause := 1, eaddr := encR2 0x11 rd ra rb 0 rsv9 })
    ∧ (rsv3 ≠ 0 → Traps (.lih rd hw rsv3 imm) s u { cause := 1, eaddr := encW 0x08 rd hw rsv3 imm })
    ∧ (256 ≤ imm.toNat → Traps (.shi rd ra imm) s u { cause := 1, eaddr := encI 0x06 rd ra imm })
  ) ∧ (
  ∀ (s u : State) (rd ra : RegIx) (csr : BitVec 12) (pe : Bool), Issues s u → (csrOfWinze csr.toNat && u.build.winze) = false →
    (csrRights csr.toNat = none → Traps (.csrw rd ra csr pe) s u { cause := 1, eaddr := encC rd ra csr 1, einfo := 4 }
      ∧ Traps (.csrr rd 0 csr pe) s u { cause := 1, eaddr := encC rd 0 csr 0, einfo := 4 })
    ∧ (∀ row, csrRights csr.toNat = some row → row.read = .super → u.super = false →
        Traps (.csrw rd ra csr pe) s u { cause := 2, eaddr := encC rd ra csr 1, einfo := wd (csr.toNat + 2 ^ 12) }
        ∧ Traps (.csrr rd 0 csr pe) s u { cause := 2, eaddr := encC rd 0 csr 0, einfo := wd (csr.toNat + 2 ^ 12) })
  ) ∧ (
  ∀ (s u : State) (o26 : BitVec 26) (ra : RegIx), Issues s u → u.bank.sp.toNat % 8 ≠ 0 →
    (∃ e, Traps (.call o26) s u e ∧ e.cause = 13 ∧ e.eaddr = u.bank.sp - 8)
    ∧ ((u.readG ra).toNat % 4 = 0 → ∃ e, Traps (.callr ra 0) s u e ∧ e.cause = 13 ∧ e.eaddr = u.bank.sp - 8)
    ∧ (∃ e, Traps (.ret 0) s u e ∧ e.cause = 13 ∧ e.eaddr = u.bank.sp ∧ e.einfo.getLsbD 32 = true)
  )

/-! ### Exceptions, the hardware loop, frames (02, 05) -/

/-- Taking an exception where EXCM = 0 below level 7: EPC holds the faulting instruction's address unless given, ECAUSE, EADDR and EINFO what
the exception says, PPRIV the privilege; the level goes on in Supervisor with EXCM = 1 at the cause's vector; every other register and every
other level stays (05 R130), and the winze requests of later instructions are cancelled (02 R59); cause 25 is counted (16 R363).
An exception where EXCM = 1 below level 7 escalates: level 7 is entered in Supervisor at the vector of cause 31, EINFO naming the original
cause and level, EADDR and EPC the original ones, and EV63 is pending (05 R131); at level 7 the core stops, and the deputy is told (R132). -/
def Obligations.ExceptionEntryAndEscalation : Prop :=
  (
  ∀ (s : State) (e : Exc), s.lvl ≠ 7 → s.bank.excm = false → e.cause < 32 →
    let t := s.takeException e
    t.bank = { s.bank with
      epc := e.epc.getD s.bank.pc, ecause := BitVec.ofNat 6 e.cause, eaddr := e.eaddr, einfo := e.einfo, ppriv := s.bank.priv, priv := true,
      excm := true, pc := 0xFFFFFFFFFFFFF800 + 32 * wd e.cause }
    ∧ t.lvl = s.lvl ∧ (∀ l, l ≠ s.lvl → t.bankOf l = s.bankOf l) ∧ CoreOnly s { t with wz := s.wz } ∧ t.bm = s.bm
    ∧ t.wz.early = [] ∧ t.wz.req = s.wz.req ∧ (s.wz.early = [] → t.wz = s.wz)
    ∧ t.res = (if e.cause = 25 then s.tallyInc 0x30 else s).res
  ) ∧ (
  ∀ (s : State) (e : Exc), e.cause < 32 →
    (s.lvl ≠ 7 → s.bank.excm = true → s.pwr.latching = false →
      let t := s.takeException e
      t.lvl = 7 ∧ (t.bankOf 7).priv = true ∧ (t.bankOf 7).excm = true ∧ (t.bankOf 7).ecause = 31
        ∧ (t.bankOf 7).pc = 0xFFFFFFFFFFFFF800 + 32 * 31 ∧ (t.bankOf 7).epc = e.epc.getD s.bank.pc ∧ (t.bankOf 7).eaddr = e.eaddr
        ∧ (t.bankOf 7).einfo.toNat = 2 ^ 63 + e.cause * 2 ^ 56 + s.lvl.val * 2 ^ 53 + e.einfo.toNat % 2 ^ 32
        ∧ t.bm.evpend.getLsbD 63 = true)
    ∧ (s.lvl = 7 → (s.takeException e).core.mode = .frozen ∧ (s.takeException e).dep.ipend.getLsbD 13 = true
        ∧ (s.takeException e).core.banks = s.core.banks)
  )

/-- The loop-end decision: an instruction that completes at LE with LC ≠ 0 lowers LC and goes back to LB until LC is 0, then on to LE + 4; any
other that completes goes on to PC + 4 with the loop registers as they are; one that transfers control, at LE too, takes effect with LC
unchanged (R47). -/
def Obligations.LoopEndDecision : Prop :=
  ∀ (c : Instr) (s r : State),
    let b := r.bank
    (Completes c s r →
      (b.lc ≠ 0 → b.pc = b.le → Yields c s (r.setBank { b with lc := b.lc - 1, pc := if b.lc - 1 ≠ 0 then b.lb else b.le + 4 }).retire)
      ∧ ((b.lc = 0 ∨ b.pc ≠ b.le) → Yields c s (r.setBank { b with pc := b.pc + 4 }).retire))
    ∧ (∀ target, Jumps c s r target → Yields c s (r.setBank { b with pc := target }).retire)

/-- The frame of the register ALU operations, the immediates, multiplication and division, without single step or a debug step: every register
but rd and SP stay, as do the exception registers, memory and every unit outside the core, and the FP registers. -/
def Obligations.IntegerFrame : Prop :=
  ∀ (c : Instr) (s u t : State) (rd ra rb : RegIx) (imm : BitVec 16), Issues s u →
    u.core.stepGrant = false → u.core.dbgStep = 0 →
    c ∈ [Instr.add rd ra rb 0, .sub rd ra rb 0, .adc rd ra rb 0, .sbc rd ra rb 0, .and rd ra rb 0, .or rd ra rb 0, .xor rd ra rb 0,
      .andn rd ra rb 0, .shl rd ra rb 0, .shr rd ra rb 0, .sar rd ra rb 0, .ror rd ra rb 0, .min rd ra rb 0, .max rd ra rb 0,
      .minu rd ra rb 0, .maxu rd ra rb 0, .addi rd ra imm, .subi rd ra imm, .andi rd ra imm, .ori rd ra imm, .xori rd ra imm,
      .mul rd ra rb 0, .mulh rd ra rb 0, .mulhu rd ra rb 0, .mulhsu rd ra rb 0, .div rd ra rb 0, .divu rd ra rb 0, .rem rd ra rb 0,
      .remu rd ra rb 0] →
    exec c s = .next t →
      (∀ q, q ≠ rd → t.readG q = u.readG q) ∧ t.bank.sp = u.bank.sp ∧ t.bank.epc = u.bank.epc ∧ t.bank.ecause = u.bank.ecause
      ∧ t.bank.eaddr = u.bank.eaddr ∧ t.bank.einfo = u.bank.einfo ∧ t.bank.esave = u.bank.esave ∧ t.bank.priv = u.bank.priv
      ∧ t.bank.excm = u.bank.excm ∧ t.bank.ml = u.bank.ml ∧ t.bank.lb = u.bank.lb ∧ t.bank.le = u.bank.le
      ∧ t.core.fprm = u.core.fprm ∧ t.core.fpstat = u.core.fpstat ∧ t.lvl = u.lvl
      ∧ (∀ l, l ≠ u.lvl → t.bankOf l = u.bankOf l) ∧ CoreOnly u t

/-! ### Scalar core: floating point (02 R36 to R39) -/

/-- The floating-point instructions on F64, F32 and BF16: rd holds the operation's result on the operands' low bits in FPCTL's rounding mode,
with the upper bits clear, FL follows R37, and the exceptions raised are added to FPSTAT; FNEG and FABS change only the sign bit. -/
def Obligations.FloatResults : Prop :=
  ∀ (s u : State) (p : FpFormat) (rd ra rb rc : RegIx) (rtz : Bool) (neg : BitVec 2), Issues s u →
    let q := fpParams p
    let x := fpOperand p (u.readG ra)
    let y := fpOperand p (u.readG rb)
    let bitsA := fpBits p (u.readG ra)
    let top := 2 ^ (q.width - 1)
    let rm := u.rounding
    let gives (c : Instr) (d : FpFormat) (r : FpResult) : Prop :=
      Completes c s (((u.writeG rd (wd r.bits)).setFl (fpFlags (fpParams d) r.bits r.exc.nx)).raiseFp r.exc)
    let givesInt (c : Instr) (lo hi : Int) : Prop :=
      let v := fpToInt (if rtz then .zero else rm) lo hi x
      let r : Word := BitVec.ofInt 64 v.1
      Completes c s (((u.writeG rd r).setFl { n := r.msb, z := decide (r = 0), c := v.2.2, v := v.2.1 }).raiseFp { nv := v.2.1, nx := v.2.2 })
    gives (.fadd p rd ra rb 0) p (fpAdd q rm x y) ∧ gives (.fsub p rd ra rb 0) p (fpAdd q rm x y.flip)
    ∧ gives (.fmul p rd ra rb 0) p (fpMul q rm x y) ∧ gives (.fdiv p rd ra rb 0) p (fpDiv q rm x y)
    ∧ gives (.fsqrt p rd ra 0 0) p (fpSqrt q rm x)
    ∧ gives (.fmin p rd ra rb 0) p (fpMinMax q false bitsA (fpBits p (u.readG rb)))
    ∧ gives (.fmax p rd ra rb 0) p (fpMinMax q true bitsA (fpBits p (u.readG rb)))
    ∧ gives (.fneg p rd ra rb 0) p { bits := if bitsA < top then bitsA + top else bitsA - top }
    ∧ gives (.fabs p rd ra rb 0) p { bits := bitsA % top }
    ∧ gives (.fcvtF64 p rd ra rb 0) .f64 (fpConvert (fpParams .f64) rm x)
    ∧ gives (.fcvtF32 p rd ra rb 0) .f32 (fpConvert (fpParams .f32) rm x)
    ∧ gives (.fcvtBf16 p rd ra rb 0) .bf16 (fpConvert (fpParams .bf16) rm x)
    ∧ gives (.icvtf p rd ra rb 0) p (fpOfInt q rm (u.readG ra).toInt) ∧ gives (.ucvtf p rd ra rb 0) p (fpOfInt q rm (u.readG ra).toNat)
    ∧ givesInt (.fcvti p rd ra rb rtz 0) (-(2 ^ 63)) (2 ^ 63 - 1) ∧ givesInt (.fcvtu p rd ra rb rtz 0) 0 (2 ^ 64 - 1)
    ∧ (∀ prec : BitVec 2, fmaFormat prec = some p → gives (.fma rd ra rb rc prec neg 0) p
        (fpFma q rm (if neg.getLsbD 1 then x.flip else x) y
          (if neg.getLsbD 0 then (fpOperand p (u.readG rc)).flip else fpOperand p (u.readG rc))))
    ∧ (∃ nv, Completes (.fcmp p 0 ra rb 0) s ((u.setFl (compareFlags (fpCompare x y))).raiseFp { nv := nv })
        ∧ ((x.isSnan || y.isSnan) = true → nv = true) ∧ ((x.isNan || y.isNan) = false → nv = false))

/-! ### Scalar core: loads, stores, atomics (02 R40, R41) -/

/-- LD, LDX: an access that succeeds writes rt with the value, zero- or sign-extended; ST, STX: one that succeeds completes with the state the
store leaves; each at its effective address, ord asking for acquire or release (R40). An LD or ST whose access faults raises its exception.
A value stored through the buffer is what a load of the same place and size gives, whatever its type and whatever was buffered before, but
for a side-effect page (03 R75). -/
def Obligations.LoadStoreResults : Prop :=
  (
  ∀ (s u t : State) (rt ra rb : RegIx) (size : BitVec 2) (sx ord sh : Bool) (off : BitVec 12) (v : Nat) (e : Exc), Issues s u →
    let n := 2 ^ size.toNat
    let base := if ra = 0 then u.bank.sp else u.readG ra
    let a := base + (off.signExtend 64 : Word) * wd n
    let x := base + (u.readG rb <<< (if sh then size.toNat else 0))
    (u.load a n ord = .ok t v → Completes (.ld rt ra size sx ord off) s (t.writeG rt (extendBytes v n sx)))
    ∧ (u.load x n ord = .ok t v → Completes (.ldx rt ra rb size sx ord sh 0) s (t.writeG rt (extendBytes v n sx)))
    ∧ (u.store a n (u.readG rt) ord = .ok t → Completes (.st rt ra size false ord off) s t)
    ∧ (u.store x n (u.readG rt) ord = .ok t → Completes (.stx rt ra rb size false ord sh 0) s t)
    ∧ (u.load a n ord = .exc t e → Traps (.ld rt ra size sx ord off) s t e)
    ∧ (u.store a n (u.readG rt) ord = .exc t e → Traps (.st rt ra size false ord off) s t e)
  ) ∧ (
  ∀ (m : Mem) (ty : MemType) (pa n v : Nat) (release : Bool), 0 < n → n ≤ 8 → ty ≠ .device →
    let e : StoreEntry := { pa := pa, size := n, data := wd (v % 2 ^ (8 * n)), ty := ty, release := release, poison := false }
    ((m.pushStore e).loadThrough ty pa n).2 = (v % 2 ^ (8 * n), false)
  )

/-- The atomics: the address is the base register; the old value goes to rd and the new one, computed from it, from rb and, for CAS, from rd, to
memory, by one access of 4 or 8 bytes (R41). -/
def Obligations.AtomicResults : Prop :=
  ∀ (s u : State) (rd ra rb : RegIx) (wide : Bool) (ord : BitVec 2), Issues s u →
    let n := if wide then 8 else 4
    let b := (u.readG rb).toNat % 2 ^ (8 * n)
    let d := (u.readG rd).toNat % 2 ^ (8 * n)
    let base := if ra = 0 then u.bank.sp else u.readG ra
    let gives (op : Nat) (c : Instr) (f : Nat → Nat) : Prop :=
      ∀ t v, u.atomic op base n f = .ok t v → Completes c s (t.writeG rd (wd v))
    gives 0 (.atomicAdd rd ra rb wide ord 0) (fun old => (old + b) % 2 ^ (8 * n)) ∧ gives 1 (.atomicSwap rd ra rb wide ord 0) (fun _ => b)
    ∧ gives 2 (.atomicCas rd ra rb wide ord 0) (fun old => if old = d then b else old)
    ∧ gives 3 (.atomicMin rd ra rb wide ord 0) (fun old => if signedBytes b n < signedBytes old n then b else old)
    ∧ gives 4 (.atomicMax rd ra rb wide ord 0) (fun old => if signedBytes old n < signedBytes b n then b else old)
    ∧ gives 5 (.atomicMinu rd ra rb wide ord 0) (fun old => if b < old then b else old)
    ∧ gives 6 (.atomicMaxu rd ra rb wide ord 0) (fun old => if old < b then b else old)

/-- The frame of ST, at the parts its address translates and splits into: registers, exception registers and every unit but memory and the
tile-store window's counts stay; while the store buffer has a place, nothing of memory but the buffer and on-core bytes changes; and, once the
buffer has drained, every byte outside the parts is as it was, as the coherent agents see it, and on-core; memory keeps its canonical form. -/
def Obligations.StoreFrame : Prop :=
  ∀ (s u v t : State) (rt ra : RegIx) (size : BitVec 2) (ord : Bool) (off : BitVec 12) (parts : List (Loc × Nat)), Issues s u →
    u.core.stepGrant = false → u.core.dbgStep = 0 → Memory.wf v.mem = true →
    u.checkParts .store (u.eaOffset ra size off) (2 ^ size.toNat) = .ok v parts →
    exec (.st rt ra size false ord off) s = .next t →
      (∀ r, t.readG r = v.readG r) ∧ t.bank.sp = v.bank.sp ∧ t.bank.fl = v.bank.fl ∧ t.bank.epc = v.bank.epc ∧ t.bank.ecause = v.bank.ecause
      ∧ t.lvl = v.lvl ∧ t.tile = v.tile ∧ t.dep = v.dep ∧ t.sy = v.sy ∧ t.hl = v.hl ∧ t.xl = v.xl
      ∧ (v.mem.sb.length < 63 → t.mem = { v.mem with sb := t.mem.sb, onCore := t.mem.onCore } ∧ v.mem.sb <+: t.mem.sb)
      ∧ (∀ a : Nat, (∀ pa ty n, (Loc.phys pa ty, n) ∈ parts → ¬(pa ≤ a ∧ a < pa + n)) →
          t.mem.drain.byte a = v.mem.drain.byte a)
      ∧ Memory.wf t.mem = true
      ∧ (∀ o : Nat, (∀ k n, (Loc.onCore k, n) ∈ parts → ¬(k ≤ o ∧ o < k + n)) → smGet 0 o t.mem.onCore = smGet 0 o v.mem.onCore)

/-! ### Scalar core: transfers of control (02 R42 to R47) -/

/-- BRC, BR, JR, CALL, CALLR, RET, LOOP and LOOPI: where control goes, what CALL pushes and RET pops, and what LOOP arms or skips.
TRAP raises cause 23 with its code in EINFO, BKPT cause 24 with its own address; ERET within a level goes back to EPC with PPRIV's
privilege and EXCM clear; ERET of level 0 outside an exception is undefined, and one to an address that is not a multiple of 4 raises cause
3; at User privilege ERET raises cause 2 (R54, 05 R128). -/
def Obligations.TransfersTrapsAndReturn : Prop :=
  (
  ∀ (s u t : State) (cond : BitVec 4) (o22 : BitVec 22) (o26 : BitVec 26) (ra : RegIx) (len : BitVec 16) (count : BitVec 10) (v : Nat),
    Issues s u →
    let pc := u.bank.pc
    let sp := u.bank.sp
    let g := u.readG ra
    let armed (n : Word) : State := u.setBank { u.bank with lc := n, lb := pc + 4, le := pc + 4 * (len.setWidth 64 : Word) }
    (condHolds cond u.bank.fl = true → Jumps (.brc cond o22) s u (pc + (o22.signExtend 64 : Word) * 4))
    ∧ (condHolds cond u.bank.fl = false → Completes (.brc cond o22) s u)
    ∧ Jumps (.br o26) s u (pc + (o26.signExtend 64 : Word) * 4)
    ∧ (g.toNat % 4 = 0 → Jumps (.jr ra 0) s u g)
    ∧ (g.toNat % 4 ≠ 0 → Traps (.jr ra 0) s u { cause := 3, eaddr := g } ∧ Traps (.callr ra 0) s u { cause := 3, eaddr := g })
    ∧ (sp.toNat % 8 = 0 → u.store (sp - 8) 8 (pc + 4) false = .ok t →
        Jumps (.call o26) s (t.setSp (sp - 8)) (pc + (o26.signExtend 64 : Word) * 4)
        ∧ (g.toNat % 4 = 0 → Jumps (.callr ra 0) s (t.setSp (sp - 8)) g))
    ∧ (sp.toNat % 8 = 0 → u.load sp 8 = .ok t v → v % 4 = 0 → Jumps (.ret 0) s (t.setSp (t.bank.sp + 8)) (wd v))
    ∧ (len ≠ 0 → g ≠ 0 → Completes (.loop ra len 0) s (armed g))
    ∧ (len ≠ 0 → count ≠ 0 → Completes (.loopi count len) s (armed (count.setWidth 64)))
    ∧ (len ≠ 0 → g = 0 → Jumps (.loop ra len 0) s u (pc + 4 * ((len.setWidth 64 : Word) + 1)))
    ∧ (len ≠ 0 → count = 0 → Jumps (.loopi count len) s u (pc + 4 * ((len.setWidth 64 : Word) + 1)))
  ) ∧ (
  ∀ (s u : State) (code : BitVec 12), Issues s u →
    let b := u.bank
    Traps (.trap code 0) s u { cause := 23, einfo := code.setWidth 64 }
    ∧ Traps (.bkpt 0) s u { cause := 24, eaddr := b.pc }
    ∧ (b.priv = true → b.excm = true → u.lvl ≠ 7 → u.core.active[u.lvl] = true → b.epc.toNat % 4 = 0 → ∃ t, exec (.eret 0) s = .next t ∧
        t.lvl = u.lvl ∧ (u.core.dbgStep = 0 → t.bank = { b with pc := b.epc, priv := b.ppriv, excm := false }))
    ∧ (b.priv = true → b.excm = false → u.lvl = 0 → Traps (.eret 0) s u { cause := 1, eaddr := 0xB4000001 })
    ∧ (b.priv = true → b.excm = true → u.lvl ≠ 7 → b.epc.toNat % 4 ≠ 0 → Traps (.eret 0) s u { cause := 3, eaddr := b.epc })
    ∧ (b.priv = false → Traps (.eret 0) s u { cause := 2, eaddr := 0xB4000001 })
  )

/-! ### Scalar core: string instructions (02 R49 to R53) -/

/-- A string instruction whose count G28 is 0 completes at once, RCMP and RSCAN with FL clear (R49, R50); and an RFILL or RMOV of one element
that is stored completes with G28 at 0, the addresses it moves advanced by the element's size and its answered device reads consumed. -/
def Obligations.StringResults : Prop :=
  ∀ (s u t : State) (size : BitVec 2) (stop : Bool) (rv : RegIx), Issues s u →
    let n := 2 ^ size.toNat
    let clear : Flags := { n := false, z := false, c := false, v := false }
    let next (t : State) (src dst : Bool) : State :=
      let t0 := t.consumeData
      let t1 := t0.writeG 28 (t0.readG 28 - 1)
      let t2 := if src then t1.writeG 29 (t1.readG 29 + wd n) else t1
      if dst then t2.writeG 30 (t2.readG 30 + wd n) else t2
    (u.readG 28 = 0 →
      Completes (.rmov size false 0 0 none) s u ∧ Completes (.rfill size false rv 0 none) s u
      ∧ Completes (.rcmp size stop 0 0 none) s (u.setFl clear) ∧ Completes (.rscan size stop rv 0 none) s (u.setFl clear))
    ∧ (u.readG 28 = 1 → u.store (u.readG 30) n (wd ((u.readG rv).toNat % 2 ^ (8 * n))) false = .ok t → t.readG 28 = 1 →
      Completes (.rfill size false rv 0 none) s (next t false true))
    ∧ (∀ w v, u.readG 28 = 1 → u.load (u.readG 29) n = .ok w v → w.store (w.readG 30) n (wd v) false = .ok t → t.readG 28 = 1 →
      Completes (.rmov size false 0 0 none) s (next t true true))
    ∧ (∀ w v, u.readG 28 = 1 → u.load (u.readG 29) n = .ok w v → ∀ x, w.load (w.readG 30) n = .ok t x → t.readG 28 = 1 →
      Completes (.rcmp size stop 0 0 none) s
        (if decide (v = x) = stop then t.consumeData.setFl (stopFlags v x n) else (next t true true).setFl clear))
    ∧ (∀ v, u.readG 28 = 1 → u.load (u.readG 29) n = .ok t v → t.readG 28 = 1 →
      let x := (u.readG rv).toNat % 2 ^ (8 * n)
      Completes (.rscan size stop rv 0 none) s 
        (if decide (v = x) = stop then t.consumeData.setFl (stopFlags v x n) else (next t true false).setFl clear))

/-! ### Scalar core: fences, translation and cache maintenance (02 R54, 03 R70, R83, 04 R105) -/

/-- FENCE empties the store buffer where it names stores among the earlier kinds; the TLB invalidations drop the entries of Table 4.7 and every
stage-1 entry of the table-entry cache, after earlier accesses are performed, and wait while a tile instruction before them cannot start; a
Supervisor form raises cause 2 at User privilege.
CLEAN, INVAL, FLUSH, IINVAL and ZERO at an address of normal cached memory outside the scratch window, earlier stores having been performed:
the two lines of its 128-byte block are written back, dropped, both, or written with zeros free of poison; INVAL raises cause 2 at User
privilege (03 R83). -/
def Obligations.FencesTlbAndCacheMaintenance : Prop :=
  (
  ∀ (s u : State) (mask : BitVec 4) (ra rb : RegIx), Issues s u →
    let p := u.performAll
    let kept (f : TlbSlot → Bool) : State := { p with xl := { p.xl with
      itlb := p.xl.itlb.filter f, dtlb := p.xl.dtlb.filter f, tlb := p.xl.tlb.filter f, tec := p.xl.tec.filter (·.stage2) } }
    (mask ≠ 0 → Completes (.fence mask 0) s (if mask.toNat % 4 = 0 then u else { u with mem := u.mem.drain }))
    ∧ Traps (.fence 0 0) s u { cause := 1, eaddr := 0xB4000002 }
    ∧ (u.super = true → u.drainStores.tileStuck = true → Yields (.tlbinvAll 0) s u.drainStores)
    ∧ (u.super = true → u.drainStores.tileStuck = false →
      Completes (.tlbinvAll 0) s (kept fun _ => false)
      ∧ Completes (.tlbinvAsid ra 0) s (kept fun e => e.g || e.asid != (u.readG ra).setWidth 16)
      ∧ Completes (.tlbinvVa ra rb 0) s (kept fun e => !e.covers (u.readG ra) ((u.readG rb).setWidth 16)))
    ∧ (u.super = false → Traps (.tlbinvAll 0) s u { cause := 2, eaddr := 0xB8000000 })
  ) ∧ (
  ∀ (s u t : State) (ra : RegIx) (pa : Nat), Issues s u →
    let va := u.readG ra
    let maps (k : AccKind) : Prop := u.translate { kind := k, va := va, eaddr := va, priv := u.super } = .ok t (.phys pa .cached)
    let m := t.mem.drain
    let g := pa / 128 * 2
    inScratch pa = false →
    (maps .load →
      Completes (.clean ra 0) s { t with mem := (m.writeBack g).writeBack (g + 1) }
      ∧ Completes (.flush ra 0) s { t with mem := (((m.writeBack g).dropLine g).writeBack (g + 1)).dropLine (g + 1) }
      ∧ Completes (.iinval ra 0) s { t with mem := m })
    ∧ (u.super = true → maps .inval → Completes (.inval ra 0) s { t with mem := (m.dropLine g).dropLine (g + 1) })
    ∧ (u.super = false → ∃ e, Traps (.inval ra 0) s u e ∧ e.cause = 2)
    ∧ (maps .store → Completes (.zero ra 0) s { t with mem := (m.writeGranule g 0 false).writeGranule (g + 1) 0 false })
  )

/-! ### Scalar core: CSRs, events, sleep (02 R54, R55, R63, 05) -/

/-- CSR access with both rights: CSRR gives rd the value and leaves the CSR; the write forms give rd the old value and write the operand, the
old value with its bits set, or with its bits clear; here of ESAVE, in every register and immediate form (R55, 05 R140).
A register written from outside: a write of data SRAM by the access code's bytes leaves each byte of the value at its place; a CSR takes the value
while PD_CORE is on, and nothing happens while it is off; an access of no bytes, of more than 8, or past the space stops by name (00 R8, 14 R305). -/
def Obligations.CsrAccessAndRegisterWrites : Prop :=
  (
  ∀ (s u : State) (rd ra imm : RegIx) (pe : Bool), Issues s u → u.super = true →
    let old := u.bank.esave
    let x := u.readG ra
    let i : Word := imm.setWidth 64
    let put (v : Word) : State := (u.setBank { u.bank with esave := v }).writeG rd old
    Completes (.csrr rd 0 0x106 pe) s (u.writeG rd old)
    ∧ Completes (.csrw rd ra 0x106 pe) s (put x) ∧ Completes (.csrs rd ra 0x106 pe) s (put (old ||| x))
    ∧ Completes (.csrc rd ra 0x106 pe) s (put (old &&& ~~~x))
    ∧ Completes (.csrwi rd imm 0x106 pe) s (put i) ∧ Completes (.csrsi rd imm 0x106 pe) s (put (old ||| i))
    ∧ Completes (.csrci rd imm 0x106 pe) s (put (old &&& ~~~i))
  ) ∧ (
  ∀ (s : State) (a : BitVec 16) (n : Nat) (v : Word) (csr : BitVec 12) (secure : Bool),
    (windowAccess a n = false → exec (.registerWrite (.window a n) v secure) s = .refused .illFormed)
    ∧ (1 ≤ n → n ≤ 8 → a.toNat + n ≤ 0x8000 → smWf 0#8 0 s.dep.data = true → ∃ t, exec (.registerWrite (.window a n) v true) s = .next t
        ∧ (∀ k < n, smGet 0#8 (a.toNat + k) t.dep.data = BitVec.ofNat 8 (v.toNat / 256 ^ k))
        ∧ (∀ k, (k < a.toNat ∨ a.toNat + n ≤ k) → smGet 0#8 k t.dep.data = smGet 0#8 k s.dep.data) ∧ t.dep.prog = s.dep.prog)
    ∧ (s.pwr.core ≠ .on → Yields (.registerWrite (.csr csr) v secure) s s)
    ∧ (s.pwr.core = .on → Yields (.registerWrite (.csr 0x106) v secure) s (s.setBank { s.bank with esave := v }))
  )

/-- SEV sets one of EV48 to EV55 pending and SLEEP stops the core's issue, both Supervisor instructions; NMI sets EV32 pending and wakes the core's
domain; a line's IRQ follows into EVPEND and wakes the domain where IRQWAKE asks for it (05 R121, R124, 17 R389).
EVENT_ENTRY with an eligible event of the highest level that waits, a running core, the level resident and nothing held back by the winze
port or a device load: a level from 1 to 6 is active and current, in Supervisor, its EVNUM the event and the core awake; level 7 is entered at
the vector of cause 31 with the interrupted address in EPC. Without an eligible event nothing happens (05 R122, R125). -/
def Obligations.EventSourcesAndEntry : Prop :=
  (
  (∀ (s u : State) (ev : BitVec 3), Issues s u →
    (u.super = true → Completes (.sev ev 0) s (u.setEvent (48 + ev.toNat))
      ∧ Completes (.sleep 0) s { u with core := { u.core with sleeping := true } })
    ∧ (u.super = false → (∃ e, Traps (.sev ev 0) s u e ∧ e.cause = 2) ∧ ∃ e, Traps (.sleep 0) s u e ∧ e.cause = 2))
  ∧ (∀ s : State, s.pwr.latching = false →
      (∃ t, exec .nmi s = .next t ∧ t.bm.evpend.getLsbD 32 = true ∧ t.pwr.targets.getLsbD 0 = true ∧ t.core = (hardwire s s).core)
      ∧ ∀ (line : BitVec 5) (level : Bool), ∃ t, exec (.irq line level) s = .next t ∧ t.pwr.irq.getLsbD line.toNat = level
          ∧ t.bm.evpend.getLsbD line.toNat = level
          ∧ (level = true → s.pwr.irqwake.getLsbD line.toNat = true → t.pwr.targets.getLsbD 0 = true))
  ) ∧ (
  ∀ s : State, s.core.mode = .run → s.wz.req = none → s.core.devLoads = [] →
    (∀ n, s.pickEvent = some n → s.core.resident[levelOf s.bm.evrt[n]] = true →
      s.res.bankPoison[levelOf s.bm.evrt[n]] = false → s.lvl < levelOf s.bm.evrt[n] →
      ∃ t, exec .eventEntry s = .next t ∧ t.lvl = levelOf s.bm.evrt[n] ∧ t.bank.priv = true ∧ t.bank.evnum = BitVec.ofNat 6 n.val
        ∧ t.core.sleeping = false
        ∧ (t.lvl ≠ 7 → t.bank.pc = (s.bankOf t.lvl).pc ∧ t.bank.epc = (s.bankOf t.lvl).epc)
        ∧ (t.lvl = 7 → t.bank.pc = 0xFFFFFFFFFFFFF800 + 32 * 31 ∧ t.bank.epc = s.bank.pc ∧ t.bank.excm = true))
    ∧ (s.pickEvent = none → exec .eventEntry s = .next (hardwire s s))
  )

/-! ### Scalar core: sync instructions (13 R277 to R283) -/

/-- POST, WAIT, TRYWAIT, READ and ARM on an object of this node that admits the operation: a post adds to the object after earlier accesses are
performed, WAIT and TRYWAIT take from a ready object and are ordered after an earlier release store, TRYWAIT reports 0 where it is not, READ gives its count and ARM sets its target
(R280); a refused operation raises cause 21 with its reason.
A write of SODATA replaces the word that SOSEL names, unless PK is set; a pop removes the head of the wake queue. A remote post to a usable local object is
performed there, once the scratch step its queue entry goes to is filled; one that the checks refuse changes no object and is counted and captured in SOERR. A parked waiter whose counter is ready is taken:
its task joins the ready list and the counter is reduced (R279, R283 to R288). -/
def Obligations.SyncObjectOperations : Prop :=
  (
  ∀ (s u : State) (rd ra rb : RegIx), Issues s u →
    let name := u.readG ra
    let n := nameObj name
    let o := u.obj n
    let p := u.performAll
    (u.drainStores.tileStuck = false → p.postWaits (nameObj (p.readG ra)) = false →
      ∀ t, p.post (p.readG ra) (p.readG rb) p.super = .ok t → Completes (.post ra rb 0) s t)
    ∧ (u.checkLocalOp name u.super false = none →
        (o.ready = true → Completes (.wait ra 0) s (u.setObj n o.takeOne).acquire
          ∧ Completes (.trywait rd ra 0) s ((u.setObj n o.takeOne).acquire.writeG rd 1))
        ∧ (o.ready = false → Completes (.trywait rd ra 0) s (u.writeG rd 0))
        ∧ Completes (.arm ra rb 0) s (u.setObj n (o.arm ((u.readG rb).setWidth 32))))
    ∧ (u.checkLocalOp name u.super true = none → Completes (.read rd ra 0) s (u.writeG rd o.count))
    ∧ (∀ r, u.checkLocalOp name u.super false = some (.reason r) →
        Traps (.wait ra 0) s u { cause := 21, eaddr := name, einfo := wd r } ∧ Traps (.trywait rd ra 0) s u { cause := 21, eaddr := name, einfo := wd r }
        ∧ Traps (.arm ra rb 0) s u { cause := 21, eaddr := name, einfo := wd r })
  ) ∧ (
  ∀ (s : State) (v : Word) (p : Packet),
    (s.sy.selPk = true → Yields (.sodataWrite v) s s)
    ∧ (s.sy.selPk = false → Yields (.sodataWrite v) s (s.setObj s.sy.selObj ((s.obj s.sy.selObj).setWord s.sy.selWord.toNat v)))
    ∧ Yields .sowakePop s { s with sy := { s.sy with wakeq := s.sy.wakeq.drop 1 } }
    ∧ (s.fab.bad = false →
       let w := packetWord p 0
       let name := wd (w.toNat % 2 ^ 37)
       let n := nameObj name
       let src : BitVec 24 := (packetWord p 2).setWidth 24
       (w.toNat / 2 ^ 60 = 1 → nameNode name = s.straps.nodeId →
         (s.checkObj n (w.getLsbD 56) = none → s.postWaits n = false → Yields (.remotePost p) s (s.postObj n (packetWord p 1) src))
         ∧ (s.checkObj n (w.getLsbD 56) = none → s.postWaits n = true → Yields (.remotePost p) s s)
         ∧ (∀ f, s.checkObj n (w.getLsbD 56) = some f → ∃ t, exec (.remotePost p) s = .next t ∧ t.sy.objs = s.sy.objs
             ∧ t.sy.drops = s.sy.drops + 1 ∧ t.sy.errValid = true ∧ (s.sy.errValid = false → t.sy.errObj = n ∧ t.sy.errSrc = src)))
       ∧ (w.toNat / 2 ^ 60 = 1 → nameNode name ≠ s.straps.nodeId → ∃ t, exec (.remotePost p) s = .next t ∧ t.sy.objs = s.sy.objs
           ∧ t.sy.drops = s.sy.drops + 1))
    ∧ (s.sy.parked = [] → Yields .parkedWaiterTake s s)
    ∧ (64 ≤ s.bm.ready.length → Yields .parkedWaiterTake s s)
    ∧ (∀ k : Parked, s.sy.parked = [k] → s.bm.ready.length < 64 → s.core.mode = .run → s.mayTake k = true → (s.obj k.obj).mode = 1 →
        smWf SyncObj.zero 0 s.sy.objs = true → ∃ t, exec .parkedWaiterTake s = .next t ∧ t.sy.parked = [] ∧ t.obj k.obj = (s.obj k.obj).takeOne
          ∧ (∃ e, t.bm.ready = s.bm.ready ++ [e] ∧ e.tsb = k.tsb ∧ e.tilewait = false))
  )

/-! ### The tile extension at dispatch (06 R150 to R163) -/

/-- TCFG, TZERO, KZERO, TMOV, SCALE.SET and SCALE.UPD on enabled registers enter the queue, TCFG giving rd the old configuration; TFENCE
completes after every earlier tile instruction and empties the store buffer; SCALE.RD reads the slot's word as every earlier tile instruction
leaves it; both wait while one of those cannot start. -/
def Obligations.TileConfigDispatch : Prop :=
  ∀ (s u v : State) (rd ra : RegIx) (slot : BitVec 6) (sel : BitVec 3), Issues s u → TilePasses u v →
    let c := v.mirror.tconf
    (let new : BitVec 22 := (v.readG ra).setWidth 22
     let e : State := { v with tile := { v.tile with queue := v.tile.queue ++ [{ op := .tcfg new, started := false }] } }
     Completes (.tcfg rd ra 0) s ((if new = 0 then e.releaseByTcfg else e).writeG rd (c.setWidth 64)))
    ∧ (∀ mask : BitVec 8, mask ≠ 0 → (∀ i < 8, mask.getLsbD i = true → tEnabled c i = true) →
      Enters (.tzero 0 0 (mask.setWidth 12)) s v (.tzero false mask))
    ∧ (∀ mask : BitVec 8, mask ≠ 0 → (∀ i < 8, mask.getLsbD i = true → vEnabled c i = true) →
      Enters (.tzero 0 0 (mask.setWidth 12 ||| 0x100)) s v (.tzero true mask))
    ∧ (∀ (mask : BitVec 4) (int : Bool), mask ≠ 0 → (∀ i < 4, mask.getLsbD i = true → kEnabled c i = true) →
      Enters (.kzero 0 0 (mask.setWidth 12 ||| if int then 0x10 else 0)) s v (.kzero mask int))
    ∧ (∀ src dst : BitVec 3, tEnabled c src.toNat = true → tEnabled c dst.toNat = true →
      Enters (.tmov 0 0 (src.setWidth 12 ||| (dst.setWidth 12 : BitVec 12) <<< 3)) s v (.tmov false (fin8 src) (fin8 dst)))
    ∧ (∀ src dst : BitVec 3, vEnabled c src.toNat = true → vEnabled c dst.toNat = true →
      Enters (.tmov 0 0 (src.setWidth 12 ||| (dst.setWidth 12 : BitVec 12) <<< 3 ||| 0x40)) s v (.tmov true (fin8 src) (fin8 dst)))
    ∧ (ssEnabled c = true → sel ≠ 0 → Enters (.scaleSet 0 ra slot sel 0 0) s v (.scaleSet (fin64 slot) (fin8 sel) (v.readG ra)))
    ∧ (ssEnabled c = true →
      (let x := (v.readG ra).toNat
       m0Block x = true → fmtHasBlock (m0Fmt x) = true ∧ m0Last x (tileDepth (fmtWidth (m0Fmt x))) ≤ 7) → Enters (.scaleSet 0 ra slot 0 0 0) s v (.scaleSet (fin64 slot) 0 (v.readG ra)))
    ∧ (ssEnabled c = true → Enters (.scaleUpd 0 0 slot 0 0 0) s v (.scaleUpd (fin64 slot)))
    ∧ (ssEnabled c = true → v.tileStuck = false → Completes (.scaleRd rd 0 slot sel 0 0) s
        (v.drainTile.writeG rd (wd (ssWord v.drainTile.tile.regs.ss[fin64 slot] sel.toNat))))
    ∧ (ssEnabled c = true → v.tileStuck = true → Yields (.scaleRd rd 0 slot sel 0 0) s v)
    ∧ (u.tileStuck = false →
      let w := u.drainTile.countDrain
      Completes (.tfence 0 0 0) s { w with mem := w.mem.drain })
    ∧ (u.tileStuck = true → Yields (.tfence 0 0 0) s u)

/-- The loads and stores of tiles and lane vectors, on enabled registers, with an operand aligned as R151 asks whose lines all translate, enter
the queue with those lines; those that quantise also need a slot that names the instruction's format. SEAMLD of a good image completes with
the slot filled, once every earlier tile instruction has. -/
def Obligations.TileMemoryDispatch : Prop :=
  ∀ (s u v w : State) (tile vr : BitVec 3) (wc : BitVec 2) (ra rb : RegIx) (fmt : BitVec 3) (d : Bool) (slot : BitVec 6) (seam : BitVec 2)
    (ls : List (List Segment)), Issues s u → TilePasses u v →
    let c := v.mirror.tconf
    let a := v.baseReg ra
    let st := v.readG rb
    let wb := widthOfCode wc.toNat
    let depth := tileDepth (fmtWidth fmt.toNat)
    let slotWord := v.mirror.ss[fin64 slot]
    let rows := if d then depth else 128
    let len := if d then 256 else 2 * depth
    w.tile.queue.length < 16 →
    (tEnabled c tile.toNat = true →
      (v.translateLines .load none 128 (lineAddrs a st 128) = .ok w ls → operandAligned a st 128 none = true →
        Enters (.tloadV tile ra rb 0 0) s w (.load false 0 (fin8 tile) ls))
      ∧ (v.translateLines .store none 128 (lineAddrs a st 128) = .ok w ls → operandAligned a st 128 (some 128) = true →
        Enters (.tstoreV tile ra rb 0 0) s w (.store false 0 (fin8 tile) ls))
      ∧ (v.translateLines .load none (16 * wb) (lineAddrs a st (tileDepth wb)) = .ok w ls →
        operandAligned a st (Nat.min (16 * wb) 128) none = true →
        Enters (.tloadD tile wc ra rb 0 0) s w (.load true wc.toNat (fin8 tile) ls))
      ∧ (v.translateLines .store none (16 * wb) (lineAddrs a st (tileDepth wb)) = .ok w ls →
        operandAligned a st (Nat.min (16 * wb) 128) (some (16 * wb)) = true →
        Enters (.tstoreD tile wc ra rb 0 0) s w (.store true wc.toNat (fin8 tile) ls))
      ∧ (ssEnabled c = true → m0Fmt slotWord = fmt.toNat →
        (m0Block slotWord = true → scalesDisabled v.mirror slotWord depth = false ∧ fmtHasBlock fmt.toNat = true ∧ m0Last slotWord depth ≤ 7) →
        (v.translateLines .load none len (lineAddrs a st rows) = .ok w ls → operandAligned a st (Nat.min len 128) none = true →
          Enters (.tloadQ tile fmt d ra rb slot 0) s w
            (.loadQ d fmt.toNat (fin8 tile) (fin64 slot) ls ((w.jnl.stepcnt.toNat + w.jnl.mbatch.toNat + tile.toNat) % 8)))
        ∧ (v.translateLines .store none len (lineAddrs a st rows) = .ok w ls → operandAligned a st (Nat.min len 128) (some len) = true →
          Enters (.tstoreQ tile fmt d ra rb slot 0) s w (.storeQ d fmt.toNat (fin8 tile) (fin64 slot) ls))))
    ∧ (vEnabled c vr.toNat = true →
      (v.translateLines .load none 512 (lineAddrs a 0 1) = .ok w ls → a.toNat % 128 = 0 →
        Enters (.vload vr ra 0 0 0) s w (.vload (fin8 vr) ls))
      ∧ (v.translateLines .store none 512 (lineAddrs a 512 1) = .ok w ls → a.toNat % 128 = 0 →
        Enters (.vstore vr ra 0 0 0) s w (.vstore (fin8 vr) ls)))
    ∧ (let g := v.readG ra
       v.translateLines .load none 4096 (lineAddrs g 0 1) = .ok w ls → g.toNat % 128 = 0 → w.tileStuck = false →
       let x := w.drainTile.readLine ls.flatten
       ∀ t, x.1.seamTake (fin4 seam) g x.2.1 (firstPoison x.2.2).isSome = (t, none) → Completes (.seamld 0 ra 0 0 seam 0) s t)

/-- The outer products and KOUT whose registers, formats, control words, slots and image pass the checks of R162 enter the queue: OPA on scale
slots, OPA under MX = 1 on lane vectors, OPMAX and OPMIN, and KOUT with and without a store. -/
def Obligations.TileComputeDispatch : Prop :=
  ∀ (s u v w : State) (kd : BitVec 2) (ta tb fa fb : BitVec 3) (rc ra rb : RegIx) (vr : BitVec 3) (kz : Bool) (seam : BitVec 2) (slot : BitVec 6)
    (ls : List (List Segment)), Issues s u → TilePasses u v →
    let m := v.mirror
    let ctl := v.readG rc
    let on := kEnabled m.tconf kd.toNat = true ∧ tEnabled m.tconf ta.toNat = true ∧ tEnabled m.tconf tb.toNat = true
    let op : TileOp := .opa (fin4 kd) (fin8 ta) (fin8 tb) fa.toNat fb.toNat ctl v.jnl.stepcnt (v.jnl.mbatch.setWidth 64)
    let int := fmtIsInt fa.toNat && fmtIsInt fb.toNat
    (on → fmtWidth fa.toNat = fmtWidth fb.toNat → m.ktype.getLsbD kd.toNat = int → ctlRangeBad ctl fa.toNat = false →
      (ctlSr ctl = true → qEnabled m.tconf = true ∧ int = false) →
      (ctlMx ctl = false → ssEnabled m.tconf = true → m0Block m.ss[ctlSsa ctl] = false → m0Block m.ss[ctlSsb ctl] = false →
        m0Fmt m.ss[ctlSsa ctl] = fa.toNat → m0Fmt m.ss[ctlSsb ctl] = fb.toNat → Enters (.opa kd ta tb rc fa fb 0) s v op)
      ∧ (ctlMx ctl = true → ctlMxBad ctl fa.toNat fb.toNat = false →
        (∀ b ∈ rangeBlocks ctl fa.toNat, vEnabled m.tconf (ctlVa ctl + b / 4) = true ∧ vEnabled m.tconf (ctlVb ctl + b / 4) = true) →
        Enters (.opa kd ta tb rc fa fb 0) s v op))
    ∧ (on → kEnabled m.tconf (kd.toNat + 1) = true → kd.getLsbD 0 = false → 4 ≤ fa.toNat → m.ktype.getLsbD kd.toNat = (fa.toNat == 6) →
      m.ktype.getLsbD (kd.toNat + 1) = true → ctlRangeBad ctl fa.toNat = false → fieldOf ctl.toNat 14 9 = 0 → fieldOf ctl.toNat 35 5 = 0 →
      Enters (.opmax kd ta tb rc fa fa 0) s v (.opm false (fin4 kd) (fin8 ta) (fin8 tb) fa.toNat ctl)
      ∧ Enters (.opmin kd ta tb rc fa fa 0) s v (.opm true (fin4 kd) (fin8 ta) (fin8 tb) fa.toNat ctl))
    ∧ (let img := v.tile.seam[fin4 seam].image
       let fmt := imgOfmt img
       let w0 := m.ss[fin64 slot]
       let q := m.q[imgQs img]
       let disarm := if imgMasks img ≠ 0 ∧ q.1 = true then some (imgQs img) else none
       kEnabled m.tconf kd.toNat = true → ssEnabled m.tconf = true → v.tile.seam[fin4 seam].valid = true →
       (∀ n ∈ imgReadsV img, vEnabled m.tconf n = true) → (imgMasks img ≠ 0 → qEnabled m.tconf = true) →
       (imgRed img ≠ 0 → vEnabled m.tconf vr.toNat = true) → (imgRed img = 4 → vr ≠ 7 ∧ vEnabled m.tconf (vr.toNat + 1) = true) →
       (m0Block w0 = true → m0Last w0 128 ≤ 7 ∧ (fmt ≠ 15 → fmtHasBlock fmt = true → scalesDisabled m w0 128 = false)) →
       (fmt = 15 → (imgMasks img ≠ 0 → v.skewed q = false) →
         Enters (.kout kd seam vr kz ra rb slot 0) s v (.kout (fin4 kd) (fin4 seam) (fin8 vr) kz (fin64 slot) [] disarm))
       ∧ (fmt ≠ 15 → v.translateLines .store none (16 * fmtWidth fmt) (lineAddrs (v.baseReg ra) (v.readG rb) 128) = .ok w ls →
         operandAligned (v.baseReg ra) (v.readG rb) (Nat.min (16 * fmtWidth fmt) 128) (some (16 * fmtWidth fmt)) = true →
         (imgMasks img ≠ 0 → w.skewed q = false) → w.tile.queue.length < 16 →
         Enters (.kout kd seam vr kz ra rb slot 0) s w (.kout (fin4 kd) (fin4 seam) (fin8 vr) kz (fin64 slot) ls disarm)))

/-- A tile instruction while PD_TILE is off, or its unit retired, raises cause 15 with reason 5; with TCTL.EN clear, reason 1; at User privilege
with TCTL.UEN clear, reason 2; on a disabled register, reason 3; nothing enters the queue (R162, Table 6.7).
An entry at the front of an idle queue starts and takes its effect: TZERO zeros the T or V registers that its mask names and no others, TMOV
copies one register to another, SCALE.SET writes its slot, TCFG sets the configuration. A started entry completes and leaves the queue, outer
products counted in STOPCNT and KOUTs in SEAMCNT.
A started entry at a place of the queue completes while the tile domain runs: it leaves the queue, and STOPCNT or SEAMCNT counts it; an entry
that has not started, or no entry, changes nothing (06 R164). -/
def Obligations.TileGateAndQueueEntries : Prop :=
  (
  ∀ (s u v : State) (tile : BitVec 3) (ra rb : RegIx), Issues s u →
    let w := encTM 0x31 (tile.toNat * 128) ra rb 0
    let traps (t : State) (reason : Nat) : Prop := Traps (.tloadV tile ra rb 0 0) s t { cause := 15, eaddr := w, einfo := wd reason }
    (u.pwr.tile ≠ .on ∨ u.tileRetired = true → traps u 5)
    ∧ (u.pwr.tile = .on → u.tileRetired = false → u.tile.en = false → traps u 1)
    ∧ (u.pwr.tile = .on → u.tileRetired = false → u.tile.en = true → u.super = false → u.tile.uen = false → traps u 2)
    ∧ (TilePasses u v → tEnabled v.mirror.tconf tile.toNat = false → traps v 3)
  ) ∧ (
  ∀ (s : State) (op : TileOp) (q : List TileEntry), s.pwr.tile = .on → s.core.mode ≠ .frozen → s.tile.queue = { op := op, started := false } :: q →
    (∀ e ∈ q, e.started = false) → s.foldOpen = false → (op.segments.any fun g => s.waitsForFill g.pa) = false →
    ∀ f, elementList f = true → ∃ t, exec (.tileEntryStart f) s = .next t
      ∧ (∀ mask, op = .tzero false mask → t.tile.queue = { op := op, started := true } :: q ∧ ∀ k : Fin 8, t.tile.regs.t[k] =
          if mask.getLsbD k.val then Vector.replicate 128 0 else s.tile.regs.t[k])
      ∧ (∀ mask, op = .tzero true mask → ∀ k : Fin 8, t.tile.regs.v[k] = if mask.getLsbD k.val then 0 else s.tile.regs.v[k])
      ∧ (∀ src dst, op = .tmov false src dst → ∀ k : Fin 8, t.tile.regs.t[k] = if k = dst then s.tile.regs.t[src] else s.tile.regs.t[k])
      ∧ (∀ slot sel v, op = .scaleSet slot sel v → ∀ k : Fin 64, t.tile.regs.ss[k] =
          if k = slot then ssSet s.tile.regs.ss[slot] sel.val v.toNat else s.tile.regs.ss[k])
      ∧ (∀ new, op = .tcfg new → t.tile.regs.tconf = new)
  ) ∧ (
  ∀ (s : State) (i : BitVec 4), s.pwr.tile = .on → s.core.mode ≠ .frozen →
    let dropped : State := { s with tile := { s.tile with queue := s.tile.queue.eraseIdx i.toNat } }
    (∀ op, s.tile.queue[i.toNat]? = some { op := op, started := true } →
      ∃ t, exec (.tileEntryComplete i) s = .next t ∧ t.tile.queue = s.tile.queue.eraseIdx i.toNat
        ∧ (op.unit = .stope → (∀ mask int, op ≠ .kzero mask int) → t.tile.stopcnt = s.tile.stopcnt + 1)
        ∧ (op.unit = .seam → t.tile.seamcnt = s.tile.seamcnt + 1)
        ∧ (op.unit ≠ .stope → op.unit ≠ .seam → t = hardwire s dropped))
    ∧ (∀ op, s.tile.queue[i.toNat]? = some { op := op, started := false } → Yields (.tileEntryComplete i) s s)
    ∧ (s.tile.queue[i.toNat]? = none → Yields (.tileEntryComplete i) s s)
  )

/-! ### The tile queue, streams and the journal (06 R164 to R171, 10) -/

/-- STEP counts in STEPCNT and the tally; where its context owns live tile state an update of the scale slots and streams enters the queue with the
DCUR and STEPCNT of now, which STEP_UPDATE_ENTRY starts; where the journal is on, it takes SEQ and a slot of the ring (10 R236, R239, 08 R210).
DRAW of an enabled stream that is neither poisoned nor armed for another step gives rd two words of the stream's next call, high over low, the
stream advanced and disarmed; a poisoned stream raises cause 25. QDATA reads and writes the selected word of the selected stream; all of them
once the earlier tile instructions are done (10 R233, R236). -/
def Obligations.StepsAndStreamDraws : Prop :=
  (
  (∀ s u : State, Issues s u → u.jnl.pend.length < 8 →
    (u.ownsLive = false → u.jnl.en = false →
      Completes (.step 0) s { u.tallyInc 4 with jnl := { u.jnl with stepcnt := u.jnl.stepcnt + 1 } })
    ∧ (u.ownsLive = false → u.jnl.en = true → u.jnl.pend = [] → ∃ r : State, Completes (.step 0) s r ∧ r.jnl.stepcnt = u.jnl.stepcnt + 1
        ∧ r.jnl.seq = u.jnl.seq + 1 ∧ r.jnl.pend.map (·.seq) = [u.jnl.seq] ∧ r.jnl.pend.all (·.data.isSome) = true)
    ∧ (u.ownsLive = true → u.tile.queue.length < 16 → ∃ r : State, Completes (.step 0) s r ∧ r.jnl.stepcnt = u.jnl.stepcnt + 1
        ∧ r.tile.queue = u.tile.queue ++ [{ op := .stepUpdate u.jnl.dcur (u.jnl.stepcnt + 1) u.jnl.ssgrp (if u.jnl.en then some u.jnl.seq else none),
                                            started := false }]))
  ∧ (∀ (s : State) (q : List TileEntry) (d n : Word) (g : BitVec 2) (k : Option Word), s.pwr.tile = .on → s.core.mode ≠ .frozen → s.foldOpen = false →
      (∀ e ∈ q, e.started = false) →
      s.tile.queue = { op := .stepUpdate d n g k, started := false } :: q →
      Yields .stepUpdateEntry s
        (({ s with tile := { s.tile with queue := { op := .stepUpdate d n g k, started := true } :: q } } : State).execStepEntry d n g k))
  ) ∧ (
  ∀ (s u v : State) (rd ra : RegIx) (q : BitVec 4), Issues s u → TilePasses u v → qEnabled v.mirror.tconf = true → v.tileStuck = false →
    let t := v.drainTile
    let x := t.tile.regs.q[fin16 q]
    let r := qDraw (qPut x 2 (qWord x 2 % 2 ^ 63))
    (t.tile.regs.qpois.getLsbD q.toNat = false → (qArmed x = false ∨ wd (qTag x) = t.jnl.dcur) →
      Completes (.draw rd q 0) s ((t.setRegs (t.tile.regs.setQ (fin16 q) r.2)).writeG rd (wd (r.1.x1 * 2 ^ 32 + r.1.x0))))
    ∧ (t.tile.regs.qpois.getLsbD q.toNat = true → Traps (.draw rd q 0) s t { cause := 25, eaddr := q.setWidth 64 })
    ∧ Completes (.qdataRead rd) s (t.writeG rd (wd (qWord t.tile.regs.q[fin16 t.jnl.qstream] t.jnl.qword.toNat)))
    ∧ Completes (.qdataWrite rd ra) s
        ((t.qdataPut (t.readG ra)).writeG rd (wd (qWord t.tile.regs.q[fin16 t.jnl.qstream] t.jnl.qword.toNat)))
  )

/-- A record whose data is there is appended while channel 31 serves the journal: inside a normal LOG region, the port willing, its 64 bytes are
written and it is counted; otherwise the append fails with reason 1 or 2, ERR and EV43. JNLCFG takes EN, the scale group and a LOG2LEN from 6
to 26, and TFLAGS clears the bits written as 1 after earlier tile instructions (10 R241, Table 10.7, 06 R171). -/
def Obligations.JournalAppends : Prop :=
  (∀ (s : State) (seq : Word) (addr : Nat) (d : BitVec 512) (rest : List JnlRec), s.jnl.jch = true →
    s.jnl.pend = { seq := seq, addr := addr, data := some d } :: rest →
    let p : State := { s with jnl := { s.jnl with pend := rest } }
    (p.inLog addr = true →
      Yields (.append true) s
        (let w := p.logWrite addr d false
         let z : State := { w with jnl := { w.jnl with done := w.jnl.done + 1 } }
         (if z.jnl.objEn then z.enginePost (wd (z.straps.nodeId.toNat * 2 ^ 13 + z.jnl.obj.toNat)) 1 else z).settleJch))
    ∧ (p.inLog addr = false → ∀ ok, Yields (.append ok) s (p.failAppend seq 1).settleJch)
    ∧ (p.inLog addr = true → Yields (.append false) s (p.failAppend seq 2).settleJch))
  ∧ (∀ (s : State) (v : BitVec 64), ∃ t, exec (.jnlcfgWrite v) s = .next t ∧ t.jnl.en = v.getLsbD 0 ∧ t.jnl.ssgrp = v.extractLsb' 1 2
      ∧ t.jnl.log2len = (if 6 ≤ v.toNat / 32 % 32 ∧ v.toNat / 32 % 32 ≤ 26 then v.extractLsb' 5 5 else s.jnl.log2len))
  ∧ (∀ (s : State) (v : BitVec 64), (s.tileStuck = false → ∃ t, exec (.tflagsWrite v) s = .next t
      ∧ t.tile.regs.tflags = s.drainTile.tile.regs.tflags &&& ~~~(v.setWidth 6))
      ∧ (s.tileStuck = true → Yields (.tflagsWrite v) s s))

/-! ### The deputy's instructions (14 R302 to R311) -/

/-- The deputy's register instructions: result and the four flags (for ADD and SUB: the carry, and V as the signed result's overflow; C as no
borrow; shifts: the last bit out; MUL: V where the high half is not 0; a divisor of 0: 0xFFFF or rd with V), CMP and TST without a write,
MOV, MOVL and MOVH without flags (Tables 14.4 and 14.5; that DIVU and REMU clear V for another divisor is this model's reading, log 77). -/
def Obligations.DeputyRegisterResults : Prop :=
  ∀ (s : State) (rd rs : DReg) (imm : BitVec 8), DepReady s → DepStraight s →
    let d := s.dep
    let a := d.reg rd
    let b := d.reg rs
    let i : Half := imm.signExtend 16
    let c := bit d.c
    let k := b.toNat % 16
    let gives (x : Instr) (r : Half) (fc fv : Bool) : Prop := DepDone x s s ((d.setFlags (halfFlagsOf r fc fv)).setReg rd r)
    let tests (x : Instr) (r : Half) (fc fv : Bool) : Prop := DepDone x s s (d.setFlags (halfFlagsOf r fc fv))
    gives (.deputyAdd rd rs 0) (a + b) (decide (2 ^ 16 ≤ a.toNat + b.toNat)) (decide ((a + b).toInt ≠ a.toInt + b.toInt))
    ∧ (let r := a + b + BitVec.ofNat 16 c
       gives (.deputyAdc rd rs 0) r (decide (2 ^ 16 ≤ a.toNat + b.toNat + c)) (decide (r.toInt ≠ a.toInt + b.toInt + c)))
    ∧ gives (.deputySub rd rs 0) (a - b) (decide (b.toNat ≤ a.toNat)) (decide ((a - b).toInt ≠ a.toInt - b.toInt))
    ∧ (let r := a - b - BitVec.ofNat 16 (1 - c)
       gives (.deputySbc rd rs 0) r (decide (b.toNat + (1 - c) ≤ a.toNat)) (decide (r.toInt ≠ a.toInt - b.toInt - ((1 - c : Nat) : Int))))
    ∧ tests (.cmp rd rs 0) (a - b) (decide (b.toNat ≤ a.toNat)) (decide ((a - b).toInt ≠ a.toInt - b.toInt))
    ∧ gives (.deputyAnd rd rs 0) (a &&& b) false false ∧ gives (.deputyOr rd rs 0) (a ||| b) false false
    ∧ gives (.deputyXor rd rs 0) (a ^^^ b) false false ∧ tests (.tst rd rs 0) (a &&& b) false false
    ∧ gives (.deputyShl rd rs 0) (a <<< k) (k ≠ 0 && a.getLsbD (16 - k)) false
    ∧ gives (.deputyShr rd rs 0) (a >>> k) (k ≠ 0 && a.getLsbD (k - 1)) false
    ∧ gives (.deputySar rd rs 0) (a.sshiftRight k) (k ≠ 0 && a.getLsbD (k - 1)) false
    ∧ gives (.deputyMul rd rs 0) (a * b) false (decide (2 ^ 16 ≤ a.toNat * b.toNat))
    ∧ gives (.deputyDivu rd rs 0) (if b = 0 then 0xFFFF else BitVec.ofNat 16 (a.toNat / b.toNat)) false (decide (b = 0))
    ∧ gives (.deputyRemu rd rs 0) (if b = 0 then a else BitVec.ofNat 16 (a.toNat % b.toNat)) false (decide (b = 0))
    ∧ gives (.deputyAddi rd imm) (a + i) (decide (2 ^ 16 ≤ a.toNat + i.toNat)) (decide ((a + i).toInt ≠ a.toInt + i.toInt))
    ∧ DepDone (.deputyMov rd rs 0) s s (d.setReg rd b)
    ∧ DepDone (.movl rd imm) s s (d.setReg rd (imm.setWidth 16))
    ∧ DepDone (.movh rd imm) s s (d.setReg rd (BitVec.ofNat 16 (imm.toNat * 256 + a.toNat % 256)))

/-- The deputy's loads and stores: LD and ST at BANK·256 + d8, LDW, LDB, STW and STB at ra, with ra advanced afterwards or lowered before by the
size; PUSH below SP and POP at it. An access that is performed completes the instruction, a load writing rd, a byte zero-extended; a store
stores rd as it was (that one of the register it lowers does so is this model's reading, log 80) (R305, R308, Table 14.5).
In data SRAM a word stored is the word a load of the same place then gives, at an even address or an odd one; and a store there leaves every
other byte of data SRAM, the registers and every unit outside the deputy as they were (R305). -/
def Obligations.DeputyMemoryResults : Prop :=
  (
  ∀ (s t : State) (rd ra : DReg) (d8 : BitVec 8) (v : Half), DepReady s → DepStraight s →
    let d := s.dep
    let ext := inExt d.pc
    let x := d.reg rd
    let a := d.reg ra
    let load (c : Instr) (at' : Half) (n : Nat) (e : Deputy → Deputy) : Prop :=
      s.dataLoad ext at' n = .ok t v → DepDone c s t ((e t.dep).setReg rd v)
    let store (c : Instr) (at' : Half) (n : Nat) (e : Deputy → Deputy) : Prop :=
      s.dataStore ext at' n x.toNat = .ok t () → DepDone c s t (e t.dep)
    let banked := BitVec.ofNat 16 (d.bank.toNat * 256 + d8.toNat)
    let put (r : Half) (e : Deputy) : Deputy := e.setReg ra r
    load (.deputyLd rd d8) banked 2 id ∧ store (.deputySt rd d8) banked 2 id
    ∧ load (.ldw rd ra 0) a 2 (put a) ∧ load (.ldb rd ra 0) a 1 (put a)
    ∧ (rd ≠ ra → load (.ldw rd ra 1) a 2 (put (a + 2)) ∧ load (.ldw rd ra 2) (a - 2) 2 (put (a - 2))
        ∧ load (.ldb rd ra 1) a 1 (put (a + 1)) ∧ load (.ldb rd ra 2) (a - 1) 1 (put (a - 1)))
    ∧ store (.stw rd ra 0) a 2 (put a) ∧ store (.stw rd ra 1) a 2 (put (a + 2)) ∧ store (.stw rd ra 2) (a - 2) 2 (put (a - 2))
    ∧ store (.stb rd ra 0) a 1 (put a) ∧ store (.stb rd ra 1) a 1 (put (a + 1)) ∧ store (.stb rd ra 2) (a - 1) 1 (put (a - 1))
    ∧ (d.stackBad (d.sp - 2) = false → s.dataStore ext (d.sp - 2) 2 x.toNat = .ok t () →
        DepDone (.push rd 0 0) s t { t.dep with sp := d.sp - 2 })
    ∧ (d.stackBad d.sp = false → s.dataLoad ext d.sp 2 = .ok t v →
        DepDone (.pop rd 0 0) s t ({ t.dep with sp := t.dep.sp + 2 }.setReg rd v))
  ) ∧ (
  ∀ (s t : State) (a v : Half), a.toNat + 1 < 0x8000 → smWf 0 0 s.dep.data = true → s.dataStore false a 2 v.toNat = .ok t () →
    t.dataLoad false a 2 = .ok t v ∧ (∀ b : Nat, b ≠ a.toNat → b ≠ a.toNat + 1 → t.dep.sramNat b 1 = s.dep.sramNat b 1)
    ∧ t.dep.d = s.dep.d ∧ t.dep.sp = s.dep.sp ∧ t.dep.wqueue = s.dep.wqueue ∧ DeputyOnly s t
  )

/-- The queue of posted window writes never holds more than 4: a store that would not fit waits (R317). -/
def Obligations.PostedWritesFit : Prop :=
  ∀ (s t : State) (ext : Bool) (a : Half) (n v : Nat), n ≤ 2 → PostsFit s → s.dataStore ext a n v = .ok t () → PostsFit t

/-- Jumps, branches, calls and returns of the deputy where no gate of the extension region stands between: the ordinary forms go to their target
(a call pushing its address + 1, a return popping it), a branch not taken to the next word; the delayed forms record the branch and execute
the next word first (R306, R310).
The slot of a delayed branch completes with the branch: control passes to its target, after the pushing or popping that its form asks for; an
instruction that a slot forbids is undefined and takes vector 2 with the branch's address saved and DS set (R310). -/
def Obligations.DeputyBranchesAndDelaySlots : Prop :=
  (
  ∀ (s t : State) (cond : BitVec 3) (rs : DReg) (o6 : BitVec 6) (o7 : BitVec 7) (v : Half), DepReady s →
    let d := s.dep
    let pc := d.pc
    let ext := inExt pc
    let near (a : Half) : Prop := inExt pc = inExt a
    let goes (c : Instr) (a : Half) : Prop := near a → Yields c s (depAt s d a)
    let slot (c : Instr) (a : Half) (push pop : Bool) : Prop :=
      DepStraight s → Yields c s { s with dep := { d with pc := pc + 1, pair := some { addr := pc, target := a, push := push, pop := pop } } }
    let to6 := pc + (o6.signExtend 16 : Half)
    let to7 := pc + (o7.signExtend 16 : Half)
    let calls (c : Instr) (a : Half) : Prop := near a → s.pushWord ext (pc + 1) = .ok t () → Yields c s (depAt t t.dep a)
    (depCond cond d = true → goes (.bcc cond false o6) to6 ∧ slot (.bcc cond true o6) to6 false false)
    ∧ (depCond cond d = false → goes (.bcc cond false o6) (pc + 1) ∧ slot (.bcc cond true o6) (pc + 2) false false)
    ∧ goes (.jmp false rs 0) (d.reg rs) ∧ slot (.jmp true rs 0) (d.reg rs) false false
    ∧ goes (.bra false o7) to7 ∧ slot (.bra true o7) to7 false false
    ∧ calls (.deputyCall false rs 0) (d.reg rs) ∧ slot (.deputyCall true rs 0) (d.reg rs) true false
    ∧ calls (.deputyCallr false o7) to7 ∧ slot (.deputyCallr true o7) to7 true false
    ∧ (near v → s.popWord ext = .ok t v → Yields .deputyRet s (depAt t t.dep v))
    ∧ slot .retD 0 false true
    ∧ (∀ w u, s.popWord ext = .ok u w → u.popWord ext = .ok t v → near v →
        Yields .reti s { t with dep := { t.dep.setFlagsWord w with pc := v, pair := none, retiShadow := true } })
  ) ∧ (
  ∀ (s t : State) (p : DepPair) (v : Half), s.dep.halted = false → s.dep.waiting = false → progHole s.dep.pc = false → s.dep.fetchBad = false →
    s.dep.pair = some p →
    (p.push = false → p.pop = false → inExt p.addr = inExt p.target → Yields .nop s (depAt s s.dep p.target))
    ∧ (p.push = true → p.pop = false → inExt p.addr = inExt p.target → s.pushWord (inExt p.addr) (p.addr + 2) = .ok t () →
        Yields .nop s (depAt t t.dep p.target))
    ∧ (p.pop = true → inExt p.addr = inExt v → s.popWord (inExt p.addr) = .ok t v → Yields .nop s (depAt t t.dep v))
    ∧ Yields .di s (s.enterVector 2 p.addr true) ∧ Yields .retD s (s.enterVector 2 p.addr true)
    ∧ (∀ c d o, Yields (.bcc c d o) s (s.enterVector 2 p.addr true))
  )

/-- NOP, EI, DI, WAIT and the special moves; SWI enters vector 15 with the next word's address (log 82). A waiting deputy does nothing until a
vector enabled in IENA is pending; a halted one does nothing (R306, R307, R318). -/
def Obligations.DeputySystemInstructions : Prop :=
  ∀ (s : State) (rd : DReg), DepReady s →
    let d := s.dep
    (DepStraight s → DepDone .nop s s d ∧ DepDone .ei s s { d with ie := true } ∧ DepDone .di s s { d with ie := false }
      ∧ DepDone .deputyWait s s { d with waiting := true }
      ∧ DepDone (.specialMoveGetSp rd 0) s s (d.setReg rd d.sp) ∧ DepDone (.specialMoveSetSp rd 0) s s { d with sp := d.reg rd }
      ∧ DepDone (.specialMoveGetFlags rd 0) s s (d.setReg rd (BitVec.ofNat 16
          (bit d.v + 2 * bit d.c + 4 * bit d.z + 8 * bit d.n + 16 * bit d.ie + 256 * d.bank.toNat)))
      ∧ (let w := d.reg rd
         DepDone (.specialMoveSetFlags rd 0) s s { d with
           v := w.getLsbD 0, c := w.getLsbD 1, z := w.getLsbD 2, n := w.getLsbD 3, ie := w.getLsbD 4, bank := w.extractLsb' 8 8 })
      ∧ DepDone (.specialMoveGetBank rd 0) s s (d.setReg rd (d.bank.setWidth 16))
      ∧ DepDone (.specialMoveSetBank rd 0) s s { d with bank := (d.reg rd).setWidth 8 })
    ∧ Yields .swi s (s.enterVector 15 (d.pc + 1) false)
    ∧ Yields .nop { s with dep := { d with halted := true } } { s with dep := { d with halted := true } }
    ∧ (d.ipend &&& d.iena = 0 → Yields .nop { s with dep := { d with waiting := true } } { s with dep := { d with waiting := true } })

/-- RPT with D7 = 0 completes with nothing done, a comparison setting Z and C; with one element and no vector to take, the element is moved,
filled or compared, the pointers advance by its size, D7 reaches 0, and a difference ends the comparison with the flags of its two elements
and the registers as at that element (R309). -/
def Obligations.RepeatInstructions : Prop :=
  ∀ (s t u : State) (v w : Half), DepReady s → DepStraight s →
    let d := s.dep
    let ext := inExt d.pc
    let out : Flags := { n := false, z := true, c := true, v := false }
    let adv (e : Deputy) (n : Half) (src : Bool) : Deputy :=
      let e1 := if src then e.setReg 6 (e.reg 6 + n) else e
      let e2 := e1.setReg 5 (e1.reg 5 + n)
      e2.setReg 7 (e2.reg 7 - 1)
    (d.reg 7 = 0 → DepDone .rptMovw s s d ∧ DepDone .rptMovb s s d ∧ DepDone .rptFillw s s d ∧ DepDone .rptFillb s s d
      ∧ DepDone .rptCmpw s s (d.setFlags out) ∧ DepDone .rptCmpb s s (d.setFlags out))
    ∧ (d.reg 7 = 1 → d.asyncVector = none →
      (∀ n c, (n = 2 ∧ c = Instr.rptFillw) ∨ (n = 1 ∧ c = Instr.rptFillb) →
        s.dataStore ext (d.reg 5) n ((d.reg 0).toNat % 2 ^ (8 * n)) = .ok t () → DepDone c s t (adv t.dep (BitVec.ofNat 16 n) false))
      ∧ (∀ n c, (n = 2 ∧ c = Instr.rptMovw) ∨ (n = 1 ∧ c = Instr.rptMovb) →
        s.dataLoad ext (d.reg 6) n = .ok t v → t.dataStore ext (t.dep.reg 5) n v.toNat = .ok u () → u.dep.reg 7 = 1 →
        DepDone c s u (adv u.dep (BitVec.ofNat 16 n) true))
      ∧ (∀ n c, (n = 2 ∧ c = Instr.rptCmpw) ∨ (n = 1 ∧ c = Instr.rptCmpb) →
        s.dataLoad ext (d.reg 6) n = .ok t v → t.dataLoad ext (t.dep.reg 5) n = .ok u w → u.dep.reg 7 = 1 →
        (v ≠ w → DepDone c s u (u.dep.setFlags (cmpFlags n v w)))
        ∧ (v = w → DepDone c s u ((adv (u.dep.setFlags (cmpFlags n v w)) (BitVec.ofNat 16 n) true).setFlags out))))

/-! ### The deputy's vectors, faults, watchdog and program memory (14 R303, R304, R308, R312 to R314, R323) -/

/-- INTERRUPT_ENTRY takes the lowest vector from 4 to 14 that is pending and enabled while IE is set and no RETI has just completed: PC and the
flags word are pushed, IE is cleared, and the deputy goes on at 4 times the vector; otherwise nothing happens (R312, R313). Here with both
words in data SRAM within the stack's bounds.
A stack address that is odd or outside SPLO to SPHI is a stack fault: the shadow takes PC and the flags word, nothing is pushed or popped, and
vector 1 is taken with IE = 0 (R308, R314).
An undefined form of the deputy takes vector 2; a load or store that is refused records its address and reason in DFADDR and DFINFO and takes
vector 3; so does a jump from outside the extension region into it, its target in DFADDR (R307, R316, R326). -/
def Obligations.DeputyVectorsAndFaults : Prop :=
  (
  ∀ s : State,
    (∀ n, s.dep.asyncVector = some n →
      (4 ≤ n ∧ n < 15 ∧ s.dep.ipend.getLsbD n = true ∧ s.dep.iena.getLsbD n = true ∧ s.dep.ie = true
        ∧ ∀ m, 4 ≤ m → m < n → (s.dep.ipend &&& s.dep.iena).getLsbD m = false)
      ∧ (s.dep.stackBad (s.dep.sp - 2) = false → s.dep.stackBad (s.dep.sp - 4) = false → 4 ≤ s.dep.sp.toNat → s.dep.sp.toNat ≤ 0x8000 →
        smWf 0 0 s.dep.data = true →
        ∃ t, exec .interruptEntry s = .next t ∧ t.dep.pc = BitVec.ofNat 16 (4 * n) ∧ t.dep.ie = false ∧ t.dep.waiting = false ∧ t.dep.pair = none
          ∧ t.dep.sp = s.dep.sp - 4 ∧ (t.dep.sramNat (s.dep.sp - 2).toNat 2).1 = s.dep.resumePc.toNat
          ∧ (t.dep.sramNat (s.dep.sp - 4).toNat 2).1 = (s.dep.flagsWord s.dep.resumeDs).toNat ∧ t.dep.d = s.dep.d))
    ∧ (s.dep.asyncVector = none → Yields .interruptEntry s s)
  ) ∧ (
  ∀ (s : State) (rd : DReg), DepReady s → s.dep.shValid = false →
    let d := s.dep
    let faulted (pop : Bool) : State := { s with dep := { d with
      shpc := d.pc, shfl := d.flagsWord false, shValid := true, shPop := pop, pc := 4, ie := false, retiShadow := false } }
    ((d.sp - 2).getLsbD 0 = true ∨ (d.sp - 2).toNat < d.splo.toNat ∨ d.sphi.toNat < (d.sp - 2).toNat + 1 →
      Yields (.push rd 0 0) s (faulted false))
    ∧ (d.sp.getLsbD 0 = true ∨ d.sp.toNat < d.splo.toNat ∨ d.sphi.toNat < d.sp.toNat + 1 →
      Yields (.pop rd 0 0) s (faulted true) ∧ Yields .deputyRet s (faulted true))
  ) ∧ (
  ∀ (s : State) (rd rs : DReg) (rsv : BitVec 1) (a : Half) (r : Nat), DepReady s →
    let d := s.dep
    let ext := inExt d.pc
    (rsv ≠ 0 → Yields (.deputyAdd rd rs rsv) s (s.enterVector 2 d.pc false))
    ∧ Yields (.ldw rd rs 3) s (s.enterVector 2 d.pc false)
    ∧ Yields (.ldw rd rd 1) s (s.enterVector 2 d.pc false)
    ∧ (s.dataStore ext (d.reg rs) 2 (d.reg rd).toNat = .refuse a r →
        Yields (.stw rd rs 0) s (State.enterVector { s with dep := { d with dfaddr := a, dfinfo := BitVec.ofNat 6 (r % 8 + 8) } } 3 d.pc false))
    ∧ (s.dataLoad ext (d.reg rs) 2 = .refuse a r →
        Yields (.ldw rd rs 0) s (State.enterVector { s with dep := { d with dfaddr := a, dfinfo := BitVec.ofNat 6 (r % 8) } } 3 d.pc false))
    ∧ (inExt d.pc = false → inExt (d.reg rs) = true →
        Yields (.jmp false rs 0) s
          (State.enterVector { s with dep := { d with dfaddr := d.reg rs, dfinfo := BitVec.ofNat 6 (5 + 16) } } 3 d.pc false))
  )

/-- The watchdog's first stage raises vector 4 while it counts, enabled under running firmware (that it counts in no other boot status is this
model's reading, log 175); a kick with 0x5A1E ends the second stage and any other value does nothing; the end of the second stage is the
watchdog's record of cause 1, and a stage that does not count is left alone. The timer's expiry reloads it
and raises vector 14 (R323, R324, Table 14.9).
WINDOW_WRITE_PERFORM performs the oldest posted window write, which leaves the queue, unless it has to wait; an empty queue stays. A core-window
read waits until every posted write is performed; where it is refused it performs no more, and otherwise reads two bytes at an even offset, one
at an odd one. A core-window write that is refused does nothing; with no write posted before it, it is performed at once, or posted where its
register makes it wait (R316, R317, log 76). -/
def Obligations.WatchdogTimerAndWindow : Prop :=
  (
  ∀ (s : State) (v : BitVec 16),
    (∃ t, exec .watchdogFirstStage s = .next t
      ∧ (s.dep.wdEn = true → s.dep.bootStatus = 1 → s.dep.wdSecond = false → t.dep.wdSecond = true ∧ t.dep.ipend = s.dep.ipend ||| 0x10)
      ∧ ((s.dep.wdEn && decide (s.dep.bootStatus = 1) && !s.dep.wdSecond) = false → t.dep = s.dep))
    ∧ Yields (.wdkick v) s (if v = 0x5A1E then { s with dep := { s.dep with wdSecond := false } } else s)
    ∧ (s.dep.wdEn = true → s.dep.bootStatus = 1 → s.dep.wdSecond = true → Yields .watchdogRecord s (s.watchdog 1 none))
    ∧ ((s.dep.wdEn && decide (s.dep.bootStatus = 1) && s.dep.wdSecond) = false → Yields .watchdogRecord s s)
    ∧ (∃ t, exec .timerExpiry s = .next t
      ∧ (s.dep.tmrEn = true → t.dep.tmrcnt = s.dep.tmrld ∧ t.dep.ipend = s.dep.ipend ||| 0x4000) ∧ (s.dep.tmrEn = false → t.dep = s.dep))
  ) ∧ (
  ∀ (s : State) (off : BitVec 14) (v : BitVec 16) (secure : Bool),
    (s.dep.wqueue = [] → Yields .windowWritePerform s s)
    ∧ (∀ w q t, s.dep.wqueue = w :: q → State.winPerform { s with dep := { s.dep with wqueue := q } } w = some t → Yields .windowWritePerform s t)
    ∧ (∀ w q, s.dep.wqueue = w :: q → State.winPerform { s with dep := { s.dep with wqueue := q } } w = none → Yields .windowWritePerform s s)
    ∧ (s.flushed = none → Yields (.coreWindowRead off) s s)
    ∧ (∀ t, s.flushed = some t →
        ((t.coreWindowFault false off.toNat).isSome = true → Yields (.coreWindowRead off) s t)
        ∧ (t.coreWindowFault false off.toNat = none →
            Yields (.coreWindowRead off) s (t.coreWindowGet off.toNat (if off.toNat % 2 = 0 then 2 else 1)).1))
    ∧ (s.dep.wqueue = [] →
        ((s.coreWindowFault (!secure) off.toNat).isSome = true → Yields (.coreWindowWrite off v secure) s s)
        ∧ (s.coreWindowFault (!secure) off.toNat = none →
            let n := if off.toNat % 2 = 0 then 2 else 1
            (∀ t, s.coreWindowPut off.toNat n (v.toNat % 2 ^ (8 * n)) secure = some t → t.dep.wqueue = [] →
              Yields (.coreWindowWrite off v secure) s t)
            ∧ (s.coreWindowPut off.toNat n (v.toNat % 2 ^ (8 * n)) secure = none →
              ∃ t w, exec (.coreWindowWrite off v secure) s = .next t ∧ t.dep.wqueue = [w] ∧ w.addr.toNat = 0xC000 + off.toNat
                ∧ w.bytes = n ∧ w.secure = secure ∧ w.value.toNat = v.toNat % 2 ^ (8 * n))))
  )

/-- A write of PMDATA puts 14 bits at PMADDR, which then advances, while LOCK is clear; once it is set neither changes. LOCK can only be set, and the
spare block stays as it is once it is (R303, R304, Table 14.12). -/
def Obligations.ProgramMemoryLock : Prop :=
  ∀ (s : State) (v : BitVec 16),
    (∃ t, exec (.pmdataWrite v) s = .next t
      ∧ (s.dep.lock = true → t.dep = s.dep)
      ∧ (s.dep.lock = false → t.dep.pmaddr = s.dep.pmaddr + 1
        ∧ (s.dep.pmaddr.toNat < 0x4000 → t.dep = { s.dep.progSet s.dep.pmaddr.toNat (v.setWidth 14) with pmaddr := s.dep.pmaddr + 1 })))
    ∧ (∃ t, exec (.pmctlWrite v) s = .next t
      ∧ (s.dep.lock = true → t.dep = s.dep)
      ∧ (s.dep.lock = false → t.dep.lock = v.getLsbD 0 ∧ t.dep.spblk = v.extractLsb' 1 4 ∧ t.dep.spen = v.getLsbD 5))

/-! ### The winze port and the memory system's happenings (02 R56 to R62, 03) -/

/-- A winze instruction offers its request with the operands, their parity, privilege and level, and waits; its parity failing raises cause 20;
without the port it is undefined, as opcodes 0x3C to 0x3F are in every build (00 R5). Before its instruction is the oldest a request is offered
as a speculative one where the logic accepts that, and its answer is kept for the instruction. The request transfers; a good response writes rd
and completes the instruction, other statuses raise causes 1 and 20, as does a timeout, whose tag is ignored from then on; a response with
another tag is ignored (R56 to R60). -/
def Obligations.WinzePort : Prop :=
  (∀ (s u : State) (rd ra rb : RegIx) (op : BitVec 3) (func : BitVec 11) (tag : BitVec 4), Issues s u → u.wz.early = [] →
    let w := encR (0x38 + op.toNat) rd ra rb func.toNat
    (u.build.winze = true → op.toNat < 4 → u.wz.pickTag = some tag →
      Yields (.winzeRequest rd ra rb op func false none) s { u with wz := { u.wz with
        req := some { tag := tag, op := op.setWidth 2, func := func, a := u.readG ra, b := u.readG rb, priv := u.super, lvl := u.lvl, csr := false,
                      rd := rd, word := w, spec := false, apar := byteParity (u.readG ra), bpar := byteParity (u.readG rb), pc := u.bank.pc,
                      transferred := false, answer := none }
        ignored := u.wz.ignored.erase tag, nextTag := tag + 1 } })
    ∧ (u.build.winze = true → op.toNat < 4 → Traps (.winzeRequest rd ra rb op func true none) s u { cause := 20, einfo := 8 })
    ∧ (u.build.winze = false ∨ 4 ≤ op.toNat → ∀ p, Traps (.winzeRequest rd ra rb op func p none) s u { cause := 1, eaddr := w }))
  ∧ (∀ (s : State) (rd ra rb : RegIx) (op : BitVec 3) (func : BitVec 11) (pc : Word) (p : Bool) (tag : BitVec 4),
    (s.wz.specsafe = false ∨ 4 ≤ op.toNat ∨ p = true → Yields (.winzeRequest rd ra rb op func p (some pc)) s s)
    ∧ (s.coreRuns = true → s.build.winze = true → s.wz.specsafe = true → op.toNat < 4 → s.wz.pickTag = some tag →
      Yields (.winzeRequest rd ra rb op func false (some pc)) s { s with wz := { s.wz with
        early := s.wz.early ++ [{ tag := tag, op := op.setWidth 2, func := func, a := s.readG ra, b := s.readG rb, priv := s.super, lvl := s.lvl,
                                  csr := false, rd := rd, word := encR (0x38 + op.toNat) rd ra rb func.toNat, spec := true,
                                  apar := byteParity (s.readG ra), bpar := byteParity (s.readG rb), pc := pc, transferred := false, answer := none }]
        ignored := s.wz.ignored.erase tag, nextTag := tag + 1 } }))
  ∧ (∀ (s u : State) (r : WzReq) (data : Word), Issues s u → u.build.winze = true → u.wz.early = [r] → r.csr = false → r.spec = true →
      r.priv = u.super → r.lvl = u.lvl → r.pc = u.bank.pc → r.answer = some (.ok data) →
      ∀ (ra rb : RegIx), r.a = u.readG ra → r.b = u.readG rb → r.apar = byteParity r.a → r.bpar = byteParity r.b →
        r.word = encR (0x38 + r.op.toNat) r.rd ra rb r.func.toNat → ∀ p,
        Completes (.winzeRequest r.rd ra rb (r.op.setWidth 3) r.func p none) s
          (({ u with wz := { u.wz with early := [] } } : State).writeG r.rd data))
  ∧ (∀ (s : State) (r : WzReq) (q : List WzReq) (data : Word), s.wz.req = none → s.wz.early = r :: q →
    (r.transferred = false → Yields .wzReqTransfer s { s with wz := { s.wz with early := { r with transferred := true } :: q } })
    ∧ (q = [] → r.transferred = true → r.answer = none →
      Yields (.wzRsp r.tag data (byteParity data) 0) s { s with wz := { s.wz with early := [{ r with answer := some (.ok data) }] } }))
  ∧ (∀ (s : State) (r : WzReq) (data : Word), s.wz.req = some r → s.wz.early = [] → s.core.entryWaits = false →
    let ended : State := { s with wz := { s.wz with req := none } }
    (r.transferred = false → Yields .wzReqTransfer s { s with wz := { s.wz with req := some { r with transferred := true } } })
    ∧ (r.transferred = true →
      Yields (.wzRsp r.tag data (byteParity data) 0) s (ended.writeG r.rd data).advancePc.retire
      ∧ Yields (.wzRsp r.tag data (byteParity data) 1) s (ended.takeException { cause := 1, eaddr := r.word, einfo := 1 })
      ∧ Yields (.wzRsp r.tag data (byteParity data) 2) s (ended.takeException { cause := 20, eaddr := data, einfo := 0 })
      ∧ (∃ t, exec (.wzTimeout r.tag) s = .next t ∧ t.wz.req = none ∧ t.wz.timeouts = satInc s.wz.timeouts ∧ t.wz.ignored = r.tag :: s.wz.ignored
          ∧ (s.lvl ≠ 7 → s.bank.excm = false → t.bank.ecause = 20 ∧ t.bank.einfo = 2)))
    ∧ (∀ tag, tag ≠ r.tag → Yields (.wzRsp tag data (byteParity data) 0) s { s with wz := { s.wz with ignored := s.wz.ignored.erase tag } }))

/-- A buffered store leaves for the caches where no earlier one overlaps it or goes, like it, to a device and, for a release, none is earlier;
it stays where one overlaps it, and a release that is not the oldest stays. The oldest always may. A device load's data, clean, completes its
instruction with rt written, or RET with SP and PC; poisoned, it raises cause 25 (03 R75, R77, 02 R44).
A write of TSCFG waits while a reassignment runs; a value of more steps than there are, or the one it has, changes nothing; another value is taken, the
tile-store cache written back and bypassed, and BUSY set until REASSIGNMENT_END clears it and leaves the steps that were cache zero (03 R82).
A tracker that is off, or whose prefetcher is, does nothing, nor does one whose stream is not confirmed or is DIST lines ahead; at a page border
it stops; a line whose page has no matching TLB slot is dropped and counted; one that maps to normal cached memory is issued, counted and
remembered with the caches it goes into. A stream is confirmed by three misses at one stride of at most 32 lines in a page (03 R84; what a miss
at another stride does to a tracker is this model's reading, log 158). -/
def Obligations.StoreBufferReassignmentPrefetch : Prop :=
  (
  (∀ (s : State) (e : StoreEntry) (q : List StoreEntry), s.mem.sb = e :: q →
    Yields (.storeBufferDrain 0) s { s with mem := { s.mem.performStore e with sb := q } })
  ∧ (∀ (s : State) (i : Nat) (e : StoreEntry), s.mem.sb[i]? = some e → (∃ x ∈ s.mem.sb.take i, overlaps x.pa x.size e.pa e.size = true) →
    Yields (.storeBufferDrain i) s s)
  ∧ (∀ (s : State) (i : Nat) (e : StoreEntry), s.mem.sb[i]? = some e →
    (e.release = true → i ≠ 0 → Yields (.storeBufferDrain i) s s)
    ∧ ((e.release = true → i = 0) → (∀ x ∈ s.mem.sb.take i, overlaps x.pa x.size e.pa e.size = false ∧ ¬(x.ty = .device ∧ e.ty = .device)) →
      Yields (.storeBufferDrain i) s { s with mem := { s.mem.performStore e with sb := s.mem.sb.eraseIdx i } }))
  ∧ (∀ (s : State) (i : Nat), s.mem.sb[i]? = none → Yields (.storeBufferDrain i) s s)
  ∧ (∀ (s : State) (level : BitVec 3) (data : Word) (rt : RegIx) (size : BitVec 2) (sx : Bool) (pa : Nat) (va : Word) (k : Nat),
    let d : DevLoad := { level := levelOf level, dest := .reg rt size sx, pa := pa, va := va, background := false, tries := k }
    s.core.devLoads = [d] →
    let ended : State := { s with core := { s.core with devLoads := [] } }
    Yields (.deviceLoadReturn level data false) s (ended.writeG rt (extendBytes data.toNat (2 ^ size.toNat) sx)).advancePc.retire
    ∧ Yields (.deviceLoadReturn level data true) s (ended.takeException { cause := 25, eaddr := va }))
  ∧ (∀ (s : State) (level : BitVec 3) (data : Word) (pa : Nat) (va : Word) (k : Nat), data.toNat % 4 = 0 →
    s.core.devLoads = [{ level := levelOf level, dest := .ret, pa := pa, va := va, background := false, tries := k }] →
    let ended : State := { s with core := { s.core with devLoads := [] } }
    Yields (.deviceLoadReturn level data false) s ((ended.setSp (s.bank.sp + 8)).setPc data).retire)
  ) ∧ (
  ∀ (s : State) (v : BitVec 64),
    let n : BitVec 4 := v.setWidth 4
    (s.ts.busy = true → Yields (.tscfgWrite v) s s)
    ∧ (s.ts.busy = false → (s.tsSteps < n.toNat ∨ n = s.ts.cache16) → Yields (.tscfgWrite v) s s)
    ∧ (s.ts.busy = false → n.toNat ≤ s.tsSteps → n ≠ s.ts.cache16 → ∃ t, exec (.tscfgWrite v) s = .next t ∧ t.ts.cache16 = n ∧ t.ts.busy = true
        ∧ t.mem.tsc = [] ∧ t.mem.tsSets = 0 ∧ t.core = (hardwire s s).core)
    ∧ (∃ t, exec .reassignmentEnd s = .next t ∧ t.ts.busy = false ∧ (s.ts.busy = true → t.mem.tsSets = s.ts.cache16.toNat * 8192)
        ∧ (s.ts.busy = true → ∀ k < (s.tsSteps - s.ts.cache16.toNat) * 2 ^ 24, s.ts.kept * 2 ^ 24 ≤ k →
            t.mem.backByte (0x7FFF00000000 + k) = 0))
  ) ∧ (
  (∀ (s : State) (tr : BitVec 5) (va : Word),
    let i := regFin tr
    let line := va.toNat / 64
    ((s.pf.en = false ∨ s.pf.trackers.toNat ≤ tr.toNat ∨ s.pf.streams[i] = none) → Yields (.streamPrefetch tr va) s s)
    ∧ (∀ k, s.pf.en = true → tr.toNat < s.pf.trackers.toNat → s.pf.streams[i] = some k →
      let moved (p : Prefetch) : Prefetch :=
        { p with streams := p.streams.set i (some { k with ahead := k.ahead + 1 }), recent := i :: p.recent.erase i }
      (k.misses < 3 ∨ s.pf.dist.toNat ≤ k.ahead → Yields (.streamPrefetch tr va) s s)
      ∧ (3 ≤ k.misses → k.ahead < s.pf.dist.toNat → (line : Int) = (k.last : Int) + k.stride * ((k.ahead : Int) + 1) →
        (line / 256 ≠ k.last / 256 →
          Yields (.streamPrefetch tr va) s { s with pf := { s.pf with streams := s.pf.streams.set i none, recent := s.pf.recent.erase i } })
        ∧ (∀ w, line / 256 = k.last / 256 → va.toNat < onCoreBase → s.lookTlb false va = (w, none) →
          Yields (.streamPrefetch tr va) s { w with pf := moved { w.pf with dropped := w.pf.dropped + 1 } })
        ∧ (∀ w x slot pa, line / 256 = k.last / 256 → va.toNat < onCoreBase → s.lookTlb false va = (w, some slot) →
          slot.serves { kind := .load, va := va, eaddr := va, priv := w.super } = true →
          w.checkPhys { kind := .load, va := va, eaddr := va, priv := w.super }
            ((slot.ppage + (va.toNat / 2 ^ 14 - slot.vpage)) * 2 ^ 14 + va.toNat % 2 ^ 14) slot.mt.toNat = .ok x (.phys pa .cached) →
          let y := x.portRead 0 false .cached pa 64
          Yields (.streamPrefetch tr va) s
            { y with pf := moved { y.pf with issued := y.pf.issued + 1, fetched := some (line, y.pf.l1) } }))))
  ∧ (∀ (n d : Int) (a b c : Nat), (a : Int) = n → (b : Int) = n + d → (c : Int) = n + 2 * d → d ≠ 0 → d.natAbs ≤ 32 →
      a / 256 = b / 256 → b / 256 = c / 256 →
      ∃ k, ((Tracker.first a).after b).bind (fun t => t.after c) = some k ∧ k.misses = 3 ∧ k.stride = d ∧ k.last = c ∧ k.ahead = 0)
  )

/-! ### Held faults and tasks (04 R101 to R103, 05 R114 to R123, R135 to R138) -/

/-- RETRY frees a held record; DECLINE, or its hold limit where there is one, frees it, counts, and refuses each access that waited: the core's with
its exception, EINFO[14] telling a limit; a record that is not valid stays, as does one on a page under migration that is declined (12 R266).
S2INV runs for the deputy until it is complete, which waits for every earlier access of the core (R101 to R103). -/
def Obligations.HeldFaults : Prop :=
  ∀ (s : State) (slot : BitVec 2),
    let i : Fin 4 := ⟨slot.toNat, slot.isLt⟩
    let r := s.xl.held[i]
    let freed : State := { s with xl := { s.xl with held := s.xl.held.set i { r with valid := false, waiters := [] } } }
    (r.valid = true → Yields (.retry slot) s freed)
    ∧ (r.valid = false → Yields (.retry slot) s s ∧ Yields (.decline slot) s s ∧ Yields (.holdLimit slot) s s)
    ∧ (r.valid = true → s.xl.holdlim = 0 → Yields (.holdLimit slot) s s)
    ∧ (s.underMigration (r.ia.toNat / 2 ^ 14) = true → Yields (.decline slot) s s)
    ∧ (r.valid = true → s.underMigration (r.ia.toNat / 2 ^ 14) = false → r.waiters = [] → ∃ t, exec (.decline slot) s = .next t ∧ t.xl.held[i].valid = false
        ∧ t.xl.cntDeclined = satInc s.xl.cntDeclined ∧ t.core = (hardwire s s).core)
    ∧ (∀ c a e, r.valid = true → s.xl.holdlim ≠ 0 → r.waiters = [.core c a e] → s.core.mode = .run → s.lvl ≠ 7 → s.bank.excm = false →
        c < 32 → ∃ t, exec (.holdLimit slot) s = .next t ∧ t.xl.held[i].valid = false ∧ t.xl.cntTimeouts = satInc s.xl.cntTimeouts
          ∧ t.bank.ecause = BitVec.ofNat 6 c ∧ t.bank.eaddr = a ∧ t.bank.einfo = e ||| 0x4000)
    ∧ Yields .s2inv s s.s2go
    ∧ (s.tileStuck = true → Yields .s2invComplete s s)
    ∧ (s.tileStuck = false →
      let p := s.performAll
      Yields .s2invComplete s { p with win := { p.win with s2busy := false } })

/-- A pointer written to RLADD joins the ready list as its youngest, ending SLEEP and the wait before a task take (13 R289), or sets OVF where 64 wait; TSBPn of a level without a bank, and
BANKPOL outside level 0, take or ignore the write as R118 and R116 say; a level that runs keeps its pointer.
The banksman switches a running core at level 0 to the next ready task: at once where none runs, and where the running one has a TSB, is not
held to the core and has a lower sub-priority number; a task of no higher number, an empty list, another level or a core that does not run change nothing (R123). -/
def Obligations.ReadyListAndTaskSwitches : Prop :=
  (
  ∀ (s : State) (v : Word) (n : BitVec 3),
    let l := levelOf n
    let t37 : BitVec 37 := BitVec.ofNat 37 (v.toNat / 1024)
    (s.bm.ready.length < 64 → Yields (.rladd v) s { s with
        bm := { s.bm with ready := s.bm.ready ++ [{ tsb := t37, subpri := v.setWidth 4, tilewait := false }] }
        core := { s.core with sleeping := false }
        sy := { s.sy with phase := if s.sy.phase = .waiting then .idle else s.sy.phase } })
    ∧ (64 ≤ s.bm.ready.length → Yields (.rladd v) s { s with bm := { s.bm with rlOvf := true } })
    ∧ (n ≠ 0 → s.core.active[l] = true → Yields (.tsbpWrite n v) s s)
    ∧ (n ≠ 0 → s.core.active[l] = false → s.core.resident[l] = false → s.bm.spill = false →
        Yields (.tsbpWrite n v) s { s with bm := { s.bm with tsbp := s.bm.tsbp.set l t37 } })
    ∧ (∃ t, exec (.tsbpWrite 0 v) s = .next t ∧ t.bm.tsbp = s.bm.tsbp.set 0 t37)
    ∧ (s.lvl ≠ 0 → Yields (.bankpolWrite v) s s)
    ∧ (s.lvl = 0 → (∀ k : Fin 8, s.core.resident[k] = true) → v.getLsbD 0 = true → ∃ t, exec (.bankpolWrite v) s = .next t
        ∧ t.bm.spill = true ∧ t.core.banks = s.core.banks ∧ ∀ k : Fin 8, t.core.resident[k] = true)
  ) ∧ (
  ∀ s : State, s.core.devLoads = [] → s.wz.req = none →
    (s.core.mode ≠ .run ∨ s.lvl ≠ 0 ∨ nextReady s.bm.ready = none → s.res.bankPoison[s.lvl] = false → Yields .taskSwitch s s)
    ∧ (∀ e u, s.core.mode = .run → s.lvl = 0 → nextReady s.bm.ready = some e →
      (s.core.taskRunning = true → e.subpri ≤ (s.bankOf 0).subpri → s.res.bankPoison[s.lvl] = false → Yields .taskSwitch s s)
      ∧ (s.core.taskRunning = false → (s.setReady (s.bm.ready.erase e)).loadTask e.tsb = .ok u → (u.bankOf 0).pc.toNat % 4 = 0 →
          u.res.bankPoison[u.lvl] = false → Yields .taskSwitch s u.cancelEarly.dropCoreWaiters)
      ∧ (s.core.taskRunning = true → s.bm.tsbp[0] ≠ 0 → s.levelZeroPinned = false → (s.bankOf 0).subpri < e.subpri →
          s.switchTo e (some (s.runningEntry false)) = u → u.res.bankPoison[u.lvl] = false → Yields .taskSwitch s u))
  )

/-- The tile state's moves between contexts as commands: the lazy fill leaves the current level the owner and marks its LZFILL, the former owner
displaced; a lazy restore gives the displaced owner its state back; a budget that ends is 0; a time-slice save leaves no holder;
a restore makes the running task holder with a fresh budget (R136 to R138). -/
def Obligations.TileOwnershipMoves : Prop :=
  ∀ (s t : State) (o d : TileOwner) (rest : List TileOwner),
    (s.bm.owner = some o → s.canIssue = true → o.pend = true → s.lvl ≠ 0 → s.lazyFill o = .ok t →
      Yields .lazyFill s t ∧ (∃ w, t.bm.owner = some w ∧ w.level = s.lvl ∧ w.pend = false) ∧ (t.bankOf s.lvl).lzfill = true
      ∧ ∃ below, t.bm.displaced = { o with pend := false, filled := true, filler := s.lvl } :: below)
    ∧ (s.bm.displaced = d :: rest → s.canIssue = true → d.filler = s.lvl → s.lvl ≠ 0 →
      s.lazyRestore d = .ok t → ∃ u, exec .lazyRestore s = .next u ∧ u.bm.displaced = rest
        ∧ (∃ w, u.bm.owner = some w ∧ w.level = d.level ∧ w.filled = false) ∧ u.tile = t.tile ∧ u.mem = t.mem)
    ∧ (s.bm.owner = none → Yields .lazyFill s s ∧ Yields .timeSliceSave s s)
    ∧ (s.bm.displaced = [] → Yields .lazyRestore s s)
    ∧ (s.bm.owner = some o → o.level = 0 → s.bm.unlimited = false → ∃ u, exec .budgetEnd s = .next u ∧ u.bm.left = 0 ∧ u.bm.owner = some o)
    ∧ (s.bm.unlimited = true → Yields .budgetEnd s s)
    ∧ (s.bm.owner = some o → s.contends o = true → s.bm.left = 0 → s.bm.unlimited = false → s.tsave o.tsb ≠ 0 → s.timeSliceSave o = .ok t →
      Yields .timeSliceSave s t ∧ t.bm.owner = none)
    ∧ (s.bm.owner = none → s.canIssue = true → s.lvl = 0 → s.timeSliceRestore = .ok t → Yields .timeSliceRestore s t
        ∧ (∃ w, t.bm.owner = some w ∧ w.level = 0) ∧ t.bm.left = t.bm.quant)

/-! ### The assay, calibration, fills and parity (11, 16) -/

/-- A same-format check takes the oldest sample and counts it; with an element of the stope that differs from the recomputed one, hardware errors of either counting alike, it is a mismatch:
counted, captured where no capture is held, EV44 pending and deputy vector 10 raised. A wide check counts its sample's bucket in its tag's
histogram and captures an alarm from ALBKT up. CLR zeroes the counters of the tag selected and no others (R248, R249, R252, R253, Table 11.9). -/
def Obligations.AssayChecks : Prop :=
  ∀ s : State,
    (∀ f, s.assay.pend = [] → Yields (.sameFormatCheck f) s s)
    ∧ (∀ f p q, s.assay.pend = p :: q → s.windowOpen = false → p.got = (p.misread f).ref →
      Yields (.sameFormatCheck f) s (({ s with assay := { s.assay with pend := q, samples := s.assay.samples + 1 } } : State).tallyInc 0x38))
    ∧ (∀ f p q e, s.assay.pend = p :: q → e < 256 → ((p.misread f).ref[e]?).getD 0 ≠ (p.got[e]?).getD 0 →
      s.pwr.latching = false → s.firmware = false → s.assay.stepOpen = false → s.res.fills[0].openFill = none →
      ∃ t, exec (.sameFormatCheck f) s = .next t ∧ t.assay.pend = q ∧ t.assay.samples = s.assay.samples + 1
        ∧ t.assay.mismatch = s.assay.mismatch + 1 ∧ t.assay.misValid = true ∧ (s.assay.misValid = false → t.assay.misSample = p.sample)
        ∧ t.bm.evpend.getLsbD 44 = true ∧ t.dep.ipend.getLsbD 10 = true)
    ∧ (s.assay.widePend = none → Yields .wideCheck s s)
    ∧ (∀ p, s.assay.widePend = some p → smWf 0 0 s.assay.hist = true → ∃ t, exec .wideCheck s = .next t ∧ t.assay.widePend = none
        ∧ t.assay.wides = s.assay.wides + 1
        ∧ smGet 0 (32 * p.ltag.toNat + p.bucket.toNat) t.assay.hist = satInc (smGet 0 (32 * p.ltag.toNat + p.bucket.toNat) s.assay.hist)
        ∧ (s.assay.albkt ≤ p.bucket → t.assay.alValid = true) ∧ (p.bucket < s.assay.albkt → t.assay.alValid = s.assay.alValid))
    ∧ (∃ t, exec .ashselClr s = .next t ∧ ∀ k, smGet 0 k t.assay.hist = if k / 32 = s.assay.selTag.toNat then 0 else smGet 0 k s.assay.hist)

/-- A calibration period opens a step on the knob not tried last where it can move, and counts a period of hold-off down; a step whose window ended
without a mismatch makes its point the last good one, and closes; the tuning of a channel whose 4,096 shadow samples are complete, those that the command tells of counted first, moves its
delay code by one within 0 to 31 toward the fewer fails, where early and late differ by more than 16, and clears the counts (R254, R257, R258). -/
def Obligations.Calibration : Prop :=
  ∀ (s : State) (ch : BitVec 5) (early late : List Bool),
    ((s.firmware = false ∨ s.calEnabled = false ∨ s.assay.stepOpen = true) → Yields .calibrationStep s s)
    ∧ (s.firmware = true → s.calEnabled = true → s.assay.stepOpen = false →
      (s.assay.holdoff ≠ 0 → Yields .calibrationStep s { s with assay := { s.assay with holdoff := s.assay.holdoff - 1 } })
      ∧ (s.assay.holdoff = 0 → s.stopeFillBusy = false → s.assay.lastKnob = true → s.canLess false = true → ∃ t, exec .calibrationStep s = .next t
          ∧ t.assay.stepOpen = true ∧ t.assay.knob = false ∧ t.assay.vid = s.assay.vid - 1 ∧ t.assay.trim = s.assay.trim ∧ t.pwr.vidOk = false
          ∧ t.assay.lastKnob = false)
      ∧ (s.assay.holdoff = 0 → s.stopeFillBusy = false → s.assay.lastKnob = false → s.canLess true = true → ∃ t, exec .calibrationStep s = .next t
          ∧ t.assay.stepOpen = true ∧ t.assay.knob = true ∧ t.assay.vid = s.assay.vid ∧ t.assay.trim = s.assay.trim + 1))
    ∧ (s.firmware = true → s.assay.stepOpen = true → s.assay.stepFail = none → s.windowDone = true → ∃ t, exec .calibrationStepClose s = .next t
        ∧ t.assay.stepOpen = false ∧ t.assay.goodVid = s.assay.vid ∧ t.assay.goodTrim = s.assay.trim ∧ t.assay.vid = s.assay.vid)
    ∧ ((s.firmware && s.assay.stepOpen && s.windowDone) = false → Yields .calibrationStepClose s s)
    ∧ (let h := regFin ch
       let x := (early.zip late).foldl shadowCount s.win.d2dcnt[h]
       let code := s.assay.delay[h]
       (s.firmware = false ∨ s.calEnabled = false ∨ s.tuningHeld h = true ∨ x.2.2.toNat < 4096 →
          Yields (.d2dTuning ch early late) s (s.countShadows h (early.zip late)))
       ∧ s.countShadows h [] = s
       ∧ (s.firmware = true → s.calEnabled = true → s.tuningHeld h = false → 4096 ≤ x.2.2.toNat → ∃ t, exec (.d2dTuning ch early late) s = .next t
          ∧ t.win.d2dcnt = s.win.d2dcnt.set h (0, 0, 0)
          ∧ t.assay.delay = s.assay.delay.set h
              (if x.2.1.toNat + 16 < x.1.toNat ∧ code.toNat < 31 then code + 1
               else if x.1.toNat + 16 < x.2.1.toNat ∧ code ≠ 0 then code - 1 else code)))

/-- The fill requests of the five classes: a unit that is not one, or is dead, queued or being filled, changes nothing; a request beyond 4 queued ones
fences its unit and is counted as dropped; another joins the queue. Closing the open fill of a class takes its unit out of use, its spare
into use, and raises vector 11; with none open nothing happens (R357).
A parity error found in a class whose structures are powered is handled by its class and captured with vector 11, and its unit's
spares are asked; in one that is not powered nothing is found. An error in a clean cache line drops it, one in an only copy poisons its granule; a TLB
slot in error is dropped; an error on-core poisons its granule; a buffered store writes poisoned; a sync record in error is poisoned; one in the
running level's bank escalates the level (R351, Tables 16.1, 16.2). -/
def Obligations.FillsAndParityErrors : Prop :=
  (
  ∀ (s : State) (u : BitVec 12),
    let cmd (c : Fin 5) : Instr :=
      if c = 0 then .stopeColumnFill u else if c = 1 then .tileStoreBankFill u else if c = 2 then .operandTileRowFill u
      else if c = 3 then .registerBankFill u else .l2WayFill u
    (∀ c : Fin 5, exec (cmd c) s = .next (hardwire s (s.requestFill c u.toNat)))
    ∧ (∀ c : Fin 5, (s.fillUnit c u.toNat = false ∨ u.toNat ∈ s.res.fills[c].queue ∨ u.toNat ∈ s.res.fills[c].dead) → Yields (cmd c) s s)
    ∧ (∀ c : Fin 5, s.fillUnit c u.toNat = true → u.toNat ∉ s.res.fills[c].queue → u.toNat ∉ s.res.fills[c].dead →
      (∃ o, s.res.fills[c].openFill = some o ∧ o.unit ≠ u.toNat) →
      ∃ t, exec (cmd c) s = .next t ∧ u.toNat ∈ t.res.fills[c].fenced
        ∧ t.res.fills[c].queue = if 4 ≤ s.res.fills[c].queue.length then s.res.fills[c].queue else s.res.fills[c].queue ++ [u.toNat])
    ∧ (∀ c : Fin 5, s.res.fills[c].openFill = none → Yields (.fillClose (BitVec.ofNat 3 c.val)) s s)
    ∧ (∀ (c : Fin 5) o, s.res.fills[c].openFill = some o → 
        (o.spare.isNone && s.tile.queue.any fun e => e.started && (e.op.unit == .stope || e.op.unit == .seam)) = false →
        let t := ((s.closeFill c o false).openQueued c).marginAfterFill
        Yields (.fillClose (BitVec.ofNat 3 c.val)) s (if c = 1 then t.tuneAfterFill o.unit else t))
    ∧ (∀ (c : Fin 5) o, s.res.fills[c].openFill = some o →
        (o.spare.isNone && s.tile.queue.any fun e => e.started && (e.op.unit == .stope || e.op.unit == .seam)) = true →
        Yields (.fillClose (BitVec.ofNat 3 c.val)) s s)
    ∧ (∀ (c : Fin 5) o,
        let t := s.closeFill c o false
        o.unit ∈ t.res.fills[c].dead ∧ (∀ n, o.spare = some n → (n, o.unit) ∈ t.res.fills[c].inUse) ∧ t.res.fills[c].openFill = none
          ∧ t.dep.ipend.getLsbD 11 = true)
  ) ∧ (
  ∀ (s : State) (cls : BitVec 4) (clean : Bool) (unit : BitVec 12) (addr : BitVec 47) (part : BitVec 13), cls.toNat < 14 →
    (s.parityPowered cls.toNat = false → Yields (.parityError cls clean unit addr part) s s)
    ∧ (s.parityPowered cls.toNat = true → Yields (.parityError cls clean unit addr part) s
        ((s.parityFound (Fin.ofNat 14 cls.toNat) clean unit.toNat addr.toNat part.toNat).paritySpares cls.toNat unit.toNat part.toNat))
    ∧ (cls ≠ 8 → s.res.capValid = false →
        let t := s.parityFound (Fin.ofNat 14 cls.toNat) clean unit.toNat addr.toNat part.toNat
        t.res.capValid = true ∧ t.res.capClass = cls ∧ t.res.capUnit = unit ∧ t.res.capAddr = addr ∧ t.dep.ipend.getLsbD 11 = true)
    ∧ (s.parityEffect 3 clean unit.toNat addr.toNat 0).xl.tlb = s.xl.tlb.eraseIdx unit.toNat
    ∧ (s.parityEffect 6 clean unit.toNat addr.toNat 0).mem.onCorePoison = nsInsert (addr.toNat % 0x4800 / 64) s.mem.onCorePoison
    ∧ (let g := addr.toNat / 64
       let t := s.parityEffect 1 false unit.toNat addr.toNat 0
       (∀ l, lineFind g s.mem.cache = some l → t.mem.poisoned g = true)
       ∧ (s.mem.dirty g = none → t.mem.poisoned g = nsMem g s.mem.poison)
       ∧ (∀ k ≠ g, t.mem.poisoned k = s.mem.poisoned k) ∧ (∀ a, t.mem.byte a = s.mem.byte a))
    ∧ (∀ e, (s.parityEffect 4 clean unit.toNat addr.toNat 0).mem.sb[unit.toNat]? = some e → e.poison = true)
    ∧ (smWf SyncObj.zero 0 s.sy.objs = true → ((s.parityEffect 13 clean unit.toNat addr.toNat 0).obj (addr.setWidth 13)).pois = true)
    ∧ (s.core.mode = .run → s.levelOfPhys unit.toNat = some s.lvl →
        s.parityEffect 5 clean unit.toNat addr.toNat part.toNat = s.escalate 25 (wd part.toNat) 4 s.bank.pc)
  )

/-! ### Haulage (12 R262 to R272) -/

/-- A heat event joins the queue while stage 2 is on, or is dropped and counted where 64 wait; the oldest queued one counts at its page's entry, whose
counter saturates; a page with no entry takes an invalid way of its set. A pass halves every counter once, set by set, and is ignored while one runs; a
set that it has reached when an event meets it counts halved. A read of HTWDATA snapshots the entry that HTWSEL names (R262 to R264). -/
def Obligations.HeatTable : Prop :=
  ∀ (s : State) (p : BitVec 33),
    (s.hl.queue = [] → Yields (.heatEvent none) s s)
    ∧ (s.xl.s2en = true → s.hl.queue.length = 64 → ∃ t, exec (.heatEvent (some p)) s = .next t ∧ t.hl.drop = s.hl.drop + 1 ∧ t.hl.queue = s.hl.queue.drop 1)
    ∧ (s.xl.s2en = true → s.hl.queue.length < 64 →
        exec (.heatEvent (some p)) s = exec (.heatEvent none) { s with hl := { s.hl with queue := s.hl.queue ++ [(true, p)] } })
    ∧ (s.xl.s2en = false → exec (.heatEvent (some p)) s = exec (.heatEvent none) s)
    ∧ (∀ miss q, s.hl.queue = (miss, p) :: q →
      let set := 4 * (p.toNat % 4096)
      let after (n : Nat) (e : HeatEntry) : State := { s with hl := { s.hl with queue := q, heat := smSet none n (some e) s.hl.heat } }
      (s.hl.aging = true → Yields (.heatEvent none) s ((({ s with hl := { s.hl with queue := q } } : State).ageOn).heatApply miss p))
      ∧ (∀ w e, s.hl.aging = false → w < 4 → smGet none (set + w) s.hl.heat = some e → e.iapg = p →
          (∀ k < w, ∀ x, smGet none (set + k) s.hl.heat = some x → x.iapg ≠ p) →
          Yields (.heatEvent none) s (after (set + w) (if miss then { e with miss := satInc e.miss } else { e with fill := satInc e.fill })))
      ∧ (∀ w < 4, s.hl.aging = false → (∀ k < w, smGet none (set + k) s.hl.heat ≠ none) → smGet none (set + w) s.hl.heat = none →
          (∀ k < 4, ∀ x, smGet none (set + k) s.hl.heat = some x → x.iapg ≠ p) →
          Yields (.heatEvent none) s (after (set + w) { iapg := p, fill := if miss then 0 else 1, miss := if miss then 1 else 0 })))
    ∧ (s.hl.aging = true → Yields .htage s s)
    ∧ (s.hl.aging = false → Yields .htage s { s with hl := { s.hl with aging := true, aged := 0 } })
    ∧ (s.hl.aging = false → Yields .agingPassEnd s s)
    ∧ (s.hl.aging = true → ∃ t, exec .agingPassEnd s = .next t ∧ t.hl.aging = false ∧ t.hl.heat.length ≤ s.hl.heat.length
        ∧ ∀ n e, n < 16384 → ((n, some e) ∈ t.hl.heat ↔
            if n / 4 < s.hl.aged then (n, some e) ∈ s.hl.heat
            else (∃ o, (n, some o) ∈ s.hl.heat ∧ e = { o with fill := o.fill >>> 1, miss := o.miss >>> 1 }) ∧ (e.fill ≠ 0 ∨ e.miss ≠ 0)))
    ∧ (s.dep.wqueue = [] → Yields .htwdataRead s s.heatSnap)
    ∧ (∀ e, s.dep.wqueue = [] → s.hl.aging = false → smGet none s.hl.htwsel.toNat s.hl.heat = some e →
        Yields .htwdataRead s { s with hl := { s.hl with htwsnap := wd (2 ^ 63 + e.iapg.toNat * 2 ^ 30 + e.fill.toNat * 2 ^ 16 + e.miss.toNat) } })

/-- A member takes a doorbell of its home and acknowledges it with the doorbell's page and MIGID; one from another node it refuses; one whose turn has not
come, or which the deputy cannot take, stays. A hint is held for its page at no less than its heat; at 256 pages a new one is dropped (R267, R271).
Doorbells of the deputy: an arriving one joins the queue of 8 with vector 6, and waits in the fabric while the queue is full; one with a parity error is dropped; DBPOP removes the oldest;
DBSEND sends DBOUT to DBDEST as one secure packet (R267, 14 R315). -/
def Obligations.HaulageDoorbells : Prop :=
  (
  ∀ (s : State) (d : BitVec 128) (q : List (BitVec 128)) (op : Nat),
    let cmd (op : Nat) : Instr := if op = 1 then .revoke else if op = 2 then .remap else if op = 3 then .abort else .s2invDoorbell
    let n := d.toNat
    let t : State := { s with win := { s.win with dbin := q } }
    let ack (u : State) (st : Nat) : State :=
      u.sendDoorbell (doorNode n) (doorWord 8 st (doorMig n).toNat 0 0 (doorPage n).toNat u.straps.nodeId.toNat 0)
    ((s.firmware = false ∨ s.win.dbin = []) →
      (1 ≤ op → op ≤ 4 → Yields (cmd op) s s) ∧ Yields .release s s ∧ Yields .hint s s ∧ Yields .request s s ∧ Yields .ack s s)
    ∧ (s.firmware = true → s.win.dbin = d :: q →
      (1 ≤ op → op ≤ 4 → fieldOf n 60 4 = op →
        (doorNode n = s.home →
          Yields (cmd op) s (ack (if op = 1 then ((t.s2inv (some (doorPage n))).cleanPage (doorLow n)).notePage (doorPage n) true
            else if op = 2 then (t.s2inv (some (doorPage n))).invPage (doorLow n)
            else if op = 3 then ((t.s2inv (some (doorPage n))).notePage (doorPage n) false).retryPage (doorPage n)
            else t.s2inv (if bitOf n 33 then none else some (doorPage n))) 0))
        ∧ (doorNode n ≠ s.home → Yields (cmd op) s (ack t 1)))
      ∧ (1 ≤ op → op ≤ 4 → 1 ≤ fieldOf n 60 4 → fieldOf n 60 4 ≤ 8 → fieldOf n 60 4 ≠ op → Yields (cmd op) s s)
      ∧ (fieldOf n 60 4 = 5 → Yields .release s ((t.notePage (doorPage n) false).retryPage (doorPage n)))
      ∧ (fieldOf n 60 4 = 6 → ∃ u, exec .hint s = .next u ∧ u.win.dbin = q ∧ u.hl.hints.length ≤ max 256 s.hl.hints.length
          ∧ (s.hl.hints.length < 256 → ∃ h ∈ u.hl.hints, h.page = doorPage n ∧ BitVec.ofNat 33 (doorLow n) ≤ h.heat)
          ∧ (256 ≤ s.hl.hints.length → (∀ h ∈ s.hl.hints, h.page ≠ doorPage n) → u.hl.hints = s.hl.hints)))
  ) ∧ (
  ∀ (s : State) (p : Packet),
    (s.fab.bad = false → s.win.dbin.length < 8 → ∃ t, exec (.doorbellReceive p) s = .next t
        ∧ t.win.dbin = s.win.dbin ++ [p.inl.setWidth 128] ∧ t.dep.ipend.getLsbD 6 = true)
    ∧ (s.fab.bad = false → 8 ≤ s.win.dbin.length → Yields (.doorbellReceive p) s s)
    ∧ (s.fab.bad = true → Yields (.doorbellReceive p) s { s with fab := { s.fab with bad := false } })
    ∧ Yields .dbpop s { s with win := { s.win with dbin := s.win.dbin.drop 1 } }
    ∧ (s.win.dbbusy = true → Yields .doorbellSend s s)
    ∧ (s.win.dbbusy = false → Yields .doorbellSend s
        (s.sendPacket 9 { s.packetTo s.win.dbdest with sec := true, inl := s.win.dbout.setWidth 768 }))
  )

/-- Requests: HLREQ counts and ignores a request while one is served; PIN and UNPIN of one page with a valid entry set or clear its PIN and end with OUTCOME 0,
DONE 1 and EV46; PROMOTE and DEMOTE of a page that lies where it is to go end the same way, and of one that does not open its migration, or end
with OUTCOME 2 where there is no free page for it; while no firmware runs a request waits. The home serves a member's request as its own and
ends it with ACK; a member asked answers STATUS 1 (the model's choice, log 63); a member's own request ends with its home's ACK, or with OUTCOME 2 at its limit (R271, R272). -/
def Obligations.HaulageRequests : Prop :=
  ∀ (s : State) (page : BitVec 33) (count : BitVec 8) (op : Nat),
    let cmd (op : Nat) : Instr :=
      if op = 1 then .pin count page else if op = 2 then .unpin count page else if op = 3 then .promote count page else .demote count page
    let r : HlRequest := requestOf op count.toNat page s.hl.lstack none
    (1 ≤ op → op ≤ 4 → s.reqBusy = true → Yields (cmd op) s { s with hl := { s.hl with reqign := satInc s.hl.reqign } })
    ∧ (1 ≤ op → op ≤ 4 → s.reqBusy = false → s.firmware = false →
        Yields (cmd op) s { s with hl := { s.hl with requests := s.hl.requests ++ [r] } })
    ∧ (1 ≤ op → op ≤ 4 → s.firmware = true → s.hl.requests = [] → s.hl.asked = none → s.hl.chosen = [] → s.hl.migrations = [] → s.hen = false →
        Yields (cmd op) s (s.hlResult 3 0))
    ∧ (∀ a e, (op = 1 ∨ op = 2) → s.firmware = true → s.isMember = false → s.hen = true → s.hl.requests = [] → s.hl.asked = none →
        s.hl.chosen = [] → s.hl.migrations = [] → s.pageEntry page = some (a, e) → count = 0 → s.tile.queue = [] →
        ∃ t, exec (cmd op) s = .next t ∧ t.hl.resValid = true ∧ t.hl.resSeq = s.hl.resSeq + 1 ∧ t.hl.resOutcome = 0 ∧ t.hl.resDone = 1
          ∧ t.hl.requests = [] ∧ (s.pwr.latching = false → t.bm.evpend.getLsbD 46 = true) ∧ t.mem = (s.editEntry a (fun e => putFlag e 14 (decide (op = 1)))).performAll.mem)
    ∧ (∀ a e, (op = 3 ∨ op = 4) → s.firmware = true → s.isMember = false → s.hen = true → s.hl.requests = [] → s.hl.asked = none →
        s.hl.chosen = [] → s.hl.migrations = [] → s.pageEntry page = some (a, e) → s.mayMove page = some (a, fieldOf e 16 33) → count = 0 →
      let dest : Option (BitVec 5) := if op = 3 then some s.hl.lstack else none
      let old := BitVec.ofNat 33 (fieldOf e 16 33)
      (s.liesIn old.toNat dest = true → Yields (cmd op) s (s.hlResult 0 1))
      ∧ (s.liesIn old.toNat dest = false → s.freePage dest = none → Yields (cmd op) s (s.hlResult 2 0))
      ∧ (∀ n, s.liesIn old.toNat dest = false → s.freePage dest = some n → s.hl.members = [] → s.ce.busy = false → s.tile.queue = [] →
        ∃ t, exec (cmd op) s = .next t ∧ t.hl.free = s.hl.free.erase n ∧ t.hl.begun = s.hl.begun + 1
          ∧ t.hl.requests = [{ r with todo := [] }] ∧ t.ce.busy = true ∧ t.ce.src.toNat = old.toNat * 2 ^ 14 ∧ t.ce.dst.toNat = n.toNat * 2 ^ 14
          ∧ t.ce.len = 16384
          ∧ ∃ m, t.hl.migrations = [m] ∧ m.page = page ∧ m.old = old ∧ m.new = n ∧ m.entry = a ∧ m.phase = .copy ∧ m.requested = true))
    ∧ (∀ (d : BitVec 128) (q : List (BitVec 128)) (m : BitVec 8), s.firmware = true → s.win.dbin = d :: q →
      let n := d.toNat
      let t : State := { s with win := { s.win with dbin := q } }
      let answer (u : State) (st : Nat) (page : BitVec 33) (low : Nat) : State :=
        u.sendDoorbell (doorNode n) (doorWord 8 st (doorMig n).toNat 0 0 page.toNat s.straps.nodeId.toNat low)
      (fieldOf n 60 4 = 7 → s.isMember = true → Yields .request s (answer t 1 (doorPage n) 0))
      ∧ (fieldOf n 60 4 = 7 → s.isMember = false → (fieldOf n 44 4 = 0 ∨ 4 < fieldOf n 44 4) → Yields .request s (answer t 3 (doorPage n) 0))
      ∧ (fieldOf n 60 4 = 7 → s.isMember = false → 1 ≤ fieldOf n 44 4 → fieldOf n 44 4 ≤ 4 → s.hl.requests = [] → s.hl.chosen = [] →
          s.hl.migrations = [] → s.hen = false → Yields .request s (answer t 4 0 0))
      ∧ (∀ a e, fieldOf n 60 4 = 7 → s.isMember = false → 1 ≤ fieldOf n 44 4 → fieldOf n 44 4 ≤ 4 → s.hl.requests = [] → s.hl.chosen = [] →
          s.hl.migrations = [] → s.hen = true → fieldOf n 64 8 = 0 → s.pageEntry (doorPage n) = some (a, e) →
        (3 ≤ fieldOf n 44 4 → s.mayMove (doorPage n) = some (a, fieldOf e 16 33) →
          s.liesIn (fieldOf e 16 33) (if fieldOf n 44 4 = 3 then some (BitVec.ofNat 5 (fieldOf n 34 5)) else none) = true →
          Yields .request s (answer t 0 0 1))
        ∧ (fieldOf n 44 4 ≤ 2 → s.tile.queue = [] → ∃ u, exec .request s = .next u ∧ u.win.dbin = q ∧ u.hl.requests = []
            ∧ u.mem = (s.editEntry a (fun e => putFlag e 14 (decide (fieldOf n 44 4 = 1)))).performAll.mem
            ∧ u.fab = (answer (t.invalidateAll (doorPage n)) 0 0 1).fab))
      ∧ (fieldOf n 60 4 = 7 → s.isMember = false → 1 ≤ fieldOf n 44 4 → fieldOf n 44 4 ≤ 4 → s.hl.requests = [] → s.hl.chosen = [] →
          s.hl.migrations = [] → s.hen = true → fieldOf n 64 8 = 0 → s.pageEntry (doorPage n) = none → Yields .request s (answer t 3 0 0))
      ∧ (fieldOf n 60 4 = 8 → s.hl.asked = some m → doorMig n = m → doorNode n = s.home → s.isMember = true →
          Yields .ack s (({ t with hl := { t.hl with asked := none } } : State).hlResult (requestOutcome (fieldOf n 56 4)) (fieldOf n 64 9)))
      ∧ (fieldOf n 60 4 = 8 → s.hl.asked = none → s.hl.migrations = [] → Yields .ack s t))
    ∧ (s.firmware = true → ∀ m, s.hl.asked = some m → Yields .memberRequestTimeout s (({ s with hl := { s.hl with asked := none } } : State).hlResult 2 0))
    ∧ ((s.firmware = false ∨ s.hl.asked = none) → Yields .memberRequestTimeout s s)

/-- A migration of the home: with no member, a copy that ends well closes and counts the migration and gives the old page
back; a copy that fails aborts it: the new page is given back, and a notice with its reason is captured; its limit does the same, the entry
pointing at the old page again. An epoch begins with the home's choices or the member's hints, then ages the table. An epoch without firmware, a limit of a migration that is not open, or a completion with no operation does
nothing (R265, R266, R268, R269, R272). -/
def Obligations.Migrations : Prop :=
  ∀ (s : State) (id : BitVec 8) (err : Bool),
    (s.firmware = false → Yields .haulageEpoch s s ∧ Yields (.migrationTimeout id) s s)
    ∧ (s.firmware = true → s.hl.migrations.find? (fun m => m.migid == id) = none → Yields (.migrationTimeout id) s s)
    ∧ (s.ce.busy = false → Yields (.copyEngineCompletion err) s s)
    ∧ (s.firmware = true →
      let start : State := { s with hl := { s.hl with begun := 0, chosen := [] } }
      (s.isMember = true → Yields .haulageEpoch s start.serveRequests.sendHints.agePass)
      ∧ (s.isMember = false → s.hen = true → Yields .haulageEpoch s start.owedNotices.choose.pump.agePass))
    ∧ (s.firmware = true → s.isMember = false → s.hen = false → s.hl.migrations = [] → s.hl.requests = [] → s.hl.aging = false →
        ∃ t, exec .haulageEpoch s = .next t ∧ t.hl.hints = [] ∧ t.hl.chosen = [] ∧ t.hl.begun = 0 ∧ t.hl.aging = true ∧ t.hl.migrations = [])
    ∧ (∀ m : Migration, s.firmware = true → s.hl.migrations = [m] → m.migid = id → m.phase = .copy → s.hl.members = [] → s.hl.requests = [] →
        s.hl.chosen = [] → s.tile.queue = [] →
      (s.ce.busy = true → s.ce.waiting = none → s.ce.src.toNat = m.old.toNat * 2 ^ 14 → s.ce.dst.toNat = m.new.toNat * 2 ^ 14 →
        ((if err then 4#4 else s.ce.next).toNat ≤ 1 →
          ∃ t, exec (.copyEngineCompletion err) s = .next t ∧ t.hl.migrations = [] ∧ t.hl.migs = s.hl.migs + 1 ∧ t.hl.free = s.hl.free ++ [m.old]
            ∧ t.ce.busy = false ∧ t.ce.valid = true ∧ t.ce.seq = s.ce.seq + 1)
        ∧ (2 ≤ (if err then 4#4 else s.ce.next).toNat →
          ∃ t, exec (.copyEngineCompletion err) s = .next t ∧ t.hl.migrations = [] ∧ t.hl.aborts = satInc s.hl.aborts
            ∧ t.hl.free = s.hl.free ++ [m.new] ∧ (s.hl.noteValid = false → t.hl.noteValid = true ∧ t.hl.noteReason = 3 ∧ t.hl.notePage = m.page)))
      ∧ (∃ t, exec (.migrationTimeout id) s = .next t ∧ t.hl.migrations = [] ∧ t.hl.aborts = satInc s.hl.aborts
          ∧ t.mem = (s.editEntry m.entry (pointEntry m.old)).performAll.mem
          ∧ (s.hl.noteValid = false → t.hl.noteValid = true ∧ t.hl.noteReason = 1 ∧ t.hl.notePage = m.page)))

/-- The copy engine: a command while one runs is ignored; a bad length ends with status 6; CLEANPA writes a page's lines back and INVPA drops them, each
completing with status 0; a copy of whole data SRAM bytes leaves the destination holding them. The completion shows the status, advances SEQ and
raises vector 12 where the command asked for it (14 R315, R318; 12 R265). -/
def Obligations.CopyEngineCommands : Prop :=
  ∀ (s : State) (srcl dstl sec irq err : Bool),
    (s.ce.busy = true → Yields (.copyEngineCopy srcl dstl sec irq) s s ∧ Yields (.cleanpa irq) s s ∧ Yields (.invpa irq) s s)
    ∧ (s.ce.busy = false → s.ce.len = 0 → Yields (.copyEngineCopy srcl dstl sec irq) s { s with ce := { s.ce with busy := true, irq := irq, next := 6, waiting := none } })
    ∧ (s.ce.busy = false → s.ce.len ≠ 0 → s.ce.src.toNat + s.ce.len.toNat ≤ 32768 → s.ce.dst.toNat + s.ce.len.toNat ≤ 32768 →
        s.ce.src.toNat + s.ce.len.toNat ≤ s.ce.dst.toNat → s.dep.dataBad = [] → smWf 0#8 0 s.dep.data = true →
        ∃ t, exec (.copyEngineCopy true true sec irq) s = .next t ∧ t.ce.busy = true ∧ t.ce.next = 0 ∧ t.mem = s.mem
          ∧ (∀ k < s.ce.len.toNat, smGet 0#8 (s.ce.dst.toNat + k) t.dep.data = smGet 0#8 (s.ce.src.toNat + k) s.dep.data)
          ∧ (∀ a, (a < s.ce.dst.toNat ∨ s.ce.dst.toNat + s.ce.len.toNat ≤ a) → smGet 0#8 a t.dep.data = smGet 0#8 a s.dep.data))
    ∧ (s.ce.busy = false → Yields (.cleanpa irq) s ((s.cleanPage (s.ce.dst.toNat / 2 ^ 14)).ceBusy 0 irq)
        ∧ Yields (.invpa irq) s ((s.invPage (s.ce.dst.toNat / 2 ^ 14)).ceBusy 0 irq))
    ∧ (s.ce.busy = false → inScratch (s.ce.dst.toNat / 2 ^ 14 * 2 ^ 14) = false → ∃ t, exec (.invpa irq) s = .next t
        ∧ ∀ k < 256, lineFind (256 * (s.ce.dst.toNat / 2 ^ 14) + k) t.mem.cache = none)
    ∧ (s.ce.busy = true → s.ce.waiting = none → s.firmware = false → ∃ t, exec (.copyEngineCompletion err) s = .next t ∧ t.ce.busy = false ∧ t.ce.valid = true
        ∧ t.ce.seq = s.ce.seq + 1 ∧ t.ce.status = (if err then 4 else s.ce.next) ∧ (s.ce.irq = true → t.dep.ipend.getLsbD 12 = true))

/-! ### Sync objects, task take, mailboxes and the tram (13) -/

/-- Task take: while EN, with an empty ready list and a level-0 TSB, a take of a remote object sends PEEK and waits for its reply; one that may not run
changes nothing. A reply to PEEK with an empty queue or a refusal starts the wait, and so does an entry that does not qualify; one that does is taken
by its SEQ; HLTKCNT counts each scoring so. The taken entry's TSB joins the ready list. PEEK and TAKE at the object's unit reply with its head; TAKE removes
it while HEAD equals SEQ, and no more (R289; 12 R273, R274). -/
def Obligations.TaskTake : Prop :=
  ∀ (s : State) (p : Packet),
    let phase (x : TakePhase) : State := { s with sy := { s.sy with phase := x } }
    let r := packetReply p
    let j := s.judge (packetName p) r.desc
    (s.takeRuns = false → Yields .taskTake s s ∧ (s.sy.phase = .waiting → Yields .takeRetryWait s (phase .idle)))
    ∧ (s.takeRuns = true → s.sy.phase = .idle ∨ s.sy.phase = .waiting → nameNode (s.sy.takeObj.setWidth 64) ≠ s.straps.nodeId →
      ∃ t, exec (if s.sy.phase = .idle then .taskTake else .takeRetryWait) s = .next t ∧ t.sy.phase = .peeked s.sy.takeObj
        ∧ t.fab = (s.sendPacket 5 (s.takePacket (nameNode (s.sy.takeObj.setWidth 64)) 2 s.sy.takeObj { TakeReply.refused with status := 0 })).fab)
    ∧ (s.takeRuns = true → s.sy.phase = .idle → nameNode (s.sy.takeObj.setWidth 64) = s.straps.nodeId →
        (s.peekObj (s.sy.takeObj.setWidth 13) true).status ≠ 0 → Yields .taskTake s (phase .waiting))
    ∧ (s.sy.phase ≠ .waiting → Yields .takeRetryWait s s)
    ∧ (s.fab.bad = false → s.sy.phase = .peeked (packetName p) →
      (r.status ≠ 0 → Yields (.peekreply p) s (phase .waiting))
      ∧ (r.status = 0 → j.2 = false → ∃ t, exec (.peekreply p) s = .next t ∧ t.sy.phase = .waiting ∧ t.hl.refusals = s.hl.refusals + 1
          ∧ t.hl.takes = s.hl.takes)
      ∧ (r.status = 0 → j.2 = true → ∃ t, exec (.peekreply p) s = .next t ∧ t.sy.phase = .taking (packetName p) r.seq ∧ t.bm.ready = s.bm.ready
          ∧ t.hl.takes = s.hl.takes + 1 ∧ t.hl.refusals = s.hl.refusals))
    ∧ (s.fab.bad = false → s.sy.phase ≠ .peeked (packetName p) → Yields (.peekreply p) s s)
    ∧ (∀ q, s.fab.bad = false → s.sy.phase = .taking (packetName p) q →
      (r.status = 0 → s.bm.ready.length < 64 → ∃ t, exec (.takereply p) s = .next t ∧ t.sy.phase = .idle ∧ t.hl = s.hl
        ∧ t.bm.ready = s.bm.ready ++ [{ tsb := BitVec.ofNat 37 (r.entry.toNat / 1024), subpri := BitVec.ofNat 4 r.entry.toNat, tilewait := false }])
      ∧ (r.status = 2 → s.takeRuns = false → Yields (.takereply p) s (phase .idle))
      ∧ (r.status ≠ 0 → r.status ≠ 2 → Yields (.takereply p) s (phase .waiting)))
    ∧ (s.fab.bad = false → (∀ q, s.sy.phase ≠ .taking (packetName p) q) → Yields (.takereply p) s s)
    ∧ (s.fab.bad = false → nameNode ((packetName p).setWidth 64) = s.straps.nodeId →
      let n : BitVec 13 := (packetName p).setWidth 13
      let sup := (packetWord p 0).getLsbD 56
      let seq : BitVec 32 := BitVec.ofNat 32 ((packetWord p 2).toNat / 2 ^ 32)
      let o := s.obj n
      let u := if (s.peekObj n sup).status = 0 then s.peekNote n else s
      Yields (.peek p) s (u.sendPacket 5 (s.takePacket (packetSender p) 3 (packetName p) (s.peekObj n sup)))
      ∧ ((s.peekObj n sup).status ≠ 0 →
          Yields (.take p) s (s.sendPacket 5 (s.takePacket (packetSender p) 5 (packetName p) (s.peekObj n sup))))
      ∧ ((s.peekObj n sup).status = 0 → (s.peekObj n sup).seq ≠ seq → ∃ t, exec (.take p) s = .next t ∧ t.sy = s.sy)
      ∧ ((s.peekObj n sup).status = 0 → (s.peekObj n sup).seq = seq → ∃ t, exec (.take p) s = .next t ∧ t.mem = s.mem
          ∧ t.sy = (s.setObj n (o.withHalves (o.hi + 1) (o.lo - 1))).sy))

/-- Mailboxes: SEND marks the outbound slot full, and with the credit it leaves as one packet to the peer; an arriving message fills the inbound slot and
raises its event or vector 7, but never overwrites one; releasing it sends a credit back, and an arriving credit is noted; enabling an empty
channel sends a credit, disabling it clears its own; a packet that its channel does not take is counted (R290, R291). -/
def Obligations.Mailboxes : Prop :=
  ∀ (s : State) (ch : BitVec 4) (p : Packet) (v : Word),
    let c := chanOf ch
    let m := s.mb.ch[c]
    let put (x : Mailbox) : State := { s with mb := { s.mb with ch := s.mb.ch.set c x } }
    (m.outFull = true → Yields (.send ch) s s)
    ∧ (m.outFull = false → Yields (.send ch) s (put { m with outFull := true }))
    ∧ ((m.outFull && m.credit) = false → Yields (.mailboxSendPacket ch) s s)
    ∧ ((m.outFull && m.credit) = true →
        let t := put { m with outFull := false, credit := false }
        Yields (.mailboxSendPacket ch) s (t.sendPacket 6 { t.packetTo m.pnode with
          sec := decide (8 ≤ c.val), addr := m.pchan.setWidth 47, inl := m.outSlot.setWidth 768 }))
    ∧ (m.inFull = false → Yields (.mailboxRelease ch) s s)
    ∧ (m.inFull = true → ∃ t, exec (.mailboxRelease ch) s = .next t ∧ t.mb.ch[c].inFull = false ∧ t.mb.ch[c].inPois = false
        ∧ t.fab = (s.sendPacket 7 { s.packetTo m.pnode with sec := decide (8 ≤ c.val), addr := m.pchan.setWidth 47 }).fab)
    ∧ (s.fab.bad = false → p.addr.setWidth 4 = ch →
      (m.en = true → (8 ≤ c.val → p.sec = true) →
        (m.inFull = false → ∃ t, exec (.mailbox p) s = .next t ∧ t.mb.ch[c].inFull = true ∧ t.mb.ch[c].inSlot = p.inl.setWidth 512
          ∧ (c.val < 8 → s.pwr.latching = false → t.bm.evpend.getLsbD (33 + c.val) = true) ∧ (8 ≤ c.val → t.dep.ipend.getLsbD 7 = true))
        ∧ (m.inFull = true → Yields (.mailbox p) s { s with mb := { s.mb with drops := satInc s.mb.drops } })
        ∧ (∃ t, exec (.credit p) s = .next t ∧ t.mb.ch[c].credit = true ∧ (c.val < 8 → s.pwr.latching = false → t.bm.evpend.getLsbD 41 = true)))
      ∧ ((m.en = false ∨ (8 ≤ c.val ∧ p.sec = false)) → Yields (.mailbox p) s { s with mb := { s.mb with drops := satInc s.mb.drops } }
          ∧ Yields (.credit p) s { s with mb := { s.mb with drops := satInc s.mb.drops } }))
    ∧ (∃ t, exec (.mbcfgWrite ch v) s = .next t ∧ t.mb.ch[c].en = v.getLsbD 63 ∧ t.mb.ch[c].pchan = v.extractLsb' 24 4
        ∧ t.mb.ch[c].pnode = v.setWidth 24 ∧ t.mb.ch[c].credit = (m.credit && v.getLsbD 63) ∧ t.mb.ch[c].outSlot = m.outSlot
        ∧ ((v.getLsbD 63 && !m.en && !m.inFull) = false → t.fab = s.fab)
        ∧ ((v.getLsbD 63 && !m.en && !m.inFull) = true → t.fab = (s.sendPacket 7 { s.packetTo (v.setWidth 24) with
            sec := decide (8 ≤ c.val), addr := (v.extractLsb' 24 4).setWidth 47 }).fab))

/-- A channel's ring: TRHEAD moves its head, unless the journal holds channel 31; a descriptor starts where the channel runs and its ring is not empty, its slot
leaving the ring; one that breaks its layout has status 6 and makes no access; FENCE holds it behind earlier ones. The oldest one ends when its accesses
are made: DONE advances; status 2 or above halts the channel and raises EV43; HALT is resumed by a write of TRSTAT; clearing EN ends what
is open with status 7 at the next boundary of a 4 KB unit (R292 to R299). -/
def Obligations.TramChannels : Prop :=
  ∀ (s : State) (ch : BitVec 5) (head : BitVec 12) (v : Word),
    let c := tramOf ch
    let x := s.tr.ch[c]
    let pa := x.ring.toNat * 4096 + 64 * x.index x.tail
    let d : BitVec 512 := BitVec.ofNat 512 (s.mem.readNat pa 64)
    (¬ (c = 31 ∧ s.journalHolds = true) → Yields (.trhead ch head) s { s with tr := { s.tr with ch := s.tr.ch.set c { x with head := head } } })
    ∧ (c = 31 → s.journalHolds = true → Yields (.trhead ch head) s s)
    ∧ ((x.en = false ∨ x.halt = true ∨ x.index x.tail = x.index x.head) → Yields (.descriptorStart ch) s s)
    ∧ (x.en = true → x.halt = false → x.hasRing = true → x.index x.tail ≠ x.index x.head → (c = 31 → s.jnl.jch = false) →
      s.tramRegion pa 4 = true → (descField d 0 10 1 = 1 → x.opens = []) →
      ∃ t, exec (.descriptorStart ch) s = .next t ∧ t.tr.ch[c].tail.toNat = (x.index x.tail + 1) % 2 ^ x.log2len.toNat
        ∧ t.tr.ch[c].opens = x.opens ++
            [{ desc := d, issued := !descOk d, ending := false, noRecord := false, waits := []
               status := if descOk d then 0 else 6, bytes := 0, result := 0 }]
        ∧ SameMemory s t)
    ∧ (x.en = true → x.halt = false → x.hasRing = true → x.index x.tail ≠ x.index x.head → (c = 31 → s.jnl.jch = false) → x.opens ≠ [] →
        s.tramRegion pa 4 = true → descField d 0 10 1 = 1 → Yields (.descriptorStart ch) s (s.portRead 4 false (s.typeOf 4 pa) pa 64))
    ∧ (x.opens = [] → Yields (.descriptorComplete ch) s s)
    ∧ (∀ o q, x.opens = o :: q →
      ((o.issued = false ∨ o.waits ≠ []) → Yields (.descriptorComplete ch) s s)
      ∧ (o.issued = true → o.waits = [] → (descField o.desc 0x28 4 60 = 0 ∨ o.noRecord = true) → descField o.desc 0x20 63 1 = 0 →
        ∃ t, exec (.descriptorComplete ch) s = .next t ∧ t.tr.ch[c].opens = q ∧ t.tr.ch[c].done = x.done + 1
          ∧ (o.status.toNat < 2 → t.tr.ch[c].halt = x.halt ∧ t.tr.ch[c].last = x.last)
          ∧ (2 ≤ o.status.toNat → t.tr.ch[c].halt = true ∧ t.tr.ch[c].last = o.status ∧ (s.pwr.latching = false → t.bm.evpend.getLsbD 43 = true))))
    ∧ (v.getLsbD 31 = false → Yields (.trstatWrite v) s s)
    ∧ (v.getLsbD 31 = true → ∃ t, exec (.trstatWrite v) s = .next t ∧ t.tr.ch[tramOf s.tr.sel].halt = false
        ∧ t.tr.ch[tramOf s.tr.sel].opens = s.tr.ch[tramOf s.tr.sel].opens)
    ∧ (∃ t, exec (.trcfgWrite v) s = .next t ∧ t.tr.ch[tramOf s.tr.sel].en = v.getLsbD 63 ∧ t.tr.ch[tramOf s.tr.sel].pa = v.getLsbD 62
        ∧ (s.tr.ch[tramOf s.tr.sel].en = true → v.getLsbD 63 = false → t.tr.ch[tramOf s.tr.sel].opens = s.tr.ch[tramOf s.tr.sel].opens.map
            (fun o => if o.issued = true then o
              else if o.bytes.toNat % 4096 = 0 then { o with issued := true, status := if 2 ≤ o.status.toNat then o.status else 7 }
              else { o with ending := true }))
        ∧ ((s.tr.ch[tramOf s.tr.sel].en = false ∨ v.getLsbD 63 = true) → t.tr.ch[tramOf s.tr.sel].opens = s.tr.ch[tramOf s.tr.sel].opens))

/-- The operations of descriptors with TRCFG.PA set, over backed normal memory with clean lines: COPY of one granule leaves DST equal to SRC; COPY_REDUCE of
one granule leaves the reduce there; GATHER of one block copies what its list names; a list address out of alignment ends with status 6; DIGEST of one block
gives its CRC; JOURNAL_APPEND writes 64 bytes to the log tier, elsewhere status 8; the remote operations send their packets and wait for each
reply. An operation that is not the channel's next, or whose channel has no turn, does nothing (R295, R296, R299; 10 R244). -/
def Obligations.TramOperations : Prop :=
  ∀ (s : State) (ch : BitVec 5) (op : Nat) (o : TramOpen),
    let c := tramOf ch
    let x := s.tr.ch[c]
    let d := o.desc
    let cmd (op : Nat) : Instr :=
      if op = 1 then .copy ch else if op = 2 then .copyReduce ch else if op = 3 then .gather ch else if op = 4 then .remoteRead ch
      else if op = 5 then .remoteWrite ch else if op = 6 then .remoteReduce ch else if op = 7 then .journalAppend ch else .digest ch
    let ends (t : State) (st bytes : Nat) (result : Word) : Prop := t.tr.served = c
      ∧ t.tr.ch[c].opens = [{ o with issued := true, status := BitVec.ofNat 4 st, bytes := BitVec.ofNat 40 bytes, result := result, waits := [] }]
    let clean (a : Nat) : Prop := s.tramRegion a 4 = true ∧ s.unbacked a = false ∧ s.waitsForFill a = false ∧ s.mem.poisoned (a / 64) = false
    (1 ≤ op → op ≤ 8 → (x.current = none ∨ s.tramTurn ≠ some c) → Yields (cmd op) s s)
    ∧ (1 ≤ op → op ≤ 8 → x.current = some o → descOp d ≠ op → Yields (cmd op) s s)
    ∧ (x.en = true → s.tramTurn = some c → x.pa = true → x.opens = [o] → o.issued = false → o.ending = false → o.waits = [] → o.status = 0 →
        o.bytes = 0 → descOp d = op → Memory.wf s.mem = true →
        descOk d = true → descSrc d < 2 ^ 46 → descDst d < 2 ^ 46 →
      (op = 1 → clean (descSrc d) → clean (descDst d) → descLen d = 64 → descSrc d % 64 = 0 → descDst d % 64 = 0 →
        ∃ t, exec (.copy ch) s = .next t ∧ ends t 0 64 0 ∧ t.mem.readNat (descDst d) 64 = s.mem.readNat (descSrc d) 64
          ∧ Memory.wf t.mem = true)
      ∧ (op = 2 → clean (descSrc d) → clean (descDst d) → descLen d = 64 →
        ∃ t, exec (.copyReduce ch) s = .next t ∧ ends t 0 64 0
          ∧ t.mem.readNat (descDst d) 64 = reduceBytes (descRed d) (descDst d) (s.mem.readNat (descDst d) 64) (s.mem.readNat (descSrc d) 64)
              (64 / redSize (descRed d).fmt) % 2 ^ 512)
      ∧ (op = 3 → clean (descSrc d) → descLen d = 64 → descGlog d = 6 → descSrc d % 64 = 0 → s.mem.readNat (descSrc d) 8 % 64 ≠ 0 →
        ∃ t, exec (.gather ch) s = .next t ∧ ends t 6 0 0 ∧ SameMemory s t)
      ∧ (op = 3 → clean (descSrc d) → clean (descDst d) → descLen d = 64 → descGlog d = 6 → descSrc d % 64 = 0 →
        let a := s.mem.readNat (descSrc d) 8
        a % 64 = 0 → a < 2 ^ 46 → clean a →
        ∃ t, exec (.gather ch) s = .next t ∧ ends t 0 64 0 ∧ t.mem.readNat (descDst d) 64 = s.mem.readNat a 64)
      ∧ (op = 4 → clean (descDst d) → descSrc d % 64 = 0 → descLen d = 64 → descDst d % 64 = 0 → ∃ t, exec (.remoteRead ch) s = .next t ∧ t.mem = s.mem
          ∧ (∃ y, t.tr.ch[c].opens = [y] ∧ y.issued = true ∧ y.waits = [(s.tr.nextTag, 0, 64)])
          ∧ t.fab = (s.sendPacket 1 { s.packetTo (descNode d) with
              tag := s.tr.nextTag, addr := BitVec.ofNat 47 (descSrc d), len := 64 }).fab)
      ∧ (op = 5 ∨ op = 6 → clean (descSrc d) → descLen d = 64 → descSrc d % 64 = 0 → descDst d % 64 = 0 → ∃ t, exec (cmd op) s = .next t ∧ SameMemory s t
          ∧ (∃ y, t.tr.ch[c].opens = [y] ∧ y.issued = true ∧ y.waits = [(s.tr.nextTag, 0, 64)])
          ∧ (∃ p : Packet, t.fab = (s.sendPacket (if op = 5 then 3 else 8) p).fab ∧ p.tag = s.tr.nextTag ∧ p.addr = BitVec.ofNat 47 (descDst d)
              ∧ p.data = [BitVec.ofNat 512 (s.mem.readNat (descSrc d) 64)] ∧ p.len = 64 ∧ p.head = 0 ∧ p.tail = 0 ∧ p.pois = 0))
      ∧ (op = 7 → clean (descSrc d) → s.tramRegion (descDst d) 4 = true → s.waitsForFill (descDst d) = false → s.inLog (descDst d) = false →
          ∃ t, exec (.journalAppend ch) s = .next t ∧ ends t 8 0 0 ∧ SameMemory s t)
      ∧ (op = 7 → clean (descSrc d) → s.tramRegion (descDst d) 4 = true → s.inLog (descDst d) = true → ∃ t, exec (.journalAppend ch) s = .next t ∧ ends t 0 64 0
          ∧ ∀ k < 64, t.mem.backByte (descDst d + k) = BitVec.ofNat 8 (s.mem.readNat (descSrc d) 64 / 256 ^ k))
      ∧ (op = 8 → o.result = 0 → descLen d = 4096 → (∀ k < 64, clean (descSrc d + 64 * k)) → ∃ t, exec (.digest ch) s = .next t ∧ SameMemory s t
          ∧ ends t 0 4096 (wd (crc64 (s.mem.readNat (descSrc d) 4096 + descSrc d * 2 ^ (8 * 4096)) 4104))))

/-- Remote accesses at their destination and their replies at the requester: a READ, WRITE or REDUCE outside TRRWIN, and a READ or WRITE in a refused
region, is answered with its status and changes no memory; a READ inside answers with its granules, a WRITE of a whole granule leaves it there, a REDUCE leaves the reduce; a
malformed frame stops by name. A reply or an acknowledgement that nothing waits for changes nothing; one that tells a failure gives
its descriptor the status and ends the wait; a NACK is counted. A packet with a parity
error is dropped, but a data packet is written poisoned. Credits that return let waiting packets go; a packet of a reserved type is counted (R294, R296, R298; 17 R383 to R386). -/
def Obligations.RemotePackets : Prop :=
  ∀ (s : State) (p : Packet) (vc : BitVec 2) (flits : BitVec 8) (ty : BitVec 4),
    let refuse (type : BitVec 4) (st : Nat) : State := s.sendPacket type { s.packetTo p.src with tag := p.tag, status := BitVec.ofNat 4 st }
    let n := p.data.length
    (readFrame p = false → exec (.readPacket p) s = .refused .illFormed)
    ∧ (dataFrame p = false → exec (.writePacket p) s = .refused .illFormed)
    ∧ (reduceFrame p = false → exec (.reducePacket p) s = .refused .illFormed)
    ∧ (readFrame p = true → s.fab.bad = false →
      (s.inWindow p.addr.toNat (p.len.toNat / 64) = false → Yields (.readPacket p) s (refuse 2 1))
      ∧ (s.inWindow p.addr.toNat (p.len.toNat / 64) = true → s.tramRegion p.addr.toNat 4 = false → Yields (.readPacket p) s (refuse 2 2))
      ∧ (p.len = 64 → s.inWindow p.addr.toNat 1 = true → s.tramRegion p.addr.toNat 4 = true → s.unbacked p.addr.toNat = false →
          s.waitsForFill p.addr.toNat = false →
          Yields (.readPacket p) s ((s.portRead 4 false (s.typeOf 4 p.addr.toNat) p.addr.toNat 64).sendPacket 2 { s.packetTo p.src with
            tag := p.tag, len := 64, data := [BitVec.ofNat 512 (s.mem.readNat p.addr.toNat 64)],
            pois := if s.mem.poisoned (p.addr.toNat / 64) then 1 else 0 })))
    ∧ (dataFrame p = true → s.fab.bad = true →
        Yields (.writePacket p) s (({ s with fab := { s.fab with bad := false } } : State).servePut { p with pois := BitVec.allOnes 64 } none))
    ∧ (dataFrame p = true → s.fab.bad = false →
      (s.inWindow p.addr.toNat n = false → Yields (.writePacket p) s (refuse 4 1))
      ∧ (s.inWindow p.addr.toNat n = true → s.tramRegion p.addr.toNat 4 = false → Yields (.writePacket p) s (refuse 4 2))
      ∧ (∀ g, p.data = [g] → p.head = 0 → p.tail = 0 → p.pois = 0 → s.inWindow p.addr.toNat 1 = true → s.tramRegion p.addr.toNat 4 = true →
          s.unbacked p.addr.toNat = false → s.waitsForFill p.addr.toNat = false → Memory.wf s.mem = true → ∃ t, exec (.writePacket p) s = .next t ∧ t.mem.readNat p.addr.toNat 64 = g.toNat
            ∧ t.mem.poisoned (p.addr.toNat / 64) = false ∧ Memory.wf t.mem = true ∧ t.fab = (refuse 4 0).fab))
    ∧ (reduceFrame p = true → s.fab.bad = false →
      (s.inWindow p.addr.toNat n = false → Yields (.reducePacket p) s (refuse 4 1))
      ∧ (∀ g, p.data = [g] → p.head = 0 → p.tail = 0 → p.pois = 0 → s.inWindow p.addr.toNat 1 = true → s.tramRegion p.addr.toNat 4 = true →
          s.unbacked p.addr.toNat = false → s.waitsForFill p.addr.toNat = false → s.mem.poisoned (p.addr.toNat / 64) = false →
          Memory.wf s.mem = true → ∃ t, exec (.reducePacket p) s = .next t
            ∧ t.mem.readNat p.addr.toNat 64 = reduceBytes (packetRed p) p.addr.toNat (s.mem.readNat p.addr.toNat 64) g.toNat
                (64 / redSize (packetRed p).fmt) % 2 ^ 512 ∧ t.fab = (refuse 4 0).fab))
    ∧ ((∀ c ∈ [Instr.peek p, .take p, .peekreply p, .takereply p, .remotePost p, .mailbox p, .credit p, .ackPacket p, .nack p], s.fab.bad = true →
        Yields c s { s with fab := { s.fab with bad := false } }))
    ∧ (s.fab.bad = false → s.waiterOf p.tag = none → Yields (.readreply p) s s ∧ Yields (.ackPacket p) s s)
    ∧ (∀ (c : Fin 32) (o : TramOpen) (off k : Nat), s.fab.bad = false → s.waiterOf p.tag = some (c, o, off, k) → s.tr.ch[c].opens = [o] → o.waits = [(p.tag, off, k)] →
        o.status = 0 →
      let after (st : Nat) (b : BitVec 40) (t : State) : Prop :=
        t.tr.ch[c].opens = [{ o with waits := [], status := BitVec.ofNat 4 st, bytes := b }] ∧ t.mem = s.mem
      (p.status = 0 → ∃ t, exec (.ackPacket p) s = .next t ∧ after 0 o.bytes t)
      ∧ (p.status ≠ 0 → (∃ t, exec (.ackPacket p) s = .next t ∧ after (replyStatus p.status.toNat) (BitVec.ofNat 40 off) t)
          ∧ (∃ t, exec (.readreply p) s = .next t ∧ after (replyStatus p.status.toNat) (BitVec.ofNat 40 off) t))
      ∧ (p.status = 0 → s.tr.ch[c].pa = true → k = 64 → off = 0 → descSrc o.desc % 64 = 0 → descDst o.desc % 64 = 0 → descDst o.desc < 2 ^ 46 →
          s.tramRegion (descDst o.desc) 4 = true → s.unbacked (descDst o.desc) = false → s.waitsForFill (descDst o.desc) = false → Memory.wf s.mem = true → p.pois = 0 → ∀ g, p.data = [g] →
          ∃ t, exec (.readreply p) s = .next t ∧ t.mem.readNat (descDst o.desc) 64 = g.toNat
            ∧ t.tr.ch[c].opens = [{ o with waits := [] }]))
    ∧ (s.fab.bad = false → ∃ t, exec (.nack p) s = .next t ∧ t.fab.nacks = s.fab.nacks + 1 ∧ t.mem = s.mem ∧ t.sy = s.sy
        ∧ ((packetWord p 0).toNat % 16 = 9 → t.win.dbunrt = true ∧ t.tr = s.tr))
    ∧ (s.fab.waiting = [] → Yields (.fabricCreditReturn vc flits) s
        { s with fab := { s.fab with credits := s.fab.credits.set vc.toFin (s.fab.credits[vc.toFin] + flits.toNat) } })
    ∧ (∀ x q, s.fab.waiting = x :: q → vcOf x.1 = vc.toFin → packetFlits x.2 ≤ s.fab.credits[vc.toFin] + flits.toNat →
        ∃ t, exec (.fabricCreditReturn vc flits) s = .next t ∧ (s.fab.sent ++ [x]) <+: t.fab.sent)
    ∧ (reservedType ty = true → s.fab.bad = false → Yields (.reservedPacketType ty) s { s with fab := { s.fab with reserved := s.fab.reserved + 1 } })
    ∧ (reservedType ty = false → exec (.reservedPacketType ty) s = .refused .illFormed)

/-! ### Registers from outside, boot, dictionary, power, memory port, debug (00, 14 to 17) -/

/-- Boot: without a formed image ROM waits for a recovery image with status 6, the CAN controller enabled at rate code 0 where there is a field-network node;
with one it waits for the fuses; one block of program SRAM that fails ROM's test is spared, and two end the boot with status 5; a deputy that has ended its boot without firmware stays. Firmware, on the first boot, gives the free pages and members
it lists. PD_AON reset keeps what lies outside the block: memory outside scratch, straps,
build and the commands that wait (14 R318 to R321; 17 R391 to R393).
CORE reset: CORERST.ASSERT, while PD_CORE is on, gives the core its reset values and holds it; RELEASE starts it at cause 0's vector, in Supervisor
with EXCM set at level 0, EINFO telling which release it is, and with the events of the wake latch pending; a release with PD_CORE off, out of
reset, or of a retired core changes nothing (17 R391, Table 17.12; 05 Table 5.9). -/
def Obligations.BootAndResets : Prop :=
  (
  ∀ (s : State) (bad : BitVec 16) (pages : List (BitVec 33)) (members : List (BitVec 24)),
    let spared (u : State) : State := if bad = 0 then u else { u with dep := { u.dep with spen := true, spblk := BitVec.ofNat 4 (((List.range 16).find? (fun b => bad.getLsbD b)).getD 0) } }
    let clear : State := spared { s with dep := { s.dep with prog := [], progBad := [] } }
    let one : Prop := bad = 0 ∨ ∃ b : Fin 16, ∀ k : Fin 16, bad.getLsbD k.val = decide (k = b)
    (s.dep.bootStatus = 0 → one → imageFormed s.bootImage = false →
      ∃ t, exec (.powerOnBoot pages members bad) s = .next t ∧ t.dep.bootStatus = 6 ∧ t.can.en = decide (s.straps.mgmtNode ≠ 0) ∧ t.can.drate = 0
        ∧ t.dep.spen = clear.dep.spen ∧ t.dep.spblk = clear.dep.spblk ∧ t.core = (hardwire s s).core ∧ SameMemory s t)
    ∧ (s.dep.bootStatus = 0 → one → imageFormed s.bootImage = true → s.straps.fuseRdy = false →
        Yields (.powerOnBoot pages members bad) s (clear.ceOffer (s.straps.bootBase.toNat * 2 ^ 14) 0x100))
    ∧ (∀ i j : Fin 16, s.dep.bootStatus = 0 → i ≠ j → bad.getLsbD i.val = true → bad.getLsbD j.val = true →
        ∃ t, exec (.powerOnBoot pages members bad) s = .next t ∧ t.dep.bootStatus = 5 ∧ t.dep.halted = true)
    ∧ (s.dep.bootStatus ≠ 0 → s.firmware = false → Yields (.powerOnBoot pages members bad) s s)
    ∧ (s.firmware = true → s.pwr.firstRelease = true → s.pwr.core = .off →
        Yields (.powerOnBoot pages members bad) s (s.bootFirmware pages members)
        ∧ (s.bootFirmware pages members).hl.free = pages ∧ (s.bootFirmware pages members).hl.members = members)
    ∧ Yields .fuseRdy s { s with straps := { s.straps with fuseRdy := true } }
    ∧ (∃ t, exec .aonReset s = .next t ∧ t.straps = s.straps ∧ t.build = s.build ∧ t.pending = s.pending ∧ t.dep.bootStatus = 0
        ∧ t.dep.rom = s.dep.rom ∧ t.pwr.core = .off ∧ t.core.mode = .held ∧ t.mem.cache = [] ∧ t.dict = State.reset.dict ∧ t.sy = State.reset.sy
        ∧ (∀ a, inScratch a = false → t.mem.backByte a = s.mem.backByte a) ∧ (∀ a, inScratch a = true → t.mem.backByte a = 0))
  ) ∧ (
  ∀ s : State,
    (s.pwr.core ≠ .on → Yields .corerstAssert s s)
    ∧ (s.pwr.core = .on → ∃ t, exec .corerstAssert s = .next t ∧ t.pwr.coreReset = true ∧ t.core.mode = .held ∧ t.core.banks = State.reset.core.banks
        ∧ t.bm.ready = [] ∧ t.xl.tlb = [] ∧ t.wz = State.reset.wz)
    ∧ (s.pwr.tail = false → (s.pwr.core ≠ .on ∨ s.pwr.coreReset = false ∨ s.pwr.coreRetired = true) → Yields .corerstRelease s s)
    ∧ (s.pwr.tail = false → s.pwr.core = .on → s.pwr.coreReset = true → s.pwr.coreRetired = false → s.core.heldFrozen = true →
        ∃ t, exec .corerstRelease s = .next t ∧ t.core.mode = .frozen ∧ t.core.heldFrozen = false ∧ t.pwr.coreReset = false)
    ∧ (s.pwr.tail = false → s.pwr.core = .on → s.pwr.coreReset = true → s.pwr.coreRetired = false → s.core.heldFrozen = false →
        ∃ t, exec .corerstRelease s = .next t
        ∧ t.core.mode = .run ∧ t.pwr.coreReset = false ∧ (t.bankOf 0).pc = 0xFFFFFFFFFFFFF800 ∧ (t.bankOf 0).excm = true ∧ (t.bankOf 0).ecause = 0
        ∧ (t.bankOf 0).einfo = (if s.pwr.firstRelease then 0 else if s.pwr.poweredUp then 2 else 1)
        ∧ t.pwr.wakeLatch = 0 ∧ (∀ k, 33 ≤ k → k < 56 → s.pwr.wakeLatch.getLsbD k = true → t.bm.evpend.getLsbD k = true))
  )

/-- What firmware persists and samples: without firmware nothing; the store's write leaves the core and the entries as they are; a period of the tally
counts, and writes the image of the tally over the older copy in the tally area, where there is one; a sample of the temperature is shown, and its maximum kept (15 R331; 16 R365; 17 R374).
Responses on the memory port: good read data are what memory holds, poisoned or clean; a read that fails once is issued again and changes no memory;
one that fails again delivers its granule poisoned; an error of a write is counted, and memory holds what was left or a poisoned granule; a
request that is not answered counts as one answered with ERR. A request's attributes are its SRC, its ordering tag, which a device access has,
DEV, SEC, and the stack and tier of the region its address lies in (17 R379 to R382, Tables 17.3 and 17.4). -/
def Obligations.PersistenceAndMemoryPort : Prop :=
  (
  ∀ (s : State) (temp : BitVec 12) (vmon : BitVec 10),
    (s.firmware = false → Yields .dictionaryStoreWrite s s ∧ Yields .tallyPersist s s)
    ∧ (s.firmware = true → Yields .dictionaryStoreWrite s (s.writeStore none)
        ∧ (∃ t, exec .dictionaryStoreWrite s = .next t ∧ t.core = (hardwire s s).core ∧ t.dict = s.dict ∧ t.dep = s.dep))
    ∧ (s.firmware = true → s.hasTallyArea = false → (s.res.persists + 1) % 1024 ≠ 0 → Yields .tallyPersist s
        (let t := s.passTime; { t with res := { t.res with persists := s.res.persists + 1 } }))
    ∧ (s.firmware = true → s.hasTallyArea = true → (s.res.persists + 1) % 1024 ≠ 0 →
      let u := s.passTime
      let v := victimCopy (u.tallyCopy 0) (u.tallyCopy 1)
      let image := u.tallyImage (genOf (u.tallyCopy (1 - v)) + 1)
      let base := s.dumpBase + 0x8000 * v
      ∃ t, exec .tallyPersist s = .next t ∧ t.res.persists = s.res.persists + 1 ∧ t.core = (hardwire s u).core
        ∧ (s.ceReaches base image.length = false → t.mem = s.mem)
        ∧ (s.ceReaches base image.length = true → base % 64 = 0 → base + image.length ≤ scratchBase → Memory.wf s.mem = true →
            ∀ k < image.length, t.mem.backByte (base + k) = (image[k]?).getD 0))
    ∧ (∃ t, exec (.telemetrySample temp vmon) s = .next t ∧ t.pwr.temp = temp ∧ t.pwr.vmon = vmon
        ∧ t.res.tally[0x58].toNat = max s.res.tally[0x58].toNat temp.toNat ∧ t.core = (hardwire s s).core)
  ) ∧ (
  ∀ (s : State) (ch : BitVec 4) (id : BitVec 8) (g : BitVec 41) (data : BitVec 512) (poison parity : Bool) (src : BitVec 3) (tch : BitVec 5)
    (left : Option (BitVec 512)),
    (Memory.wf s.mem = true → ∃ t, exec (.readResponse ch id g data poison false false) s = .next t
        ∧ t.mem.backNat (64 * g.toNat) 64 = data.toNat ∧ nsMem g.toNat t.mem.poison = poison ∧ t.mem.cache = s.mem.cache
        ∧ t.fab.reissued = s.fab.reissued.erase g)
    ∧ (g ∉ s.fab.reissued → ∃ t, exec (.readResponse ch id g data poison true parity) s = .next t ∧ t.mem = s.mem
        ∧ t.fab.reissued = s.fab.reissued ++ [g] ∧ t.fab.rdErrs = s.fab.rdErrs + 1)
    ∧ (g ∈ s.fab.reissued → s.mem.dirty g.toNat = none → ∃ t, exec (.readResponse ch id g data poison true parity) s = .next t
        ∧ t.mem.poisoned g.toNat = true ∧ t.fab.reissued = s.fab.reissued.erase g ∧ t.mem.cells = s.mem.cells)
    ∧ Yields (.writeResponse src tch g false left) s s
    ∧ (∃ t, exec (.writeResponse src tch g true none) s = .next t ∧ t.fab.wrErrs = s.fab.wrErrs + 1 ∧ t.mem = s.mem.setBackPoison g.toNat true)
    ∧ (∀ d, ∃ t, exec (.writeResponse src tch g true (some d)) s = .next t ∧ t.fab.wrErrs = s.fab.wrErrs + 1
        ∧ t.mem = s.mem.hold g.toNat d (nsMem g.toNat s.mem.poison))
    ∧ (∃ t, exec (.responseTimeout true src tch g) s = .next t ∧ t.fab.timeouts = s.fab.timeouts + 1 ∧ t.fab.wrErrs = s.fab.wrErrs + 1 ∧ t.mem = s.mem)
    ∧ (g ∉ s.fab.reissued → ∃ t, exec (.responseTimeout false src tch g) s = .next t ∧ t.fab.timeouts = s.fab.timeouts + 1
        ∧ t.fab.reissued = s.fab.reissued ++ [g] ∧ t.mem = s.mem)
    ∧ (∀ q : PortReq, let a := s.portAttr q
        a.extractLsb' 13 3 = q.src ∧ a.extractLsb' 9 4 = (if q.dev then 1 else 0) ∧ a.getLsbD 8 = q.dev ∧ a.getLsbD 7 = q.sec
        ∧ (∀ x, s.region q.pa = some x → a.extractLsb' 0 2 = x.tier ∧ (a.extractLsb' 2 5).toNat = if x.tier = 0 then x.stack q.pa else 0)
        ∧ (s.region q.pa = none → a.setWidth 7 = 2))
    ∧ (∀ (sec : Bool) (ty : MemType) (pa n : Nat), inScratch pa = false → (ty = .uncached ∨ ty = .device) →
        (s.portRead src sec ty pa n).mem.mrq = some
          { pa := pa, src := src, dev := decide (ty = .device), sec := sec, size := if ty = .device then n else 0, aop := 0 })
    ∧ (∀ pa n v, (s.mem.portWrite src pa n v).mw = some { pa := pa, src := src, dev := false, sec := false, size := 0, aop := 0 })
    ∧ (∀ pa n v, (s.mem.deviceWrite pa n v).mw = some { pa := pa, src := 0, dev := true, sec := false, size := n, aop := 0 })
  )

/-- Dictionary requests: an arriving fabric message joins the queue while fewer than 8 of its path wait; an engine that is busy, or has no request of the
service, serves none; a request that firmware must answer stays open with vector 8. A READ on the CSR path of a value of at most 8 bytes shows it
in DICT_RES and DICT_DATA; a WRITE that rights and range admit stores the value; a BLOCK READ is answered with the value's bytes
from OFFSET on, up to COUNT, in frames of at most 56; an index that does not exist is answered with status 1 on
every path and service. A field-network frame for this node is queued, counted as dropped where 8 wait, and counted as ignored where it is no FD
frame. A frame sent leaves at the smallest data length that holds it, unless the controller goes bus off. The open request ends with firmware's answer or at its limit (R328, R332, R333, R338, R340, R343, R344, R349). -/
def Obligations.DictionaryRequests : Prop :=
  ∀ (s : State) (p : Packet) (r : DictReq) (fw more fd : Bool) (ident : BitVec 29) (dlc : BitVec 4) (frame : BitVec 512),
    let cmd (service : BitVec 4) (a : Option Packet) (f : Bool) : Instr :=
      if service = 1 then .dictionaryRead a f else if service = 2 then .dictionaryWrite a f else .blockRead a f
    let served : State := { s with dict := { s.dict with queue := [] } }
    (∀ k : BitVec 4, 1 ≤ k → k ≤ 3 →
      (s.dict.current.isSome = true → Yields (cmd k none fw) s s)
      ∧ (s.dict.queue = [] → Yields (cmd k none fw) s s)
      ∧ (s.dict.current.isSome = true → s.fab.bad = false → s.dictWaiting 1 < 8 → bitOf (p.inl.toNat % 2 ^ 128) 4 = false →
          ∃ t, exec (cmd k (some p) fw) s = .next t ∧ ∃ x, t.dict.queue = s.dict.queue ++ [x] ∧ x.path = 1 ∧ x.secure = p.sec
            ∧ x.source = BitVec.ofNat 24 (p.inl.toNat % 2 ^ 128 / 2 ^ 12))
      ∧ (s.dict.current = none → s.dict.queue = [r] → r.service = k → r.malformed = false → s.dict.bad = false → engineServed r.index = false →
        s.dep.bootStatus = 1 →
        Yields (cmd k none false) s (({ served with dict := { served.dict with current := some r } } : State).raiseVector 8)
        ∧ (s.lookEntry r.index r.sub = .noIndex →
            Yields (cmd k none true) s (served.sendAnswer r (protoFrame r.index r.sub 0 1 r.off false [])))
        ∧ (∀ type right, k = 1 → r.path = 2 → s.lookEntry r.index r.sub = .entry type right → right ≠ .wo → r.off = 0 →
            let b := s.entryBytes r.index r.sub type
            1 ≤ b.length → b.length ≤ 8 → type < 16 →
            ∃ t, exec (cmd 1 none true) s = .next t ∧ t.dict.csrBusy = false ∧ t.dict.resValid = true ∧ t.dict.resSeq = s.dict.resSeq + 1
              ∧ t.dict.resStatus = 0 ∧ t.dict.resType.toNat = type ∧ t.dict.resLen.toNat = b.length ∧ t.dict.resLast = true
              ∧ t.dict.resData.toNat = natOf b)
        ∧ (∀ type, k = 2 → s.lookEntry r.index r.sub = .entry type .rw → r.type = type → r.off = 0 → r.last = true → typeSize type = some r.len →
            (r.index, r.sub) ≠ (0x2000, 6) → (r.index, r.sub) ≠ (0x6000, 0xB) → s.valueOk r.index r.sub type r.data = true →
            ∃ t, exec (cmd 2 none true) s = .next t ∧ t.storedBytes r.index r.sub type = r.data ∧ t.dict.queue = [])
        ∧ (∀ type right, k = 3 → s.lookEntry r.index r.sub = .entry type right → right ≠ .wo →
            let value := s.entryBytes r.index r.sub type
            let d := (value.drop r.off).take r.count
            r.off < value.length → (r.off = 0 ∨ pieceType type = true) →
            Yields (cmd 3 none true) s ((framePieces d.length r.off (d.length / 56 + 1) d).foldl
              (fun u x => u.sendAnswer r (protoFrame r.index r.sub type 0 x.1 x.2.1 x.2.2)) served))))
    ∧ (s.dict.current = none → Yields (.dictionaryAnswer more) s s ∧ Yields .dictionaryTimeout s s)
    ∧ (s.dict.current = some r → Yields .dictionaryTimeout s
          (({ s with dict := { s.dict with current := none } } : State).sendAnswer r (protoFrame r.index r.sub (s.entryType r.index r.sub) 8 r.off false []))
        ∧ (r.service ≠ 2 → Yields (.dictionaryAnswer false) s (({ s with dict := { s.dict with current := none } } : State).sendAnswer r s.dict.rsp))
        ∧ (r.service ≠ 2 → r.path ≠ 2 → Yields (.dictionaryAnswer true) s (s.sendAnswer r s.dict.rsp)))
    ∧ (s.dict.ntfBusy = true → Yields .notify s s)
    ∧ (s.dict.ntfBusy = false → s.canSends = true → ∃ t, exec .notify s = .next t ∧ t.dict.ntfTid = s.dict.ntfTid + 1
        ∧ (t.can.sent = s.can.sent ++ [{ ident := canIdent (s.param 0x2000 3) (s.param 0x2000 2) s.straps.mgmtNode.toNat 4 false t.dict.ntfTid.toNat
                                         len := fdSmallest (8 + fieldOf s.dict.ntf.toNat 56 6), frame := s.dict.ntf }]
          ∨ t.can.sent = s.can.sent ∧ t.can.state = 2))
    ∧ (s.canSends = false → Yields (.fieldNetworkFrame ident fd frame dlc) s s)
    ∧ (s.canSends = true →
      let own : Prop := fieldOf ident.toNat 19 7 = s.straps.mgmtNode.toNat
      let fair : Prop := fieldOf ident.toNat 12 7 ≠ 0 ∧ fieldOf ident.toNat 12 7 ≠ s.straps.mgmtNode.toNat ∧ bitOf ident.toNat 7 = false
        ∧ 1 ≤ fieldOf ident.toNat 8 4 ∧ fieldOf ident.toNat 8 4 ≤ 3
      let h := s.hearCan
      Yields (.fieldNetworkFrame ident false frame dlc) s { h with can := { h.can with ign := h.can.ign + 1 } }
      ∧ (fieldOf ident.toNat 19 7 ≠ 0 → ¬ own → Yields (.fieldNetworkFrame ident true frame dlc) s h)
      ∧ (own → fair → 8 ≤ s.dictWaiting 0 → Yields (.fieldNetworkFrame ident true frame dlc) s { h with can := { h.can with drop := h.can.drop + 1 } })
      ∧ (own → fair → s.dictWaiting 0 < 8 → ∃ t, exec (.fieldNetworkFrame ident true frame dlc) s = .next t ∧ t.can.rx = s.can.rx + 1
          ∧ ∃ x, t.dict.queue = s.dict.queue ++ [x] ∧ x.path = 0 ∧ x.bytes = fdLength dlc
            ∧ x.frame = BitVec.ofNat 512 (frame.toNat % 2 ^ (8 * fdLength dlc))))
    ∧ (s.can.state = 2 → Yields .busOffRecovery s (({ s with can := { s.can with state := 0, txErr := 0, rxErr := 0 } } : State).raiseVector 9))
    ∧ (s.can.state ≠ 2 → Yields .busOffRecovery s s)

/-- The power sequencer: a domain that is off rises once its target asks for it and the domains it needs are on; the store goes off or
into retention, once the tile is off; the tile goes off once it has no owner, no queued entry and no fill; the core freezes and falls
once the others are off and it sleeps with no event to take. An acknowledgement completes the handshake: CORESTAT.PWRCHG and vector 13; one that
does not come sets PWRSTAT.ERR (17 R388 to R390, Table 17.11). -/
def Obligations.PowerDomains : Prop :=
  ∀ (s : State) (d : Domain),
    (s.pwr.core = .off → s.pwr.tile = .off → s.pwr.store = .off → ∃ t, exec .pdCoreOn s = .next t ∧ t.pwr.core = .rising ∧ t.pwr.tile = .off
        ∧ t.pwr.store = .off ∧ t.pwr.targets = s.pwr.targets ||| 1)
    ∧ (s.pwr.core = .on → s.pwr.store = .off → s.pwr.tile = .off → s.pwr.targets.getLsbD 0 = true →
        ∃ t, exec .pdStoreOn s = .next t ∧ t.pwr.store = .rising ∧ t.pwr.core = .on)
    ∧ (s.pwr.core = .on → s.pwr.store = .on → s.pwr.tile = .off → s.tileRetired = false → s.pwr.targets.getLsbD 0 = true →
        ∃ t, exec .pdTileOn s = .next t ∧ t.pwr.tile = .rising ∧ t.pwr.store = .on ∧ t.pwr.core = .on)
    ∧ (s.pwr.tile = .on → s.bm.owner = none → s.tile.queue = [] → s.noFill [0, 2] = true →
        ∃ t, exec .pdTileOff s = .next t ∧ t.pwr.tile = .falling ∧ t.tile.queue = [])
    ∧ (s.pwr.tile = .off → s.pwr.store = .on → s.noFill [1] = true → s.pwr.targets.getLsbD 1 = false →
      (∃ t, exec .pdStoreRetention s = .next t ∧ t.pwr.store = .retaining ∧ t.mem.cells = s.mem.cells)
      ∧ (∃ t, exec .pdStoreOff s = .next t ∧ t.pwr.store = .falling))
    ∧ (s.pwr.core = .on → s.pwr.store = .off → s.pwr.targets &&& 0xE = 0 → s.coreMayStop = true → ∃ t, exec .pdCoreOff s = .next t ∧ t.pwr.core = .falling
        ∧ t.core.mode = .held ∧ t.mem.sb = [] ∧ t.pwr.latching = true)
    ∧ (s.pwr.core = .rising → ∃ t, exec (.pwrAck .core true) s = .next t ∧ t.pwr.core = .on ∧ t.pwr.coreReset = true ∧ t.core.mode = .held
        ∧ t.dep.pwrchg = true ∧ t.dep.ipend.getLsbD 13 = true)
    ∧ (s.pwr.core = .falling → ∃ t, exec (.pwrAck .core false) s = .next t ∧ t.dep.pwrchg = true
        ∧ t.pwr.core = if s.pwr.targets.getLsbD 0 then .rising else .off)
    ∧ (s.pwr.tile = .rising → ∃ t, exec (.pwrAck .tile true) s = .next t ∧ t.pwr.tile ≠ .rising ∧ t.dep.pwrchg = true ∧ t.dep.ipend.getLsbD 13 = true)
    ∧ (s.pwr.store = .falling → s.pwr.targets.getLsbD 2 = false → ∃ t, exec (.pwrAck .store false) s = .next t ∧ t.pwr.store = .off
        ∧ t.dep.pwrchg = true)
    ∧ (s.pwr.store = .retaining → s.pwr.fromRetention = false → s.pwr.targets.getLsbD 3 = true →
        ∃ t, exec (.pwrRetackStore true) s = .next t ∧ t.pwr.store = .retained ∧ t.dep.pwrchg = true)
    ∧ (s.pwr.store ≠ .retaining → exec (.pwrRetackStore true) s = .next (hardwire s s.sequence))
    ∧ ((s.pwr.of d).moving = true → ∃ t, exec (.pwrAckTimeout d) s = .next t ∧ t.pwr.err = true ∧ t.dep.ipend.getLsbD 13 = true
        ∧ t.pwr.of d = s.pwr.of d)
    ∧ ((s.pwr.of d).moving = false → Yields (.pwrAckTimeout d) s s)
    ∧ Yields .vidOk s { s with pwr := { s.pwr with vidOk := true } }

/-- Run control: HALT stops a running core whose tile queue is empty, its registers and memory as they were; RESUME and STEP act on a halted core; FREEZE stops the
core's clocks, in CORE reset until the release and beyond. A ring access that its segment does not permit gives 0 and sets ERR, changing nothing else; a permitted read gives
the word; a write of program SRAM while the deputy is stopped leaves the word there. The TAP's operations act while its instruction selects
the network; codes that name no instruction select BYPASS. DUMP_REQ sets DUMPREQ and raises vector 13; firmware begins the dump of a core that runs (16 R367; 17 R394 to R397). -/
def Obligations.DebugAccess : Prop :=
  ∀ (s : State) (tap : Bool) (addr : BitVec 32) (v : Word) (ir : BitVec 8),
    (tap = true → s.dbg.ir ≠ 0x10 → Yields (.halt tap) s s ∧ Yields (.resume tap) s s ∧ Yields (.debugStep tap) s s
      ∧ Yields (.ringRead tap addr) s s ∧ Yields (.ringWrite tap addr v) s s)
    ∧ ((tap = false ∨ s.dbg.ir = 0x10) →
      (s.core.mode = .run → s.tile.queue = [] → ∃ t, exec (.halt tap) s = .next t ∧ t.core.mode = .halted ∧ t.core.banks = s.core.banks ∧ t.mem = s.mem)
      ∧ (s.core.mode ≠ .run → Yields (.halt tap) s s)
      ∧ (s.core.mode = .halted → Yields (.resume tap) s { s with core := { s.core with mode := .run, stepGrant := false } }
          ∧ Yields (.debugStep tap) s { s with core := { s.core with stepGrant := true } })
      ∧ (s.core.mode ≠ .halted → Yields (.resume tap) s s ∧ Yields (.debugStep tap) s s)
      ∧ (s.ringReads tap (ringSeg addr) = false → ∃ t, exec (.ringRead tap addr) s = .next t
          ∧ t.dbg = (if tap then { s.dbg with tapAddr := addr, tapData := 0, tapErr := true } else { s.dbg with addr := addr, data := 0, err := true })
          ∧ t.core = (hardwire s s).core ∧ t.mem = s.mem)
      ∧ (ringSeg addr = 9 → ringIndex addr < 16384 → s.ringReads tap 9 = true → ∃ t, exec (.ringRead tap addr) s = .next t
          ∧ (if tap then t.dbg.tapData else t.dbg.data) = (s.dep.progGet (ringIndex addr)).setWidth 64)
      ∧ (s.ringWrites tap (ringSeg addr) (ringIndex addr) = false → ∃ t, exec (.ringWrite tap addr v) s = .next t
          ∧ (if tap then t.dbg.tapErr else t.dbg.err) = true ∧ t.core = (hardwire s s).core ∧ t.mem = s.mem ∧ t.dep = s.dep)
      ∧ (ringSeg addr = 9 → s.ringWrites tap 9 (ringIndex addr) = true → smWf (0x3EFF#14) 0 s.dep.prog = true →
          ∃ t, exec (.ringWrite tap addr v) s = .next t ∧ t.dep.progGet (ringIndex addr) = v.setWidth 14))
    ∧ (s.core.mode = .held → Yields .freeze s { s with core := { s.core with heldFrozen := true } })
    ∧ (s.core.mode ≠ .held → Yields .freeze s { s with core := { s.core with mode := .frozen, stepGrant := false } })
    ∧ Yields .tapReset s { s with dbg := { s.dbg with ir := 0xFF } }
    ∧ (∃ t, exec (.tapInstructionLoad ir) s = .next t ∧ t.dbg = { s.dbg with ir := if ir = 0x02 ∨ ir = 0x10 then ir else 0xFF })
    ∧ (s.stopped = true → s.res.fatalDue = 0 → s.res.dumping = none → ∃ t, exec .dumpReq s = .next t ∧ t.dep.dumpreq = true
        ∧ t.dep.ipend.getLsbD 13 = true ∧ t.res = s.res ∧ t.core = (hardwire s s).core)
    ∧ (s.stopped = false → s.res.fatalDue = 0 → s.res.dumping = none → s.firmware = false → ∃ t, exec .dumpReq s = .next t ∧ t.dep.dumpreq = true
        ∧ t.res.fatalDue = 3)
    ∧ (s.stopped = false → s.res.fatalDue = 0 → s.res.dumping = none → s.firmware = true → ∃ t, exec .dumpReq s = .next t ∧ t.dep.dumpreq = true
        ∧ t.stopped = true ∧ t.res.dumping.isSome = true)
end

