-- ==== Sys2Proof/Laws/State.lean ====
section
/-! SUPPORT. What each update of the state leaves as it was, and what it sets: one lemma per field. -/

namespace Sys2Proof.Machine

/-! ### drawn -/

@[simp] theorem State.drawn_pending (s : State) : s.drawn.pending = s.pending := rfl
@[simp] theorem State.drawn_build (s : State) : s.drawn.build = s.build := rfl
@[simp] theorem State.drawn_core (s : State) : s.drawn.core = s.core := rfl
@[simp] theorem State.drawn_wz (s : State) : s.drawn.wz = s.wz := rfl
@[simp] theorem State.drawn_bm (s : State) : s.drawn.bm = s.bm := rfl
@[simp] theorem State.drawn_xl (s : State) : s.drawn.xl = s.xl := rfl
@[simp] theorem State.drawn_mem (s : State) : s.drawn.mem = s.mem := rfl
@[simp] theorem State.drawn_ts (s : State) : s.drawn.ts = s.ts := rfl
@[simp] theorem State.drawn_pf (s : State) : s.drawn.pf = s.pf := rfl
@[simp] theorem State.drawn_tile (s : State) : s.drawn.tile = s.tile := rfl
@[simp] theorem State.drawn_jnl (s : State) : s.drawn.jnl = s.jnl := rfl
@[simp] theorem State.drawn_assay (s : State) : s.drawn.assay = s.assay := rfl
@[simp] theorem State.drawn_res (s : State) : s.drawn.res = s.res := rfl
@[simp] theorem State.drawn_dep (s : State) : s.drawn.dep = s.dep := rfl
@[simp] theorem State.drawn_ce (s : State) : s.drawn.ce = s.ce := rfl
@[simp] theorem State.drawn_win (s : State) : s.drawn.win = s.win := rfl
@[simp] theorem State.drawn_hl (s : State) : s.drawn.hl = s.hl := rfl
@[simp] theorem State.drawn_sy (s : State) : s.drawn.sy = s.sy := rfl
@[simp] theorem State.drawn_mb (s : State) : s.drawn.mb = s.mb := rfl
@[simp] theorem State.drawn_tr (s : State) : s.drawn.tr = s.tr := rfl
@[simp] theorem State.drawn_fab (s : State) : s.drawn.fab = s.fab := rfl
@[simp] theorem State.drawn_dict (s : State) : s.drawn.dict = s.dict := rfl
@[simp] theorem State.drawn_can (s : State) : s.drawn.can = s.can := rfl
@[simp] theorem State.drawn_pwr (s : State) : s.drawn.pwr = s.pwr := rfl
@[simp] theorem State.drawn_straps (s : State) : s.drawn.straps = s.straps := rfl
@[simp] theorem State.drawn_dbg (s : State) : s.drawn.dbg = s.dbg := rfl

/-! ### setBankOf -/

@[simp] theorem State.setBankOf_pending (s : State) (l : Fin 8) (b : Bank) : (s.setBankOf l b).pending = s.pending := rfl
@[simp] theorem State.setBankOf_free (s : State) (l : Fin 8) (b : Bank) : (s.setBankOf l b).free = s.free := rfl
@[simp] theorem State.setBankOf_build (s : State) (l : Fin 8) (b : Bank) : (s.setBankOf l b).build = s.build := rfl
@[simp] theorem State.setBankOf_wz (s : State) (l : Fin 8) (b : Bank) : (s.setBankOf l b).wz = s.wz := rfl
@[simp] theorem State.setBankOf_bm (s : State) (l : Fin 8) (b : Bank) : (s.setBankOf l b).bm = s.bm := rfl
@[simp] theorem State.setBankOf_xl (s : State) (l : Fin 8) (b : Bank) : (s.setBankOf l b).xl = s.xl := rfl
@[simp] theorem State.setBankOf_mem (s : State) (l : Fin 8) (b : Bank) : (s.setBankOf l b).mem = s.mem := rfl
@[simp] theorem State.setBankOf_ts (s : State) (l : Fin 8) (b : Bank) : (s.setBankOf l b).ts = s.ts := rfl
@[simp] theorem State.setBankOf_pf (s : State) (l : Fin 8) (b : Bank) : (s.setBankOf l b).pf = s.pf := rfl
@[simp] theorem State.setBankOf_tile (s : State) (l : Fin 8) (b : Bank) : (s.setBankOf l b).tile = s.tile := rfl
@[simp] theorem State.setBankOf_jnl (s : State) (l : Fin 8) (b : Bank) : (s.setBankOf l b).jnl = s.jnl := rfl
@[simp] theorem State.setBankOf_assay (s : State) (l : Fin 8) (b : Bank) : (s.setBankOf l b).assay = s.assay := rfl
@[simp] theorem State.setBankOf_res (s : State) (l : Fin 8) (b : Bank) : (s.setBankOf l b).res = s.res := rfl
@[simp] theorem State.setBankOf_dep (s : State) (l : Fin 8) (b : Bank) : (s.setBankOf l b).dep = s.dep := rfl
@[simp] theorem State.setBankOf_ce (s : State) (l : Fin 8) (b : Bank) : (s.setBankOf l b).ce = s.ce := rfl
@[simp] theorem State.setBankOf_win (s : State) (l : Fin 8) (b : Bank) : (s.setBankOf l b).win = s.win := rfl
@[simp] theorem State.setBankOf_hl (s : State) (l : Fin 8) (b : Bank) : (s.setBankOf l b).hl = s.hl := rfl
@[simp] theorem State.setBankOf_sy (s : State) (l : Fin 8) (b : Bank) : (s.setBankOf l b).sy = s.sy := rfl
@[simp] theorem State.setBankOf_mb (s : State) (l : Fin 8) (b : Bank) : (s.setBankOf l b).mb = s.mb := rfl
@[simp] theorem State.setBankOf_tr (s : State) (l : Fin 8) (b : Bank) : (s.setBankOf l b).tr = s.tr := rfl
@[simp] theorem State.setBankOf_fab (s : State) (l : Fin 8) (b : Bank) : (s.setBankOf l b).fab = s.fab := rfl
@[simp] theorem State.setBankOf_dict (s : State) (l : Fin 8) (b : Bank) : (s.setBankOf l b).dict = s.dict := rfl
@[simp] theorem State.setBankOf_can (s : State) (l : Fin 8) (b : Bank) : (s.setBankOf l b).can = s.can := rfl
@[simp] theorem State.setBankOf_pwr (s : State) (l : Fin 8) (b : Bank) : (s.setBankOf l b).pwr = s.pwr := rfl
@[simp] theorem State.setBankOf_straps (s : State) (l : Fin 8) (b : Bank) : (s.setBankOf l b).straps = s.straps := rfl
@[simp] theorem State.setBankOf_dbg (s : State) (l : Fin 8) (b : Bank) : (s.setBankOf l b).dbg = s.dbg := rfl

/-! ### setBank -/

@[simp] theorem State.setBank_pending (s : State) (b : Bank) : (s.setBank b).pending = s.pending := rfl
@[simp] theorem State.setBank_free (s : State) (b : Bank) : (s.setBank b).free = s.free := rfl
@[simp] theorem State.setBank_build (s : State) (b : Bank) : (s.setBank b).build = s.build := rfl
@[simp] theorem State.setBank_wz (s : State) (b : Bank) : (s.setBank b).wz = s.wz := rfl
@[simp] theorem State.setBank_bm (s : State) (b : Bank) : (s.setBank b).bm = s.bm := rfl
@[simp] theorem State.setBank_xl (s : State) (b : Bank) : (s.setBank b).xl = s.xl := rfl
@[simp] theorem State.setBank_mem (s : State) (b : Bank) : (s.setBank b).mem = s.mem := rfl
@[simp] theorem State.setBank_ts (s : State) (b : Bank) : (s.setBank b).ts = s.ts := rfl
@[simp] theorem State.setBank_pf (s : State) (b : Bank) : (s.setBank b).pf = s.pf := rfl
@[simp] theorem State.setBank_tile (s : State) (b : Bank) : (s.setBank b).tile = s.tile := rfl
@[simp] theorem State.setBank_jnl (s : State) (b : Bank) : (s.setBank b).jnl = s.jnl := rfl
@[simp] theorem State.setBank_assay (s : State) (b : Bank) : (s.setBank b).assay = s.assay := rfl
@[simp] theorem State.setBank_res (s : State) (b : Bank) : (s.setBank b).res = s.res := rfl
@[simp] theorem State.setBank_dep (s : State) (b : Bank) : (s.setBank b).dep = s.dep := rfl
@[simp] theorem State.setBank_ce (s : State) (b : Bank) : (s.setBank b).ce = s.ce := rfl
@[simp] theorem State.setBank_win (s : State) (b : Bank) : (s.setBank b).win = s.win := rfl
@[simp] theorem State.setBank_hl (s : State) (b : Bank) : (s.setBank b).hl = s.hl := rfl
@[simp] theorem State.setBank_sy (s : State) (b : Bank) : (s.setBank b).sy = s.sy := rfl
@[simp] theorem State.setBank_mb (s : State) (b : Bank) : (s.setBank b).mb = s.mb := rfl
@[simp] theorem State.setBank_tr (s : State) (b : Bank) : (s.setBank b).tr = s.tr := rfl
@[simp] theorem State.setBank_fab (s : State) (b : Bank) : (s.setBank b).fab = s.fab := rfl
@[simp] theorem State.setBank_dict (s : State) (b : Bank) : (s.setBank b).dict = s.dict := rfl
@[simp] theorem State.setBank_can (s : State) (b : Bank) : (s.setBank b).can = s.can := rfl
@[simp] theorem State.setBank_pwr (s : State) (b : Bank) : (s.setBank b).pwr = s.pwr := rfl
@[simp] theorem State.setBank_straps (s : State) (b : Bank) : (s.setBank b).straps = s.straps := rfl
@[simp] theorem State.setBank_dbg (s : State) (b : Bank) : (s.setBank b).dbg = s.dbg := rfl

/-! ### setActive -/

@[simp] theorem State.setActive_pending (s : State) (l : Fin 8) (a : Bool) : (s.setActive l a).pending = s.pending := rfl
@[simp] theorem State.setActive_free (s : State) (l : Fin 8) (a : Bool) : (s.setActive l a).free = s.free := rfl
@[simp] theorem State.setActive_build (s : State) (l : Fin 8) (a : Bool) : (s.setActive l a).build = s.build := rfl
@[simp] theorem State.setActive_wz (s : State) (l : Fin 8) (a : Bool) : (s.setActive l a).wz = s.wz := rfl
@[simp] theorem State.setActive_bm (s : State) (l : Fin 8) (a : Bool) : (s.setActive l a).bm = s.bm := rfl
@[simp] theorem State.setActive_xl (s : State) (l : Fin 8) (a : Bool) : (s.setActive l a).xl = s.xl := rfl
@[simp] theorem State.setActive_mem (s : State) (l : Fin 8) (a : Bool) : (s.setActive l a).mem = s.mem := rfl
@[simp] theorem State.setActive_ts (s : State) (l : Fin 8) (a : Bool) : (s.setActive l a).ts = s.ts := rfl
@[simp] theorem State.setActive_pf (s : State) (l : Fin 8) (a : Bool) : (s.setActive l a).pf = s.pf := rfl
@[simp] theorem State.setActive_tile (s : State) (l : Fin 8) (a : Bool) : (s.setActive l a).tile = s.tile := rfl
@[simp] theorem State.setActive_jnl (s : State) (l : Fin 8) (a : Bool) : (s.setActive l a).jnl = s.jnl := rfl
@[simp] theorem State.setActive_assay (s : State) (l : Fin 8) (a : Bool) : (s.setActive l a).assay = s.assay := rfl
@[simp] theorem State.setActive_res (s : State) (l : Fin 8) (a : Bool) : (s.setActive l a).res = s.res := rfl
@[simp] theorem State.setActive_dep (s : State) (l : Fin 8) (a : Bool) : (s.setActive l a).dep = s.dep := rfl
@[simp] theorem State.setActive_ce (s : State) (l : Fin 8) (a : Bool) : (s.setActive l a).ce = s.ce := rfl
@[simp] theorem State.setActive_win (s : State) (l : Fin 8) (a : Bool) : (s.setActive l a).win = s.win := rfl
@[simp] theorem State.setActive_hl (s : State) (l : Fin 8) (a : Bool) : (s.setActive l a).hl = s.hl := rfl
@[simp] theorem State.setActive_sy (s : State) (l : Fin 8) (a : Bool) : (s.setActive l a).sy = s.sy := rfl
@[simp] theorem State.setActive_mb (s : State) (l : Fin 8) (a : Bool) : (s.setActive l a).mb = s.mb := rfl
@[simp] theorem State.setActive_tr (s : State) (l : Fin 8) (a : Bool) : (s.setActive l a).tr = s.tr := rfl
@[simp] theorem State.setActive_fab (s : State) (l : Fin 8) (a : Bool) : (s.setActive l a).fab = s.fab := rfl
@[simp] theorem State.setActive_dict (s : State) (l : Fin 8) (a : Bool) : (s.setActive l a).dict = s.dict := rfl
@[simp] theorem State.setActive_can (s : State) (l : Fin 8) (a : Bool) : (s.setActive l a).can = s.can := rfl
@[simp] theorem State.setActive_pwr (s : State) (l : Fin 8) (a : Bool) : (s.setActive l a).pwr = s.pwr := rfl
@[simp] theorem State.setActive_straps (s : State) (l : Fin 8) (a : Bool) : (s.setActive l a).straps = s.straps := rfl
@[simp] theorem State.setActive_dbg (s : State) (l : Fin 8) (a : Bool) : (s.setActive l a).dbg = s.dbg := rfl

/-! ### writeG -/

@[simp] theorem State.writeG_pending (s : State) (r : RegIx) (v : Word) : (s.writeG r v).pending = s.pending := rfl
@[simp] theorem State.writeG_free (s : State) (r : RegIx) (v : Word) : (s.writeG r v).free = s.free := rfl
@[simp] theorem State.writeG_build (s : State) (r : RegIx) (v : Word) : (s.writeG r v).build = s.build := rfl
@[simp] theorem State.writeG_wz (s : State) (r : RegIx) (v : Word) : (s.writeG r v).wz = s.wz := rfl
@[simp] theorem State.writeG_bm (s : State) (r : RegIx) (v : Word) : (s.writeG r v).bm = s.bm := rfl
@[simp] theorem State.writeG_xl (s : State) (r : RegIx) (v : Word) : (s.writeG r v).xl = s.xl := rfl
@[simp] theorem State.writeG_mem (s : State) (r : RegIx) (v : Word) : (s.writeG r v).mem = s.mem := rfl
@[simp] theorem State.writeG_ts (s : State) (r : RegIx) (v : Word) : (s.writeG r v).ts = s.ts := rfl
@[simp] theorem State.writeG_pf (s : State) (r : RegIx) (v : Word) : (s.writeG r v).pf = s.pf := rfl
@[simp] theorem State.writeG_tile (s : State) (r : RegIx) (v : Word) : (s.writeG r v).tile = s.tile := rfl
@[simp] theorem State.writeG_jnl (s : State) (r : RegIx) (v : Word) : (s.writeG r v).jnl = s.jnl := rfl
@[simp] theorem State.writeG_assay (s : State) (r : RegIx) (v : Word) : (s.writeG r v).assay = s.assay := rfl
@[simp] theorem State.writeG_res (s : State) (r : RegIx) (v : Word) : (s.writeG r v).res = s.res := rfl
@[simp] theorem State.writeG_dep (s : State) (r : RegIx) (v : Word) : (s.writeG r v).dep = s.dep := rfl
@[simp] theorem State.writeG_ce (s : State) (r : RegIx) (v : Word) : (s.writeG r v).ce = s.ce := rfl
@[simp] theorem State.writeG_win (s : State) (r : RegIx) (v : Word) : (s.writeG r v).win = s.win := rfl
@[simp] theorem State.writeG_hl (s : State) (r : RegIx) (v : Word) : (s.writeG r v).hl = s.hl := rfl
@[simp] theorem State.writeG_sy (s : State) (r : RegIx) (v : Word) : (s.writeG r v).sy = s.sy := rfl
@[simp] theorem State.writeG_mb (s : State) (r : RegIx) (v : Word) : (s.writeG r v).mb = s.mb := rfl
@[simp] theorem State.writeG_tr (s : State) (r : RegIx) (v : Word) : (s.writeG r v).tr = s.tr := rfl
@[simp] theorem State.writeG_fab (s : State) (r : RegIx) (v : Word) : (s.writeG r v).fab = s.fab := rfl
@[simp] theorem State.writeG_dict (s : State) (r : RegIx) (v : Word) : (s.writeG r v).dict = s.dict := rfl
@[simp] theorem State.writeG_can (s : State) (r : RegIx) (v : Word) : (s.writeG r v).can = s.can := rfl
@[simp] theorem State.writeG_pwr (s : State) (r : RegIx) (v : Word) : (s.writeG r v).pwr = s.pwr := rfl
@[simp] theorem State.writeG_straps (s : State) (r : RegIx) (v : Word) : (s.writeG r v).straps = s.straps := rfl
@[simp] theorem State.writeG_dbg (s : State) (r : RegIx) (v : Word) : (s.writeG r v).dbg = s.dbg := rfl

/-! ### setSp -/

@[simp] theorem State.setSp_pending (s : State) (v : Word) : (s.setSp v).pending = s.pending := rfl
@[simp] theorem State.setSp_free (s : State) (v : Word) : (s.setSp v).free = s.free := rfl
@[simp] theorem State.setSp_build (s : State) (v : Word) : (s.setSp v).build = s.build := rfl
@[simp] theorem State.setSp_wz (s : State) (v : Word) : (s.setSp v).wz = s.wz := rfl
@[simp] theorem State.setSp_bm (s : State) (v : Word) : (s.setSp v).bm = s.bm := rfl
@[simp] theorem State.setSp_xl (s : State) (v : Word) : (s.setSp v).xl = s.xl := rfl
@[simp] theorem State.setSp_mem (s : State) (v : Word) : (s.setSp v).mem = s.mem := rfl
@[simp] theorem State.setSp_ts (s : State) (v : Word) : (s.setSp v).ts = s.ts := rfl
@[simp] theorem State.setSp_pf (s : State) (v : Word) : (s.setSp v).pf = s.pf := rfl
@[simp] theorem State.setSp_tile (s : State) (v : Word) : (s.setSp v).tile = s.tile := rfl
@[simp] theorem State.setSp_jnl (s : State) (v : Word) : (s.setSp v).jnl = s.jnl := rfl
@[simp] theorem State.setSp_assay (s : State) (v : Word) : (s.setSp v).assay = s.assay := rfl
@[simp] theorem State.setSp_res (s : State) (v : Word) : (s.setSp v).res = s.res := rfl
@[simp] theorem State.setSp_dep (s : State) (v : Word) : (s.setSp v).dep = s.dep := rfl
@[simp] theorem State.setSp_ce (s : State) (v : Word) : (s.setSp v).ce = s.ce := rfl
@[simp] theorem State.setSp_win (s : State) (v : Word) : (s.setSp v).win = s.win := rfl
@[simp] theorem State.setSp_hl (s : State) (v : Word) : (s.setSp v).hl = s.hl := rfl
@[simp] theorem State.setSp_sy (s : State) (v : Word) : (s.setSp v).sy = s.sy := rfl
@[simp] theorem State.setSp_mb (s : State) (v : Word) : (s.setSp v).mb = s.mb := rfl
@[simp] theorem State.setSp_tr (s : State) (v : Word) : (s.setSp v).tr = s.tr := rfl
@[simp] theorem State.setSp_fab (s : State) (v : Word) : (s.setSp v).fab = s.fab := rfl
@[simp] theorem State.setSp_dict (s : State) (v : Word) : (s.setSp v).dict = s.dict := rfl
@[simp] theorem State.setSp_can (s : State) (v : Word) : (s.setSp v).can = s.can := rfl
@[simp] theorem State.setSp_pwr (s : State) (v : Word) : (s.setSp v).pwr = s.pwr := rfl
@[simp] theorem State.setSp_straps (s : State) (v : Word) : (s.setSp v).straps = s.straps := rfl
@[simp] theorem State.setSp_dbg (s : State) (v : Word) : (s.setSp v).dbg = s.dbg := rfl

/-! ### setFl -/

@[simp] theorem State.setFl_pending (s : State) (f : Flags) : (s.setFl f).pending = s.pending := rfl
@[simp] theorem State.setFl_free (s : State) (f : Flags) : (s.setFl f).free = s.free := rfl
@[simp] theorem State.setFl_build (s : State) (f : Flags) : (s.setFl f).build = s.build := rfl
@[simp] theorem State.setFl_wz (s : State) (f : Flags) : (s.setFl f).wz = s.wz := rfl
@[simp] theorem State.setFl_bm (s : State) (f : Flags) : (s.setFl f).bm = s.bm := rfl
@[simp] theorem State.setFl_xl (s : State) (f : Flags) : (s.setFl f).xl = s.xl := rfl
@[simp] theorem State.setFl_mem (s : State) (f : Flags) : (s.setFl f).mem = s.mem := rfl
@[simp] theorem State.setFl_ts (s : State) (f : Flags) : (s.setFl f).ts = s.ts := rfl
@[simp] theorem State.setFl_pf (s : State) (f : Flags) : (s.setFl f).pf = s.pf := rfl
@[simp] theorem State.setFl_tile (s : State) (f : Flags) : (s.setFl f).tile = s.tile := rfl
@[simp] theorem State.setFl_jnl (s : State) (f : Flags) : (s.setFl f).jnl = s.jnl := rfl
@[simp] theorem State.setFl_assay (s : State) (f : Flags) : (s.setFl f).assay = s.assay := rfl
@[simp] theorem State.setFl_res (s : State) (f : Flags) : (s.setFl f).res = s.res := rfl
@[simp] theorem State.setFl_dep (s : State) (f : Flags) : (s.setFl f).dep = s.dep := rfl
@[simp] theorem State.setFl_ce (s : State) (f : Flags) : (s.setFl f).ce = s.ce := rfl
@[simp] theorem State.setFl_win (s : State) (f : Flags) : (s.setFl f).win = s.win := rfl
@[simp] theorem State.setFl_hl (s : State) (f : Flags) : (s.setFl f).hl = s.hl := rfl
@[simp] theorem State.setFl_sy (s : State) (f : Flags) : (s.setFl f).sy = s.sy := rfl
@[simp] theorem State.setFl_mb (s : State) (f : Flags) : (s.setFl f).mb = s.mb := rfl
@[simp] theorem State.setFl_tr (s : State) (f : Flags) : (s.setFl f).tr = s.tr := rfl
@[simp] theorem State.setFl_fab (s : State) (f : Flags) : (s.setFl f).fab = s.fab := rfl
@[simp] theorem State.setFl_dict (s : State) (f : Flags) : (s.setFl f).dict = s.dict := rfl
@[simp] theorem State.setFl_can (s : State) (f : Flags) : (s.setFl f).can = s.can := rfl
@[simp] theorem State.setFl_pwr (s : State) (f : Flags) : (s.setFl f).pwr = s.pwr := rfl
@[simp] theorem State.setFl_straps (s : State) (f : Flags) : (s.setFl f).straps = s.straps := rfl
@[simp] theorem State.setFl_dbg (s : State) (f : Flags) : (s.setFl f).dbg = s.dbg := rfl

/-! ### setPc -/

@[simp] theorem State.setPc_pending (s : State) (v : Word) : (s.setPc v).pending = s.pending := rfl
@[simp] theorem State.setPc_free (s : State) (v : Word) : (s.setPc v).free = s.free := rfl
@[simp] theorem State.setPc_build (s : State) (v : Word) : (s.setPc v).build = s.build := rfl
@[simp] theorem State.setPc_wz (s : State) (v : Word) : (s.setPc v).wz = s.wz := rfl
@[simp] theorem State.setPc_bm (s : State) (v : Word) : (s.setPc v).bm = s.bm := rfl
@[simp] theorem State.setPc_xl (s : State) (v : Word) : (s.setPc v).xl = s.xl := rfl
@[simp] theorem State.setPc_mem (s : State) (v : Word) : (s.setPc v).mem = s.mem := rfl
@[simp] theorem State.setPc_ts (s : State) (v : Word) : (s.setPc v).ts = s.ts := rfl
@[simp] theorem State.setPc_pf (s : State) (v : Word) : (s.setPc v).pf = s.pf := rfl
@[simp] theorem State.setPc_tile (s : State) (v : Word) : (s.setPc v).tile = s.tile := rfl
@[simp] theorem State.setPc_jnl (s : State) (v : Word) : (s.setPc v).jnl = s.jnl := rfl
@[simp] theorem State.setPc_assay (s : State) (v : Word) : (s.setPc v).assay = s.assay := rfl
@[simp] theorem State.setPc_res (s : State) (v : Word) : (s.setPc v).res = s.res := rfl
@[simp] theorem State.setPc_dep (s : State) (v : Word) : (s.setPc v).dep = s.dep := rfl
@[simp] theorem State.setPc_ce (s : State) (v : Word) : (s.setPc v).ce = s.ce := rfl
@[simp] theorem State.setPc_win (s : State) (v : Word) : (s.setPc v).win = s.win := rfl
@[simp] theorem State.setPc_hl (s : State) (v : Word) : (s.setPc v).hl = s.hl := rfl
@[simp] theorem State.setPc_sy (s : State) (v : Word) : (s.setPc v).sy = s.sy := rfl
@[simp] theorem State.setPc_mb (s : State) (v : Word) : (s.setPc v).mb = s.mb := rfl
@[simp] theorem State.setPc_tr (s : State) (v : Word) : (s.setPc v).tr = s.tr := rfl
@[simp] theorem State.setPc_fab (s : State) (v : Word) : (s.setPc v).fab = s.fab := rfl
@[simp] theorem State.setPc_dict (s : State) (v : Word) : (s.setPc v).dict = s.dict := rfl
@[simp] theorem State.setPc_can (s : State) (v : Word) : (s.setPc v).can = s.can := rfl
@[simp] theorem State.setPc_pwr (s : State) (v : Word) : (s.setPc v).pwr = s.pwr := rfl
@[simp] theorem State.setPc_straps (s : State) (v : Word) : (s.setPc v).straps = s.straps := rfl
@[simp] theorem State.setPc_dbg (s : State) (v : Word) : (s.setPc v).dbg = s.dbg := rfl

/-! ### raiseVector -/

@[simp] theorem State.raiseVector_pending (s : State) (n : Nat) : (s.raiseVector n).pending = s.pending := rfl
@[simp] theorem State.raiseVector_free (s : State) (n : Nat) : (s.raiseVector n).free = s.free := rfl
@[simp] theorem State.raiseVector_build (s : State) (n : Nat) : (s.raiseVector n).build = s.build := rfl
@[simp] theorem State.raiseVector_core (s : State) (n : Nat) : (s.raiseVector n).core = s.core := rfl
@[simp] theorem State.raiseVector_wz (s : State) (n : Nat) : (s.raiseVector n).wz = s.wz := rfl
@[simp] theorem State.raiseVector_bm (s : State) (n : Nat) : (s.raiseVector n).bm = s.bm := rfl
@[simp] theorem State.raiseVector_xl (s : State) (n : Nat) : (s.raiseVector n).xl = s.xl := rfl
@[simp] theorem State.raiseVector_mem (s : State) (n : Nat) : (s.raiseVector n).mem = s.mem := rfl
@[simp] theorem State.raiseVector_ts (s : State) (n : Nat) : (s.raiseVector n).ts = s.ts := rfl
@[simp] theorem State.raiseVector_pf (s : State) (n : Nat) : (s.raiseVector n).pf = s.pf := rfl
@[simp] theorem State.raiseVector_tile (s : State) (n : Nat) : (s.raiseVector n).tile = s.tile := rfl
@[simp] theorem State.raiseVector_jnl (s : State) (n : Nat) : (s.raiseVector n).jnl = s.jnl := rfl
@[simp] theorem State.raiseVector_assay (s : State) (n : Nat) : (s.raiseVector n).assay = s.assay := rfl
@[simp] theorem State.raiseVector_res (s : State) (n : Nat) : (s.raiseVector n).res = s.res := rfl
@[simp] theorem State.raiseVector_ce (s : State) (n : Nat) : (s.raiseVector n).ce = s.ce := rfl
@[simp] theorem State.raiseVector_win (s : State) (n : Nat) : (s.raiseVector n).win = s.win := rfl
@[simp] theorem State.raiseVector_hl (s : State) (n : Nat) : (s.raiseVector n).hl = s.hl := rfl
@[simp] theorem State.raiseVector_sy (s : State) (n : Nat) : (s.raiseVector n).sy = s.sy := rfl
@[simp] theorem State.raiseVector_mb (s : State) (n : Nat) : (s.raiseVector n).mb = s.mb := rfl
@[simp] theorem State.raiseVector_tr (s : State) (n : Nat) : (s.raiseVector n).tr = s.tr := rfl
@[simp] theorem State.raiseVector_fab (s : State) (n : Nat) : (s.raiseVector n).fab = s.fab := rfl
@[simp] theorem State.raiseVector_dict (s : State) (n : Nat) : (s.raiseVector n).dict = s.dict := rfl
@[simp] theorem State.raiseVector_can (s : State) (n : Nat) : (s.raiseVector n).can = s.can := rfl
@[simp] theorem State.raiseVector_pwr (s : State) (n : Nat) : (s.raiseVector n).pwr = s.pwr := rfl
@[simp] theorem State.raiseVector_straps (s : State) (n : Nat) : (s.raiseVector n).straps = s.straps := rfl
@[simp] theorem State.raiseVector_dbg (s : State) (n : Nat) : (s.raiseVector n).dbg = s.dbg := rfl

/-! ### setDep -/

@[simp] theorem State.setDep_pending (s : State) (d : Deputy) : (s.setDep d).pending = s.pending := rfl
@[simp] theorem State.setDep_free (s : State) (d : Deputy) : (s.setDep d).free = s.free := rfl
@[simp] theorem State.setDep_build (s : State) (d : Deputy) : (s.setDep d).build = s.build := rfl
@[simp] theorem State.setDep_core (s : State) (d : Deputy) : (s.setDep d).core = s.core := rfl
@[simp] theorem State.setDep_wz (s : State) (d : Deputy) : (s.setDep d).wz = s.wz := rfl
@[simp] theorem State.setDep_bm (s : State) (d : Deputy) : (s.setDep d).bm = s.bm := rfl
@[simp] theorem State.setDep_xl (s : State) (d : Deputy) : (s.setDep d).xl = s.xl := rfl
@[simp] theorem State.setDep_mem (s : State) (d : Deputy) : (s.setDep d).mem = s.mem := rfl
@[simp] theorem State.setDep_ts (s : State) (d : Deputy) : (s.setDep d).ts = s.ts := rfl
@[simp] theorem State.setDep_pf (s : State) (d : Deputy) : (s.setDep d).pf = s.pf := rfl
@[simp] theorem State.setDep_tile (s : State) (d : Deputy) : (s.setDep d).tile = s.tile := rfl
@[simp] theorem State.setDep_jnl (s : State) (d : Deputy) : (s.setDep d).jnl = s.jnl := rfl
@[simp] theorem State.setDep_assay (s : State) (d : Deputy) : (s.setDep d).assay = s.assay := rfl
@[simp] theorem State.setDep_res (s : State) (d : Deputy) : (s.setDep d).res = s.res := rfl
@[simp] theorem State.setDep_ce (s : State) (d : Deputy) : (s.setDep d).ce = s.ce := rfl
@[simp] theorem State.setDep_win (s : State) (d : Deputy) : (s.setDep d).win = s.win := rfl
@[simp] theorem State.setDep_hl (s : State) (d : Deputy) : (s.setDep d).hl = s.hl := rfl
@[simp] theorem State.setDep_sy (s : State) (d : Deputy) : (s.setDep d).sy = s.sy := rfl
@[simp] theorem State.setDep_mb (s : State) (d : Deputy) : (s.setDep d).mb = s.mb := rfl
@[simp] theorem State.setDep_tr (s : State) (d : Deputy) : (s.setDep d).tr = s.tr := rfl
@[simp] theorem State.setDep_fab (s : State) (d : Deputy) : (s.setDep d).fab = s.fab := rfl
@[simp] theorem State.setDep_dict (s : State) (d : Deputy) : (s.setDep d).dict = s.dict := rfl
@[simp] theorem State.setDep_can (s : State) (d : Deputy) : (s.setDep d).can = s.can := rfl
@[simp] theorem State.setDep_pwr (s : State) (d : Deputy) : (s.setDep d).pwr = s.pwr := rfl
@[simp] theorem State.setDep_straps (s : State) (d : Deputy) : (s.setDep d).straps = s.straps := rfl
@[simp] theorem State.setDep_dbg (s : State) (d : Deputy) : (s.setDep d).dbg = s.dbg := rfl

/-! ### clearEvent -/

@[simp] theorem State.clearEvent_pending (s : State) (n : Nat) : (s.clearEvent n).pending = s.pending := rfl
@[simp] theorem State.clearEvent_free (s : State) (n : Nat) : (s.clearEvent n).free = s.free := rfl
@[simp] theorem State.clearEvent_build (s : State) (n : Nat) : (s.clearEvent n).build = s.build := rfl
@[simp] theorem State.clearEvent_core (s : State) (n : Nat) : (s.clearEvent n).core = s.core := rfl
@[simp] theorem State.clearEvent_wz (s : State) (n : Nat) : (s.clearEvent n).wz = s.wz := rfl
@[simp] theorem State.clearEvent_xl (s : State) (n : Nat) : (s.clearEvent n).xl = s.xl := rfl
@[simp] theorem State.clearEvent_mem (s : State) (n : Nat) : (s.clearEvent n).mem = s.mem := rfl
@[simp] theorem State.clearEvent_ts (s : State) (n : Nat) : (s.clearEvent n).ts = s.ts := rfl
@[simp] theorem State.clearEvent_pf (s : State) (n : Nat) : (s.clearEvent n).pf = s.pf := rfl
@[simp] theorem State.clearEvent_tile (s : State) (n : Nat) : (s.clearEvent n).tile = s.tile := rfl
@[simp] theorem State.clearEvent_jnl (s : State) (n : Nat) : (s.clearEvent n).jnl = s.jnl := rfl
@[simp] theorem State.clearEvent_assay (s : State) (n : Nat) : (s.clearEvent n).assay = s.assay := rfl
@[simp] theorem State.clearEvent_res (s : State) (n : Nat) : (s.clearEvent n).res = s.res := rfl
@[simp] theorem State.clearEvent_dep (s : State) (n : Nat) : (s.clearEvent n).dep = s.dep := rfl
@[simp] theorem State.clearEvent_ce (s : State) (n : Nat) : (s.clearEvent n).ce = s.ce := rfl
@[simp] theorem State.clearEvent_win (s : State) (n : Nat) : (s.clearEvent n).win = s.win := rfl
@[simp] theorem State.clearEvent_hl (s : State) (n : Nat) : (s.clearEvent n).hl = s.hl := rfl
@[simp] theorem State.clearEvent_sy (s : State) (n : Nat) : (s.clearEvent n).sy = s.sy := rfl
@[simp] theorem State.clearEvent_mb (s : State) (n : Nat) : (s.clearEvent n).mb = s.mb := rfl
@[simp] theorem State.clearEvent_tr (s : State) (n : Nat) : (s.clearEvent n).tr = s.tr := rfl
@[simp] theorem State.clearEvent_fab (s : State) (n : Nat) : (s.clearEvent n).fab = s.fab := rfl
@[simp] theorem State.clearEvent_dict (s : State) (n : Nat) : (s.clearEvent n).dict = s.dict := rfl
@[simp] theorem State.clearEvent_can (s : State) (n : Nat) : (s.clearEvent n).can = s.can := rfl
@[simp] theorem State.clearEvent_pwr (s : State) (n : Nat) : (s.clearEvent n).pwr = s.pwr := rfl
@[simp] theorem State.clearEvent_straps (s : State) (n : Nat) : (s.clearEvent n).straps = s.straps := rfl
@[simp] theorem State.clearEvent_dbg (s : State) (n : Nat) : (s.clearEvent n).dbg = s.dbg := rfl

/-! ### tallyAdd -/

@[simp] theorem State.tallyAdd_pending (s : State) (k n : Nat) : (s.tallyAdd k n).pending = s.pending := rfl
@[simp] theorem State.tallyAdd_free (s : State) (k n : Nat) : (s.tallyAdd k n).free = s.free := rfl
@[simp] theorem State.tallyAdd_build (s : State) (k n : Nat) : (s.tallyAdd k n).build = s.build := rfl
@[simp] theorem State.tallyAdd_core (s : State) (k n : Nat) : (s.tallyAdd k n).core = s.core := rfl
@[simp] theorem State.tallyAdd_wz (s : State) (k n : Nat) : (s.tallyAdd k n).wz = s.wz := rfl
@[simp] theorem State.tallyAdd_bm (s : State) (k n : Nat) : (s.tallyAdd k n).bm = s.bm := rfl
@[simp] theorem State.tallyAdd_xl (s : State) (k n : Nat) : (s.tallyAdd k n).xl = s.xl := rfl
@[simp] theorem State.tallyAdd_mem (s : State) (k n : Nat) : (s.tallyAdd k n).mem = s.mem := rfl
@[simp] theorem State.tallyAdd_ts (s : State) (k n : Nat) : (s.tallyAdd k n).ts = s.ts := rfl
@[simp] theorem State.tallyAdd_pf (s : State) (k n : Nat) : (s.tallyAdd k n).pf = s.pf := rfl
@[simp] theorem State.tallyAdd_tile (s : State) (k n : Nat) : (s.tallyAdd k n).tile = s.tile := rfl
@[simp] theorem State.tallyAdd_jnl (s : State) (k n : Nat) : (s.tallyAdd k n).jnl = s.jnl := rfl
@[simp] theorem State.tallyAdd_assay (s : State) (k n : Nat) : (s.tallyAdd k n).assay = s.assay := rfl
@[simp] theorem State.tallyAdd_dep (s : State) (k n : Nat) : (s.tallyAdd k n).dep = s.dep := rfl
@[simp] theorem State.tallyAdd_ce (s : State) (k n : Nat) : (s.tallyAdd k n).ce = s.ce := rfl
@[simp] theorem State.tallyAdd_win (s : State) (k n : Nat) : (s.tallyAdd k n).win = s.win := rfl
@[simp] theorem State.tallyAdd_hl (s : State) (k n : Nat) : (s.tallyAdd k n).hl = s.hl := rfl
@[simp] theorem State.tallyAdd_sy (s : State) (k n : Nat) : (s.tallyAdd k n).sy = s.sy := rfl
@[simp] theorem State.tallyAdd_mb (s : State) (k n : Nat) : (s.tallyAdd k n).mb = s.mb := rfl
@[simp] theorem State.tallyAdd_tr (s : State) (k n : Nat) : (s.tallyAdd k n).tr = s.tr := rfl
@[simp] theorem State.tallyAdd_fab (s : State) (k n : Nat) : (s.tallyAdd k n).fab = s.fab := rfl
@[simp] theorem State.tallyAdd_dict (s : State) (k n : Nat) : (s.tallyAdd k n).dict = s.dict := rfl
@[simp] theorem State.tallyAdd_can (s : State) (k n : Nat) : (s.tallyAdd k n).can = s.can := rfl
@[simp] theorem State.tallyAdd_pwr (s : State) (k n : Nat) : (s.tallyAdd k n).pwr = s.pwr := rfl
@[simp] theorem State.tallyAdd_straps (s : State) (k n : Nat) : (s.tallyAdd k n).straps = s.straps := rfl
@[simp] theorem State.tallyAdd_dbg (s : State) (k n : Nat) : (s.tallyAdd k n).dbg = s.dbg := rfl

/-! ### tallyInc -/

@[simp] theorem State.tallyInc_pending (s : State) (k : Nat) : (s.tallyInc k).pending = s.pending := rfl
@[simp] theorem State.tallyInc_free (s : State) (k : Nat) : (s.tallyInc k).free = s.free := rfl
@[simp] theorem State.tallyInc_build (s : State) (k : Nat) : (s.tallyInc k).build = s.build := rfl
@[simp] theorem State.tallyInc_core (s : State) (k : Nat) : (s.tallyInc k).core = s.core := rfl
@[simp] theorem State.tallyInc_wz (s : State) (k : Nat) : (s.tallyInc k).wz = s.wz := rfl
@[simp] theorem State.tallyInc_bm (s : State) (k : Nat) : (s.tallyInc k).bm = s.bm := rfl
@[simp] theorem State.tallyInc_xl (s : State) (k : Nat) : (s.tallyInc k).xl = s.xl := rfl
@[simp] theorem State.tallyInc_mem (s : State) (k : Nat) : (s.tallyInc k).mem = s.mem := rfl
@[simp] theorem State.tallyInc_ts (s : State) (k : Nat) : (s.tallyInc k).ts = s.ts := rfl
@[simp] theorem State.tallyInc_pf (s : State) (k : Nat) : (s.tallyInc k).pf = s.pf := rfl
@[simp] theorem State.tallyInc_tile (s : State) (k : Nat) : (s.tallyInc k).tile = s.tile := rfl
@[simp] theorem State.tallyInc_jnl (s : State) (k : Nat) : (s.tallyInc k).jnl = s.jnl := rfl
@[simp] theorem State.tallyInc_assay (s : State) (k : Nat) : (s.tallyInc k).assay = s.assay := rfl
@[simp] theorem State.tallyInc_dep (s : State) (k : Nat) : (s.tallyInc k).dep = s.dep := rfl
@[simp] theorem State.tallyInc_ce (s : State) (k : Nat) : (s.tallyInc k).ce = s.ce := rfl
@[simp] theorem State.tallyInc_win (s : State) (k : Nat) : (s.tallyInc k).win = s.win := rfl
@[simp] theorem State.tallyInc_hl (s : State) (k : Nat) : (s.tallyInc k).hl = s.hl := rfl
@[simp] theorem State.tallyInc_sy (s : State) (k : Nat) : (s.tallyInc k).sy = s.sy := rfl
@[simp] theorem State.tallyInc_mb (s : State) (k : Nat) : (s.tallyInc k).mb = s.mb := rfl
@[simp] theorem State.tallyInc_tr (s : State) (k : Nat) : (s.tallyInc k).tr = s.tr := rfl
@[simp] theorem State.tallyInc_fab (s : State) (k : Nat) : (s.tallyInc k).fab = s.fab := rfl
@[simp] theorem State.tallyInc_dict (s : State) (k : Nat) : (s.tallyInc k).dict = s.dict := rfl
@[simp] theorem State.tallyInc_can (s : State) (k : Nat) : (s.tallyInc k).can = s.can := rfl
@[simp] theorem State.tallyInc_pwr (s : State) (k : Nat) : (s.tallyInc k).pwr = s.pwr := rfl
@[simp] theorem State.tallyInc_straps (s : State) (k : Nat) : (s.tallyInc k).straps = s.straps := rfl
@[simp] theorem State.tallyInc_dbg (s : State) (k : Nat) : (s.tallyInc k).dbg = s.dbg := rfl

/-! ### histAdd -/

@[simp] theorem State.histAdd_pending (s : State) (k v : Nat) : (s.histAdd k v).pending = s.pending := rfl
@[simp] theorem State.histAdd_free (s : State) (k v : Nat) : (s.histAdd k v).free = s.free := rfl
@[simp] theorem State.histAdd_build (s : State) (k v : Nat) : (s.histAdd k v).build = s.build := rfl
@[simp] theorem State.histAdd_core (s : State) (k v : Nat) : (s.histAdd k v).core = s.core := rfl
@[simp] theorem State.histAdd_wz (s : State) (k v : Nat) : (s.histAdd k v).wz = s.wz := rfl
@[simp] theorem State.histAdd_bm (s : State) (k v : Nat) : (s.histAdd k v).bm = s.bm := rfl
@[simp] theorem State.histAdd_xl (s : State) (k v : Nat) : (s.histAdd k v).xl = s.xl := rfl
@[simp] theorem State.histAdd_mem (s : State) (k v : Nat) : (s.histAdd k v).mem = s.mem := rfl
@[simp] theorem State.histAdd_ts (s : State) (k v : Nat) : (s.histAdd k v).ts = s.ts := rfl
@[simp] theorem State.histAdd_pf (s : State) (k v : Nat) : (s.histAdd k v).pf = s.pf := rfl
@[simp] theorem State.histAdd_tile (s : State) (k v : Nat) : (s.histAdd k v).tile = s.tile := rfl
@[simp] theorem State.histAdd_jnl (s : State) (k v : Nat) : (s.histAdd k v).jnl = s.jnl := rfl
@[simp] theorem State.histAdd_assay (s : State) (k v : Nat) : (s.histAdd k v).assay = s.assay := rfl
@[simp] theorem State.histAdd_dep (s : State) (k v : Nat) : (s.histAdd k v).dep = s.dep := rfl
@[simp] theorem State.histAdd_ce (s : State) (k v : Nat) : (s.histAdd k v).ce = s.ce := rfl
@[simp] theorem State.histAdd_win (s : State) (k v : Nat) : (s.histAdd k v).win = s.win := rfl
@[simp] theorem State.histAdd_hl (s : State) (k v : Nat) : (s.histAdd k v).hl = s.hl := rfl
@[simp] theorem State.histAdd_sy (s : State) (k v : Nat) : (s.histAdd k v).sy = s.sy := rfl
@[simp] theorem State.histAdd_mb (s : State) (k v : Nat) : (s.histAdd k v).mb = s.mb := rfl
@[simp] theorem State.histAdd_tr (s : State) (k v : Nat) : (s.histAdd k v).tr = s.tr := rfl
@[simp] theorem State.histAdd_fab (s : State) (k v : Nat) : (s.histAdd k v).fab = s.fab := rfl
@[simp] theorem State.histAdd_dict (s : State) (k v : Nat) : (s.histAdd k v).dict = s.dict := rfl
@[simp] theorem State.histAdd_can (s : State) (k v : Nat) : (s.histAdd k v).can = s.can := rfl
@[simp] theorem State.histAdd_pwr (s : State) (k v : Nat) : (s.histAdd k v).pwr = s.pwr := rfl
@[simp] theorem State.histAdd_straps (s : State) (k v : Nat) : (s.histAdd k v).straps = s.straps := rfl
@[simp] theorem State.histAdd_dbg (s : State) (k v : Nat) : (s.histAdd k v).dbg = s.dbg := rfl

/-! ### dropCoreWaiters -/

@[simp] theorem State.dropCoreWaiters_pending (s : State) : s.dropCoreWaiters.pending = s.pending := rfl
@[simp] theorem State.dropCoreWaiters_free (s : State) : s.dropCoreWaiters.free = s.free := rfl
@[simp] theorem State.dropCoreWaiters_build (s : State) : s.dropCoreWaiters.build = s.build := rfl
@[simp] theorem State.dropCoreWaiters_core (s : State) : s.dropCoreWaiters.core = s.core := rfl
@[simp] theorem State.dropCoreWaiters_wz (s : State) : s.dropCoreWaiters.wz = s.wz := rfl
@[simp] theorem State.dropCoreWaiters_bm (s : State) : s.dropCoreWaiters.bm = s.bm := rfl
@[simp] theorem State.dropCoreWaiters_mem (s : State) : s.dropCoreWaiters.mem = s.mem := rfl
@[simp] theorem State.dropCoreWaiters_ts (s : State) : s.dropCoreWaiters.ts = s.ts := rfl
@[simp] theorem State.dropCoreWaiters_pf (s : State) : s.dropCoreWaiters.pf = s.pf := rfl
@[simp] theorem State.dropCoreWaiters_tile (s : State) : s.dropCoreWaiters.tile = s.tile := rfl
@[simp] theorem State.dropCoreWaiters_jnl (s : State) : s.dropCoreWaiters.jnl = s.jnl := rfl
@[simp] theorem State.dropCoreWaiters_assay (s : State) : s.dropCoreWaiters.assay = s.assay := rfl
@[simp] theorem State.dropCoreWaiters_res (s : State) : s.dropCoreWaiters.res = s.res := rfl
@[simp] theorem State.dropCoreWaiters_dep (s : State) : s.dropCoreWaiters.dep = s.dep := rfl
@[simp] theorem State.dropCoreWaiters_ce (s : State) : s.dropCoreWaiters.ce = s.ce := rfl
@[simp] theorem State.dropCoreWaiters_win (s : State) : s.dropCoreWaiters.win = s.win := rfl
@[simp] theorem State.dropCoreWaiters_hl (s : State) : s.dropCoreWaiters.hl = s.hl := rfl
@[simp] theorem State.dropCoreWaiters_sy (s : State) : s.dropCoreWaiters.sy = s.sy := rfl
@[simp] theorem State.dropCoreWaiters_mb (s : State) : s.dropCoreWaiters.mb = s.mb := rfl
@[simp] theorem State.dropCoreWaiters_tr (s : State) : s.dropCoreWaiters.tr = s.tr := rfl
@[simp] theorem State.dropCoreWaiters_fab (s : State) : s.dropCoreWaiters.fab = s.fab := rfl
@[simp] theorem State.dropCoreWaiters_dict (s : State) : s.dropCoreWaiters.dict = s.dict := rfl
@[simp] theorem State.dropCoreWaiters_can (s : State) : s.dropCoreWaiters.can = s.can := rfl
@[simp] theorem State.dropCoreWaiters_pwr (s : State) : s.dropCoreWaiters.pwr = s.pwr := rfl
@[simp] theorem State.dropCoreWaiters_straps (s : State) : s.dropCoreWaiters.straps = s.straps := rfl
@[simp] theorem State.dropCoreWaiters_dbg (s : State) : s.dropCoreWaiters.dbg = s.dbg := rfl

/-! ### hardwire -/

@[simp] theorem hardwire_pending (s t : State) : (hardwire s t).pending = t.pending := rfl
@[simp] theorem hardwire_free (s t : State) : (hardwire s t).free = t.free := rfl
@[simp] theorem hardwire_build (s t : State) : (hardwire s t).build = s.build := rfl
@[simp] theorem hardwire_wz (s t : State) : (hardwire s t).wz = t.wz := rfl
@[simp] theorem hardwire_xl (s t : State) : (hardwire s t).xl = t.xl := rfl
@[simp] theorem hardwire_mem (s t : State) : (hardwire s t).mem = t.mem := rfl
@[simp] theorem hardwire_ts (s t : State) : (hardwire s t).ts = t.ts := rfl
@[simp] theorem hardwire_pf (s t : State) : (hardwire s t).pf = t.pf := rfl
@[simp] theorem hardwire_tile (s t : State) : (hardwire s t).tile = t.tile := rfl
@[simp] theorem hardwire_jnl (s t : State) : (hardwire s t).jnl = t.jnl := rfl
@[simp] theorem hardwire_assay (s t : State) : (hardwire s t).assay = t.assay := rfl
@[simp] theorem hardwire_res (s t : State) : (hardwire s t).res = t.res := rfl
@[simp] theorem hardwire_dep (s t : State) : (hardwire s t).dep = t.dep := rfl
@[simp] theorem hardwire_ce (s t : State) : (hardwire s t).ce = t.ce := rfl
@[simp] theorem hardwire_win (s t : State) : (hardwire s t).win = t.win := rfl
@[simp] theorem hardwire_hl (s t : State) : (hardwire s t).hl = t.hl := rfl
@[simp] theorem hardwire_sy (s t : State) : (hardwire s t).sy = t.sy := rfl
@[simp] theorem hardwire_mb (s t : State) : (hardwire s t).mb = t.mb := rfl
@[simp] theorem hardwire_tr (s t : State) : (hardwire s t).tr = t.tr := rfl
@[simp] theorem hardwire_fab (s t : State) : (hardwire s t).fab = t.fab := rfl
@[simp] theorem hardwire_dict (s t : State) : (hardwire s t).dict = t.dict := rfl
@[simp] theorem hardwire_can (s t : State) : (hardwire s t).can = t.can := rfl
@[simp] theorem hardwire_pwr (s t : State) : (hardwire s t).pwr = t.pwr := rfl
@[simp] theorem hardwire_straps (s t : State) : (hardwire s t).straps = t.straps := rfl
@[simp] theorem hardwire_dbg (s t : State) : (hardwire s t).dbg = t.dbg := rfl
@[simp] theorem hardwire_core_mode (s t : State) : (hardwire s t).core.mode = t.core.mode := rfl
@[simp] theorem hardwire_core_sleeping (s t : State) : (hardwire s t).core.sleeping = t.core.sleeping := rfl
@[simp] theorem hardwire_core_taskRunning (s t : State) : (hardwire s t).core.taskRunning = t.core.taskRunning := rfl
@[simp] theorem hardwire_core_stepGrant (s t : State) : (hardwire s t).core.stepGrant = t.core.stepGrant := rfl
@[simp] theorem hardwire_core_banks (s t : State) : (hardwire s t).core.banks = t.core.banks := rfl
@[simp] theorem hardwire_core_resident (s t : State) : (hardwire s t).core.resident = t.core.resident := rfl
@[simp] theorem hardwire_core_lru (s t : State) : (hardwire s t).core.lru = t.core.lru := rfl
@[simp] theorem hardwire_core_fprm (s t : State) : (hardwire s t).core.fprm = t.core.fprm := rfl
@[simp] theorem hardwire_core_fpstat (s t : State) : (hardwire s t).core.fpstat = t.core.fpstat := rfl
@[simp] theorem hardwire_core_cycle (s t : State) : (hardwire s t).core.cycle = t.core.cycle := rfl
@[simp] theorem hardwire_core_instret (s t : State) : (hardwire s t).core.instret = t.core.instret := rfl
@[simp] theorem hardwire_core_deferred (s t : State) : (hardwire s t).core.deferred = t.core.deferred := rfl
@[simp] theorem hardwire_core_devLoads (s t : State) : (hardwire s t).core.devLoads = t.core.devLoads := rfl
@[simp] theorem hardwire_core_devData (s t : State) : (hardwire s t).core.devData = t.core.devData := rfl
@[simp] theorem hardwire_core_dbgStep (s t : State) : (hardwire s t).core.dbgStep = t.core.dbgStep := rfl
@[simp] theorem hardwire_core_dbgBp (s t : State) : (hardwire s t).core.dbgBp = t.core.dbgBp := rfl
@[simp] theorem hardwire_core_eretShadow (s t : State) : (hardwire s t).core.eretShadow = t.core.eretShadow := rfl
@[simp] theorem hardwire_core_entryWaits (s t : State) : (hardwire s t).core.entryWaits = t.core.entryWaits := rfl
@[simp] theorem hardwire_core_heldFrozen (s t : State) : (hardwire s t).core.heldFrozen = t.core.heldFrozen := rfl
@[simp] theorem hardwire_core_waited (s t : State) : (hardwire s t).core.waited = t.core.waited := rfl
@[simp] theorem hardwire_bm_tsbp (s t : State) : (hardwire s t).bm.tsbp = t.bm.tsbp := rfl
@[simp] theorem hardwire_bm_quant (s t : State) : (hardwire s t).bm.quant = t.bm.quant := rfl
@[simp] theorem hardwire_bm_left (s t : State) : (hardwire s t).bm.left = t.bm.left := rfl
@[simp] theorem hardwire_bm_unlimited (s t : State) : (hardwire s t).bm.unlimited = t.bm.unlimited := rfl
@[simp] theorem hardwire_bm_ready (s t : State) : (hardwire s t).bm.ready = t.bm.ready := rfl
@[simp] theorem hardwire_bm_rlOvf (s t : State) : (hardwire s t).bm.rlOvf = t.bm.rlOvf := rfl
@[simp] theorem hardwire_bm_bound (s t : State) : (hardwire s t).bm.bound = t.bm.bound := rfl
@[simp] theorem hardwire_bm_spill (s t : State) : (hardwire s t).bm.spill = t.bm.spill := rfl
@[simp] theorem hardwire_bm_owner (s t : State) : (hardwire s t).bm.owner = t.bm.owner := rfl
@[simp] theorem hardwire_bm_displaced (s t : State) : (hardwire s t).bm.displaced = t.bm.displaced := rfl

/-! ### The core's registers within an update -/

@[simp] theorem State.setBankOf_core_mode (s : State) (l : Fin 8) (b : Bank) : (s.setBankOf l b).core.mode = s.core.mode := rfl
@[simp] theorem State.setBankOf_core_sleeping (s : State) (l : Fin 8) (b : Bank) : (s.setBankOf l b).core.sleeping = s.core.sleeping := rfl
@[simp] theorem State.setBankOf_core_taskRunning (s : State) (l : Fin 8) (b : Bank) : (s.setBankOf l b).core.taskRunning = s.core.taskRunning := rfl
@[simp] theorem State.setBankOf_core_stepGrant (s : State) (l : Fin 8) (b : Bank) : (s.setBankOf l b).core.stepGrant = s.core.stepGrant := rfl
@[simp] theorem State.setBankOf_core_resident (s : State) (l : Fin 8) (b : Bank) : (s.setBankOf l b).core.resident = s.core.resident := rfl
@[simp] theorem State.setBankOf_core_lru (s : State) (l : Fin 8) (b : Bank) : (s.setBankOf l b).core.lru = s.core.lru := rfl
@[simp] theorem State.setBankOf_core_fprm (s : State) (l : Fin 8) (b : Bank) : (s.setBankOf l b).core.fprm = s.core.fprm := rfl
@[simp] theorem State.setBankOf_core_fpstat (s : State) (l : Fin 8) (b : Bank) : (s.setBankOf l b).core.fpstat = s.core.fpstat := rfl
@[simp] theorem State.setBankOf_core_cycle (s : State) (l : Fin 8) (b : Bank) : (s.setBankOf l b).core.cycle = s.core.cycle := rfl
@[simp] theorem State.setBankOf_core_instret (s : State) (l : Fin 8) (b : Bank) : (s.setBankOf l b).core.instret = s.core.instret := rfl
@[simp] theorem State.setBankOf_core_deferred (s : State) (l : Fin 8) (b : Bank) : (s.setBankOf l b).core.deferred = s.core.deferred := rfl
@[simp] theorem State.setBankOf_core_devLoads (s : State) (l : Fin 8) (b : Bank) : (s.setBankOf l b).core.devLoads = s.core.devLoads := rfl
@[simp] theorem State.setBankOf_core_devData (s : State) (l : Fin 8) (b : Bank) : (s.setBankOf l b).core.devData = s.core.devData := rfl
@[simp] theorem State.setBankOf_core_dbgStep (s : State) (l : Fin 8) (b : Bank) : (s.setBankOf l b).core.dbgStep = s.core.dbgStep := rfl
@[simp] theorem State.setBankOf_core_dbgBp (s : State) (l : Fin 8) (b : Bank) : (s.setBankOf l b).core.dbgBp = s.core.dbgBp := rfl
@[simp] theorem State.setBankOf_core_eretShadow (s : State) (l : Fin 8) (b : Bank) : (s.setBankOf l b).core.eretShadow = s.core.eretShadow := rfl
@[simp] theorem State.setBankOf_core_entryWaits (s : State) (l : Fin 8) (b : Bank) : (s.setBankOf l b).core.entryWaits = s.core.entryWaits := rfl
@[simp] theorem State.setBankOf_core_heldFrozen (s : State) (l : Fin 8) (b : Bank) : (s.setBankOf l b).core.heldFrozen = s.core.heldFrozen := rfl
@[simp] theorem State.setBankOf_core_waited (s : State) (l : Fin 8) (b : Bank) : (s.setBankOf l b).core.waited = s.core.waited := rfl
@[simp] theorem State.setBankOf_core_active (s : State) (l : Fin 8) (b : Bank) : (s.setBankOf l b).core.active = s.core.active := rfl
@[simp] theorem State.setBankOf_lvl (s : State) (l : Fin 8) (b : Bank) : (s.setBankOf l b).lvl = s.lvl := rfl
@[simp] theorem State.setBank_core_mode (s : State) (b : Bank) : (s.setBank b).core.mode = s.core.mode := rfl
@[simp] theorem State.setBank_core_sleeping (s : State) (b : Bank) : (s.setBank b).core.sleeping = s.core.sleeping := rfl
@[simp] theorem State.setBank_core_taskRunning (s : State) (b : Bank) : (s.setBank b).core.taskRunning = s.core.taskRunning := rfl
@[simp] theorem State.setBank_core_stepGrant (s : State) (b : Bank) : (s.setBank b).core.stepGrant = s.core.stepGrant := rfl
@[simp] theorem State.setBank_core_resident (s : State) (b : Bank) : (s.setBank b).core.resident = s.core.resident := rfl
@[simp] theorem State.setBank_core_lru (s : State) (b : Bank) : (s.setBank b).core.lru = s.core.lru := rfl
@[simp] theorem State.setBank_core_fprm (s : State) (b : Bank) : (s.setBank b).core.fprm = s.core.fprm := rfl
@[simp] theorem State.setBank_core_fpstat (s : State) (b : Bank) : (s.setBank b).core.fpstat = s.core.fpstat := rfl
@[simp] theorem State.setBank_core_cycle (s : State) (b : Bank) : (s.setBank b).core.cycle = s.core.cycle := rfl
@[simp] theorem State.setBank_core_instret (s : State) (b : Bank) : (s.setBank b).core.instret = s.core.instret := rfl
@[simp] theorem State.setBank_core_deferred (s : State) (b : Bank) : (s.setBank b).core.deferred = s.core.deferred := rfl
@[simp] theorem State.setBank_core_devLoads (s : State) (b : Bank) : (s.setBank b).core.devLoads = s.core.devLoads := rfl
@[simp] theorem State.setBank_core_devData (s : State) (b : Bank) : (s.setBank b).core.devData = s.core.devData := rfl
@[simp] theorem State.setBank_core_dbgStep (s : State) (b : Bank) : (s.setBank b).core.dbgStep = s.core.dbgStep := rfl
@[simp] theorem State.setBank_core_dbgBp (s : State) (b : Bank) : (s.setBank b).core.dbgBp = s.core.dbgBp := rfl
@[simp] theorem State.setBank_core_eretShadow (s : State) (b : Bank) : (s.setBank b).core.eretShadow = s.core.eretShadow := rfl
@[simp] theorem State.setBank_core_entryWaits (s : State) (b : Bank) : (s.setBank b).core.entryWaits = s.core.entryWaits := rfl
@[simp] theorem State.setBank_core_heldFrozen (s : State) (b : Bank) : (s.setBank b).core.heldFrozen = s.core.heldFrozen := rfl
@[simp] theorem State.setBank_core_waited (s : State) (b : Bank) : (s.setBank b).core.waited = s.core.waited := rfl
@[simp] theorem State.setBank_core_active (s : State) (b : Bank) : (s.setBank b).core.active = s.core.active := rfl
@[simp] theorem State.setBank_lvl (s : State) (b : Bank) : (s.setBank b).lvl = s.lvl := rfl
@[simp] theorem State.writeG_core_mode (s : State) (r : RegIx) (v : Word) : (s.writeG r v).core.mode = s.core.mode := rfl
@[simp] theorem State.writeG_core_sleeping (s : State) (r : RegIx) (v : Word) : (s.writeG r v).core.sleeping = s.core.sleeping := rfl
@[simp] theorem State.writeG_core_taskRunning (s : State) (r : RegIx) (v : Word) : (s.writeG r v).core.taskRunning = s.core.taskRunning := rfl
@[simp] theorem State.writeG_core_stepGrant (s : State) (r : RegIx) (v : Word) : (s.writeG r v).core.stepGrant = s.core.stepGrant := rfl
@[simp] theorem State.writeG_core_resident (s : State) (r : RegIx) (v : Word) : (s.writeG r v).core.resident = s.core.resident := rfl
@[simp] theorem State.writeG_core_lru (s : State) (r : RegIx) (v : Word) : (s.writeG r v).core.lru = s.core.lru := rfl
@[simp] theorem State.writeG_core_fprm (s : State) (r : RegIx) (v : Word) : (s.writeG r v).core.fprm = s.core.fprm := rfl
@[simp] theorem State.writeG_core_fpstat (s : State) (r : RegIx) (v : Word) : (s.writeG r v).core.fpstat = s.core.fpstat := rfl
@[simp] theorem State.writeG_core_cycle (s : State) (r : RegIx) (v : Word) : (s.writeG r v).core.cycle = s.core.cycle := rfl
@[simp] theorem State.writeG_core_instret (s : State) (r : RegIx) (v : Word) : (s.writeG r v).core.instret = s.core.instret := rfl
@[simp] theorem State.writeG_core_deferred (s : State) (r : RegIx) (v : Word) : (s.writeG r v).core.deferred = s.core.deferred := rfl
@[simp] theorem State.writeG_core_devLoads (s : State) (r : RegIx) (v : Word) : (s.writeG r v).core.devLoads = s.core.devLoads := rfl
@[simp] theorem State.writeG_core_devData (s : State) (r : RegIx) (v : Word) : (s.writeG r v).core.devData = s.core.devData := rfl
@[simp] theorem State.writeG_core_dbgStep (s : State) (r : RegIx) (v : Word) : (s.writeG r v).core.dbgStep = s.core.dbgStep := rfl
@[simp] theorem State.writeG_core_dbgBp (s : State) (r : RegIx) (v : Word) : (s.writeG r v).core.dbgBp = s.core.dbgBp := rfl
@[simp] theorem State.writeG_core_eretShadow (s : State) (r : RegIx) (v : Word) : (s.writeG r v).core.eretShadow = s.core.eretShadow := rfl
@[simp] theorem State.writeG_core_entryWaits (s : State) (r : RegIx) (v : Word) : (s.writeG r v).core.entryWaits = s.core.entryWaits := rfl
@[simp] theorem State.writeG_core_heldFrozen (s : State) (r : RegIx) (v : Word) : (s.writeG r v).core.heldFrozen = s.core.heldFrozen := rfl
@[simp] theorem State.writeG_core_waited (s : State) (r : RegIx) (v : Word) : (s.writeG r v).core.waited = s.core.waited := rfl
@[simp] theorem State.writeG_core_active (s : State) (r : RegIx) (v : Word) : (s.writeG r v).core.active = s.core.active := rfl
@[simp] theorem State.writeG_lvl (s : State) (r : RegIx) (v : Word) : (s.writeG r v).lvl = s.lvl := rfl
@[simp] theorem State.setSp_core_mode (s : State) (v : Word) : (s.setSp v).core.mode = s.core.mode := rfl
@[simp] theorem State.setSp_core_sleeping (s : State) (v : Word) : (s.setSp v).core.sleeping = s.core.sleeping := rfl
@[simp] theorem State.setSp_core_taskRunning (s : State) (v : Word) : (s.setSp v).core.taskRunning = s.core.taskRunning := rfl
@[simp] theorem State.setSp_core_stepGrant (s : State) (v : Word) : (s.setSp v).core.stepGrant = s.core.stepGrant := rfl
@[simp] theorem State.setSp_core_resident (s : State) (v : Word) : (s.setSp v).core.resident = s.core.resident := rfl
@[simp] theorem State.setSp_core_lru (s : State) (v : Word) : (s.setSp v).core.lru = s.core.lru := rfl
@[simp] theorem State.setSp_core_fprm (s : State) (v : Word) : (s.setSp v).core.fprm = s.core.fprm := rfl
@[simp] theorem State.setSp_core_fpstat (s : State) (v : Word) : (s.setSp v).core.fpstat = s.core.fpstat := rfl
@[simp] theorem State.setSp_core_cycle (s : State) (v : Word) : (s.setSp v).core.cycle = s.core.cycle := rfl
@[simp] theorem State.setSp_core_instret (s : State) (v : Word) : (s.setSp v).core.instret = s.core.instret := rfl
@[simp] theorem State.setSp_core_deferred (s : State) (v : Word) : (s.setSp v).core.deferred = s.core.deferred := rfl
@[simp] theorem State.setSp_core_devLoads (s : State) (v : Word) : (s.setSp v).core.devLoads = s.core.devLoads := rfl
@[simp] theorem State.setSp_core_devData (s : State) (v : Word) : (s.setSp v).core.devData = s.core.devData := rfl
@[simp] theorem State.setSp_core_dbgStep (s : State) (v : Word) : (s.setSp v).core.dbgStep = s.core.dbgStep := rfl
@[simp] theorem State.setSp_core_dbgBp (s : State) (v : Word) : (s.setSp v).core.dbgBp = s.core.dbgBp := rfl
@[simp] theorem State.setSp_core_eretShadow (s : State) (v : Word) : (s.setSp v).core.eretShadow = s.core.eretShadow := rfl
@[simp] theorem State.setSp_core_entryWaits (s : State) (v : Word) : (s.setSp v).core.entryWaits = s.core.entryWaits := rfl
@[simp] theorem State.setSp_core_heldFrozen (s : State) (v : Word) : (s.setSp v).core.heldFrozen = s.core.heldFrozen := rfl
@[simp] theorem State.setSp_core_waited (s : State) (v : Word) : (s.setSp v).core.waited = s.core.waited := rfl
@[simp] theorem State.setSp_core_active (s : State) (v : Word) : (s.setSp v).core.active = s.core.active := rfl
@[simp] theorem State.setSp_lvl (s : State) (v : Word) : (s.setSp v).lvl = s.lvl := rfl
@[simp] theorem State.setFl_core_mode (s : State) (f : Flags) : (s.setFl f).core.mode = s.core.mode := rfl
@[simp] theorem State.setFl_core_sleeping (s : State) (f : Flags) : (s.setFl f).core.sleeping = s.core.sleeping := rfl
@[simp] theorem State.setFl_core_taskRunning (s : State) (f : Flags) : (s.setFl f).core.taskRunning = s.core.taskRunning := rfl
@[simp] theorem State.setFl_core_stepGrant (s : State) (f : Flags) : (s.setFl f).core.stepGrant = s.core.stepGrant := rfl
@[simp] theorem State.setFl_core_resident (s : State) (f : Flags) : (s.setFl f).core.resident = s.core.resident := rfl
@[simp] theorem State.setFl_core_lru (s : State) (f : Flags) : (s.setFl f).core.lru = s.core.lru := rfl
@[simp] theorem State.setFl_core_fprm (s : State) (f : Flags) : (s.setFl f).core.fprm = s.core.fprm := rfl
@[simp] theorem State.setFl_core_fpstat (s : State) (f : Flags) : (s.setFl f).core.fpstat = s.core.fpstat := rfl
@[simp] theorem State.setFl_core_cycle (s : State) (f : Flags) : (s.setFl f).core.cycle = s.core.cycle := rfl
@[simp] theorem State.setFl_core_instret (s : State) (f : Flags) : (s.setFl f).core.instret = s.core.instret := rfl
@[simp] theorem State.setFl_core_deferred (s : State) (f : Flags) : (s.setFl f).core.deferred = s.core.deferred := rfl
@[simp] theorem State.setFl_core_devLoads (s : State) (f : Flags) : (s.setFl f).core.devLoads = s.core.devLoads := rfl
@[simp] theorem State.setFl_core_devData (s : State) (f : Flags) : (s.setFl f).core.devData = s.core.devData := rfl
@[simp] theorem State.setFl_core_dbgStep (s : State) (f : Flags) : (s.setFl f).core.dbgStep = s.core.dbgStep := rfl
@[simp] theorem State.setFl_core_dbgBp (s : State) (f : Flags) : (s.setFl f).core.dbgBp = s.core.dbgBp := rfl
@[simp] theorem State.setFl_core_eretShadow (s : State) (f : Flags) : (s.setFl f).core.eretShadow = s.core.eretShadow := rfl
@[simp] theorem State.setFl_core_entryWaits (s : State) (f : Flags) : (s.setFl f).core.entryWaits = s.core.entryWaits := rfl
@[simp] theorem State.setFl_core_heldFrozen (s : State) (f : Flags) : (s.setFl f).core.heldFrozen = s.core.heldFrozen := rfl
@[simp] theorem State.setFl_core_waited (s : State) (f : Flags) : (s.setFl f).core.waited = s.core.waited := rfl
@[simp] theorem State.setFl_core_active (s : State) (f : Flags) : (s.setFl f).core.active = s.core.active := rfl
@[simp] theorem State.setFl_lvl (s : State) (f : Flags) : (s.setFl f).lvl = s.lvl := rfl
@[simp] theorem State.setPc_core_mode (s : State) (v : Word) : (s.setPc v).core.mode = s.core.mode := rfl
@[simp] theorem State.setPc_core_sleeping (s : State) (v : Word) : (s.setPc v).core.sleeping = s.core.sleeping := rfl
@[simp] theorem State.setPc_core_taskRunning (s : State) (v : Word) : (s.setPc v).core.taskRunning = s.core.taskRunning := rfl
@[simp] theorem State.setPc_core_stepGrant (s : State) (v : Word) : (s.setPc v).core.stepGrant = s.core.stepGrant := rfl
@[simp] theorem State.setPc_core_resident (s : State) (v : Word) : (s.setPc v).core.resident = s.core.resident := rfl
@[simp] theorem State.setPc_core_lru (s : State) (v : Word) : (s.setPc v).core.lru = s.core.lru := rfl
@[simp] theorem State.setPc_core_fprm (s : State) (v : Word) : (s.setPc v).core.fprm = s.core.fprm := rfl
@[simp] theorem State.setPc_core_fpstat (s : State) (v : Word) : (s.setPc v).core.fpstat = s.core.fpstat := rfl
@[simp] theorem State.setPc_core_cycle (s : State) (v : Word) : (s.setPc v).core.cycle = s.core.cycle := rfl
@[simp] theorem State.setPc_core_instret (s : State) (v : Word) : (s.setPc v).core.instret = s.core.instret := rfl
@[simp] theorem State.setPc_core_deferred (s : State) (v : Word) : (s.setPc v).core.deferred = s.core.deferred := rfl
@[simp] theorem State.setPc_core_devLoads (s : State) (v : Word) : (s.setPc v).core.devLoads = s.core.devLoads := rfl
@[simp] theorem State.setPc_core_devData (s : State) (v : Word) : (s.setPc v).core.devData = s.core.devData := rfl
@[simp] theorem State.setPc_core_dbgStep (s : State) (v : Word) : (s.setPc v).core.dbgStep = s.core.dbgStep := rfl
@[simp] theorem State.setPc_core_dbgBp (s : State) (v : Word) : (s.setPc v).core.dbgBp = s.core.dbgBp := rfl
@[simp] theorem State.setPc_core_eretShadow (s : State) (v : Word) : (s.setPc v).core.eretShadow = s.core.eretShadow := rfl
@[simp] theorem State.setPc_core_entryWaits (s : State) (v : Word) : (s.setPc v).core.entryWaits = s.core.entryWaits := rfl
@[simp] theorem State.setPc_core_heldFrozen (s : State) (v : Word) : (s.setPc v).core.heldFrozen = s.core.heldFrozen := rfl
@[simp] theorem State.setPc_core_waited (s : State) (v : Word) : (s.setPc v).core.waited = s.core.waited := rfl
@[simp] theorem State.setPc_core_active (s : State) (v : Word) : (s.setPc v).core.active = s.core.active := rfl
@[simp] theorem State.setPc_lvl (s : State) (v : Word) : (s.setPc v).lvl = s.lvl := rfl

/-! ### Banks -/

/-- The bank just replaced. -/
@[simp] theorem State.bankOf_setBankOf_self (s : State) (l : Fin 8) (b : Bank) : (s.setBankOf l b).bankOf l = b := by
  simp [State.setBankOf, State.bankOf]

/-- Every other level's bank. -/
theorem State.bankOf_setBankOf_ne (s : State) {k l : Fin 8} (b : Bank) (h : k ≠ l) :
    (s.setBankOf l b).bankOf k = s.bankOf k := by
  have : l.val ≠ k.val := fun e => h (Fin.ext e.symm)
  simp [State.setBankOf, State.bankOf, Vector.getElem_set_ne, this]

/-- The current bank just replaced. -/
@[simp] theorem State.bank_setBank (s : State) (b : Bank) : (s.setBank b).bank = b := by
  rw [State.bank, State.setBank_lvl]; exact State.bankOf_setBankOf_self s s.lvl b

/-- Only the last of two replacements of a bank counts. -/
@[simp] theorem State.setBankOf_setBankOf (s : State) (l : Fin 8) (b c : Bank) :
    (s.setBankOf l b).setBankOf l c = s.setBankOf l c := by
  simp [State.setBankOf, Vector.set_set]

/-- Only the last of two replacements of the current bank counts. -/
@[simp] theorem State.setBank_setBank (s : State) (b c : Bank) : (s.setBank b).setBank c = s.setBank c :=
  State.setBankOf_setBankOf s s.lvl b c

/-- A bank put back where it was changes nothing. -/
@[simp] theorem State.setBank_bank (s : State) : s.setBank s.bank = s := by
  simp [State.setBank, State.bank, State.setBankOf, State.bankOf]

@[simp] theorem Bank.writeG_sp (b : Bank) (r : RegIx) (v : Word) : (b.writeG r v).sp = b.sp := by
  unfold Bank.writeG; split <;> rfl
@[simp] theorem State.writeG_bank_sp (s : State) (r : RegIx) (v : Word) : (s.writeG r v).bank.sp = s.bank.sp := by
  simp [State.writeG]
@[simp] theorem Bank.writeG_fl (b : Bank) (r : RegIx) (v : Word) : (b.writeG r v).fl = b.fl := by
  unfold Bank.writeG; split <;> rfl
@[simp] theorem State.writeG_bank_fl (s : State) (r : RegIx) (v : Word) : (s.writeG r v).bank.fl = s.bank.fl := by
  simp [State.writeG]
@[simp] theorem Bank.writeG_pc (b : Bank) (r : RegIx) (v : Word) : (b.writeG r v).pc = b.pc := by
  unfold Bank.writeG; split <;> rfl
@[simp] theorem State.writeG_bank_pc (s : State) (r : RegIx) (v : Word) : (s.writeG r v).bank.pc = s.bank.pc := by
  simp [State.writeG]
@[simp] theorem Bank.writeG_lc (b : Bank) (r : RegIx) (v : Word) : (b.writeG r v).lc = b.lc := by
  unfold Bank.writeG; split <;> rfl
@[simp] theorem State.writeG_bank_lc (s : State) (r : RegIx) (v : Word) : (s.writeG r v).bank.lc = s.bank.lc := by
  simp [State.writeG]
@[simp] theorem Bank.writeG_lb (b : Bank) (r : RegIx) (v : Word) : (b.writeG r v).lb = b.lb := by
  unfold Bank.writeG; split <;> rfl
@[simp] theorem State.writeG_bank_lb (s : State) (r : RegIx) (v : Word) : (s.writeG r v).bank.lb = s.bank.lb := by
  simp [State.writeG]
@[simp] theorem Bank.writeG_le (b : Bank) (r : RegIx) (v : Word) : (b.writeG r v).le = b.le := by
  unfold Bank.writeG; split <;> rfl
@[simp] theorem State.writeG_bank_le (s : State) (r : RegIx) (v : Word) : (s.writeG r v).bank.le = s.bank.le := by
  simp [State.writeG]
@[simp] theorem Bank.writeG_epc (b : Bank) (r : RegIx) (v : Word) : (b.writeG r v).epc = b.epc := by
  unfold Bank.writeG; split <;> rfl
@[simp] theorem State.writeG_bank_epc (s : State) (r : RegIx) (v : Word) : (s.writeG r v).bank.epc = s.bank.epc := by
  simp [State.writeG]
@[simp] theorem Bank.writeG_ecause (b : Bank) (r : RegIx) (v : Word) : (b.writeG r v).ecause = b.ecause := by
  unfold Bank.writeG; split <;> rfl
@[simp] theorem State.writeG_bank_ecause (s : State) (r : RegIx) (v : Word) : (s.writeG r v).bank.ecause = s.bank.ecause := by
  simp [State.writeG]
@[simp] theorem Bank.writeG_eaddr (b : Bank) (r : RegIx) (v : Word) : (b.writeG r v).eaddr = b.eaddr := by
  unfold Bank.writeG; split <;> rfl
@[simp] theorem State.writeG_bank_eaddr (s : State) (r : RegIx) (v : Word) : (s.writeG r v).bank.eaddr = s.bank.eaddr := by
  simp [State.writeG]
@[simp] theorem Bank.writeG_einfo (b : Bank) (r : RegIx) (v : Word) : (b.writeG r v).einfo = b.einfo := by
  unfold Bank.writeG; split <;> rfl
@[simp] theorem State.writeG_bank_einfo (s : State) (r : RegIx) (v : Word) : (s.writeG r v).bank.einfo = s.bank.einfo := by
  simp [State.writeG]
@[simp] theorem Bank.writeG_esave (b : Bank) (r : RegIx) (v : Word) : (b.writeG r v).esave = b.esave := by
  unfold Bank.writeG; split <;> rfl
@[simp] theorem State.writeG_bank_esave (s : State) (r : RegIx) (v : Word) : (s.writeG r v).bank.esave = s.bank.esave := by
  simp [State.writeG]
@[simp] theorem Bank.writeG_ppriv (b : Bank) (r : RegIx) (v : Word) : (b.writeG r v).ppriv = b.ppriv := by
  unfold Bank.writeG; split <;> rfl
@[simp] theorem State.writeG_bank_ppriv (s : State) (r : RegIx) (v : Word) : (s.writeG r v).bank.ppriv = s.bank.ppriv := by
  simp [State.writeG]
@[simp] theorem Bank.writeG_priv (b : Bank) (r : RegIx) (v : Word) : (b.writeG r v).priv = b.priv := by
  unfold Bank.writeG; split <;> rfl
@[simp] theorem State.writeG_bank_priv (s : State) (r : RegIx) (v : Word) : (s.writeG r v).bank.priv = s.bank.priv := by
  simp [State.writeG]
@[simp] theorem Bank.writeG_vswe (b : Bank) (r : RegIx) (v : Word) : (b.writeG r v).vswe = b.vswe := by
  unfold Bank.writeG; split <;> rfl
@[simp] theorem State.writeG_bank_vswe (s : State) (r : RegIx) (v : Word) : (s.writeG r v).bank.vswe = s.bank.vswe := by
  simp [State.writeG]
@[simp] theorem Bank.writeG_excm (b : Bank) (r : RegIx) (v : Word) : (b.writeG r v).excm = b.excm := by
  unfold Bank.writeG; split <;> rfl
@[simp] theorem State.writeG_bank_excm (s : State) (r : RegIx) (v : Word) : (s.writeG r v).bank.excm = s.bank.excm := by
  simp [State.writeG]
@[simp] theorem Bank.writeG_ml (b : Bank) (r : RegIx) (v : Word) : (b.writeG r v).ml = b.ml := by
  unfold Bank.writeG; split <;> rfl
@[simp] theorem State.writeG_bank_ml (s : State) (r : RegIx) (v : Word) : (s.writeG r v).bank.ml = s.bank.ml := by
  simp [State.writeG]
@[simp] theorem Bank.writeG_evnum (b : Bank) (r : RegIx) (v : Word) : (b.writeG r v).evnum = b.evnum := by
  unfold Bank.writeG; split <;> rfl
@[simp] theorem State.writeG_bank_evnum (s : State) (r : RegIx) (v : Word) : (s.writeG r v).bank.evnum = s.bank.evnum := by
  simp [State.writeG]
@[simp] theorem Bank.writeG_lzres (b : Bank) (r : RegIx) (v : Word) : (b.writeG r v).lzres = b.lzres := by
  unfold Bank.writeG; split <;> rfl
@[simp] theorem State.writeG_bank_lzres (s : State) (r : RegIx) (v : Word) : (s.writeG r v).bank.lzres = s.bank.lzres := by
  simp [State.writeG]
@[simp] theorem Bank.writeG_lzfill (b : Bank) (r : RegIx) (v : Word) : (b.writeG r v).lzfill = b.lzfill := by
  unfold Bank.writeG; split <;> rfl
@[simp] theorem State.writeG_bank_lzfill (s : State) (r : RegIx) (v : Word) : (s.writeG r v).bank.lzfill = s.bank.lzfill := by
  simp [State.writeG]
@[simp] theorem Bank.writeG_lzsp (b : Bank) (r : RegIx) (v : Word) : (b.writeG r v).lzsp = b.lzsp := by
  unfold Bank.writeG; split <;> rfl
@[simp] theorem State.writeG_bank_lzsp (s : State) (r : RegIx) (v : Word) : (s.writeG r v).bank.lzsp = s.bank.lzsp := by
  simp [State.writeG]
@[simp] theorem Bank.writeG_subpri (b : Bank) (r : RegIx) (v : Word) : (b.writeG r v).subpri = b.subpri := by
  unfold Bank.writeG; split <;> rfl
@[simp] theorem State.writeG_bank_subpri (s : State) (r : RegIx) (v : Word) : (s.writeG r v).bank.subpri = s.bank.subpri := by
  simp [State.writeG]
@[simp] theorem State.setSp_bank_g (s : State) (v : Word) : (s.setSp v).bank.g = s.bank.g := by
  simp [State.setSp]
@[simp] theorem State.setSp_bank_sp (s : State) (v : Word) : (s.setSp v).bank.sp = v := by
  simp [State.setSp]
@[simp] theorem State.setSp_bank_fl (s : State) (v : Word) : (s.setSp v).bank.fl = s.bank.fl := by
  simp [State.setSp]
@[simp] theorem State.setSp_bank_pc (s : State) (v : Word) : (s.setSp v).bank.pc = s.bank.pc := by
  simp [State.setSp]
@[simp] theorem State.setSp_bank_lc (s : State) (v : Word) : (s.setSp v).bank.lc = s.bank.lc := by
  simp [State.setSp]
@[simp] theorem State.setSp_bank_lb (s : State) (v : Word) : (s.setSp v).bank.lb = s.bank.lb := by
  simp [State.setSp]
@[simp] theorem State.setSp_bank_le (s : State) (v : Word) : (s.setSp v).bank.le = s.bank.le := by
  simp [State.setSp]
@[simp] theorem State.setSp_bank_epc (s : State) (v : Word) : (s.setSp v).bank.epc = s.bank.epc := by
  simp [State.setSp]
@[simp] theorem State.setSp_bank_ecause (s : State) (v : Word) : (s.setSp v).bank.ecause = s.bank.ecause := by
  simp [State.setSp]
@[simp] theorem State.setSp_bank_eaddr (s : State) (v : Word) : (s.setSp v).bank.eaddr = s.bank.eaddr := by
  simp [State.setSp]
@[simp] theorem State.setSp_bank_einfo (s : State) (v : Word) : (s.setSp v).bank.einfo = s.bank.einfo := by
  simp [State.setSp]
@[simp] theorem State.setSp_bank_esave (s : State) (v : Word) : (s.setSp v).bank.esave = s.bank.esave := by
  simp [State.setSp]
@[simp] theorem State.setSp_bank_ppriv (s : State) (v : Word) : (s.setSp v).bank.ppriv = s.bank.ppriv := by
  simp [State.setSp]
@[simp] theorem State.setSp_bank_priv (s : State) (v : Word) : (s.setSp v).bank.priv = s.bank.priv := by
  simp [State.setSp]
@[simp] theorem State.setSp_bank_vswe (s : State) (v : Word) : (s.setSp v).bank.vswe = s.bank.vswe := by
  simp [State.setSp]
@[simp] theorem State.setSp_bank_excm (s : State) (v : Word) : (s.setSp v).bank.excm = s.bank.excm := by
  simp [State.setSp]
@[simp] theorem State.setSp_bank_ml (s : State) (v : Word) : (s.setSp v).bank.ml = s.bank.ml := by
  simp [State.setSp]
@[simp] theorem State.setSp_bank_evnum (s : State) (v : Word) : (s.setSp v).bank.evnum = s.bank.evnum := by
  simp [State.setSp]
@[simp] theorem State.setSp_bank_lzres (s : State) (v : Word) : (s.setSp v).bank.lzres = s.bank.lzres := by
  simp [State.setSp]
@[simp] theorem State.setSp_bank_lzfill (s : State) (v : Word) : (s.setSp v).bank.lzfill = s.bank.lzfill := by
  simp [State.setSp]
@[simp] theorem State.setSp_bank_lzsp (s : State) (v : Word) : (s.setSp v).bank.lzsp = s.bank.lzsp := by
  simp [State.setSp]
@[simp] theorem State.setSp_bank_subpri (s : State) (v : Word) : (s.setSp v).bank.subpri = s.bank.subpri := by
  simp [State.setSp]
@[simp] theorem State.setSp_readG (s : State) (v : Word) (r : RegIx) : (s.setSp v).readG r = s.readG r := by
  simp [State.readG, Bank.readG, State.setSp]
@[simp] theorem State.setFl_bank_g (s : State) (v : Flags) : (s.setFl v).bank.g = s.bank.g := by
  simp [State.setFl]
@[simp] theorem State.setFl_bank_sp (s : State) (v : Flags) : (s.setFl v).bank.sp = s.bank.sp := by
  simp [State.setFl]
@[simp] theorem State.setFl_bank_fl (s : State) (v : Flags) : (s.setFl v).bank.fl = v := by
  simp [State.setFl]
@[simp] theorem State.setFl_bank_pc (s : State) (v : Flags) : (s.setFl v).bank.pc = s.bank.pc := by
  simp [State.setFl]
@[simp] theorem State.setFl_bank_lc (s : State) (v : Flags) : (s.setFl v).bank.lc = s.bank.lc := by
  simp [State.setFl]
@[simp] theorem State.setFl_bank_lb (s : State) (v : Flags) : (s.setFl v).bank.lb = s.bank.lb := by
  simp [State.setFl]
@[simp] theorem State.setFl_bank_le (s : State) (v : Flags) : (s.setFl v).bank.le = s.bank.le := by
  simp [State.setFl]
@[simp] theorem State.setFl_bank_epc (s : State) (v : Flags) : (s.setFl v).bank.epc = s.bank.epc := by
  simp [State.setFl]
@[simp] theorem State.setFl_bank_ecause (s : State) (v : Flags) : (s.setFl v).bank.ecause = s.bank.ecause := by
  simp [State.setFl]
@[simp] theorem State.setFl_bank_eaddr (s : State) (v : Flags) : (s.setFl v).bank.eaddr = s.bank.eaddr := by
  simp [State.setFl]
@[simp] theorem State.setFl_bank_einfo (s : State) (v : Flags) : (s.setFl v).bank.einfo = s.bank.einfo := by
  simp [State.setFl]
@[simp] theorem State.setFl_bank_esave (s : State) (v : Flags) : (s.setFl v).bank.esave = s.bank.esave := by
  simp [State.setFl]
@[simp] theorem State.setFl_bank_ppriv (s : State) (v : Flags) : (s.setFl v).bank.ppriv = s.bank.ppriv := by
  simp [State.setFl]
@[simp] theorem State.setFl_bank_priv (s : State) (v : Flags) : (s.setFl v).bank.priv = s.bank.priv := by
  simp [State.setFl]
@[simp] theorem State.setFl_bank_vswe (s : State) (v : Flags) : (s.setFl v).bank.vswe = s.bank.vswe := by
  simp [State.setFl]
@[simp] theorem State.setFl_bank_excm (s : State) (v : Flags) : (s.setFl v).bank.excm = s.bank.excm := by
  simp [State.setFl]
@[simp] theorem State.setFl_bank_ml (s : State) (v : Flags) : (s.setFl v).bank.ml = s.bank.ml := by
  simp [State.setFl]
@[simp] theorem State.setFl_bank_evnum (s : State) (v : Flags) : (s.setFl v).bank.evnum = s.bank.evnum := by
  simp [State.setFl]
@[simp] theorem State.setFl_bank_lzres (s : State) (v : Flags) : (s.setFl v).bank.lzres = s.bank.lzres := by
  simp [State.setFl]
@[simp] theorem State.setFl_bank_lzfill (s : State) (v : Flags) : (s.setFl v).bank.lzfill = s.bank.lzfill := by
  simp [State.setFl]
@[simp] theorem State.setFl_bank_lzsp (s : State) (v : Flags) : (s.setFl v).bank.lzsp = s.bank.lzsp := by
  simp [State.setFl]
@[simp] theorem State.setFl_bank_subpri (s : State) (v : Flags) : (s.setFl v).bank.subpri = s.bank.subpri := by
  simp [State.setFl]
@[simp] theorem State.setFl_readG (s : State) (v : Flags) (r : RegIx) : (s.setFl v).readG r = s.readG r := by
  simp [State.readG, Bank.readG, State.setFl]
@[simp] theorem State.setPc_bank_g (s : State) (v : Word) : (s.setPc v).bank.g = s.bank.g := by
  simp [State.setPc]
@[simp] theorem State.setPc_bank_sp (s : State) (v : Word) : (s.setPc v).bank.sp = s.bank.sp := by
  simp [State.setPc]
@[simp] theorem State.setPc_bank_fl (s : State) (v : Word) : (s.setPc v).bank.fl = s.bank.fl := by
  simp [State.setPc]
@[simp] theorem State.setPc_bank_pc (s : State) (v : Word) : (s.setPc v).bank.pc = v := by
  simp [State.setPc]
@[simp] theorem State.setPc_bank_lc (s : State) (v : Word) : (s.setPc v).bank.lc = s.bank.lc := by
  simp [State.setPc]
@[simp] theorem State.setPc_bank_lb (s : State) (v : Word) : (s.setPc v).bank.lb = s.bank.lb := by
  simp [State.setPc]
@[simp] theorem State.setPc_bank_le (s : State) (v : Word) : (s.setPc v).bank.le = s.bank.le := by
  simp [State.setPc]
@[simp] theorem State.setPc_bank_epc (s : State) (v : Word) : (s.setPc v).bank.epc = s.bank.epc := by
  simp [State.setPc]
@[simp] theorem State.setPc_bank_ecause (s : State) (v : Word) : (s.setPc v).bank.ecause = s.bank.ecause := by
  simp [State.setPc]
@[simp] theorem State.setPc_bank_eaddr (s : State) (v : Word) : (s.setPc v).bank.eaddr = s.bank.eaddr := by
  simp [State.setPc]
@[simp] theorem State.setPc_bank_einfo (s : State) (v : Word) : (s.setPc v).bank.einfo = s.bank.einfo := by
  simp [State.setPc]
@[simp] theorem State.setPc_bank_esave (s : State) (v : Word) : (s.setPc v).bank.esave = s.bank.esave := by
  simp [State.setPc]
@[simp] theorem State.setPc_bank_ppriv (s : State) (v : Word) : (s.setPc v).bank.ppriv = s.bank.ppriv := by
  simp [State.setPc]
@[simp] theorem State.setPc_bank_priv (s : State) (v : Word) : (s.setPc v).bank.priv = s.bank.priv := by
  simp [State.setPc]
@[simp] theorem State.setPc_bank_vswe (s : State) (v : Word) : (s.setPc v).bank.vswe = s.bank.vswe := by
  simp [State.setPc]
@[simp] theorem State.setPc_bank_excm (s : State) (v : Word) : (s.setPc v).bank.excm = s.bank.excm := by
  simp [State.setPc]
@[simp] theorem State.setPc_bank_ml (s : State) (v : Word) : (s.setPc v).bank.ml = s.bank.ml := by
  simp [State.setPc]
@[simp] theorem State.setPc_bank_evnum (s : State) (v : Word) : (s.setPc v).bank.evnum = s.bank.evnum := by
  simp [State.setPc]
@[simp] theorem State.setPc_bank_lzres (s : State) (v : Word) : (s.setPc v).bank.lzres = s.bank.lzres := by
  simp [State.setPc]
@[simp] theorem State.setPc_bank_lzfill (s : State) (v : Word) : (s.setPc v).bank.lzfill = s.bank.lzfill := by
  simp [State.setPc]
@[simp] theorem State.setPc_bank_lzsp (s : State) (v : Word) : (s.setPc v).bank.lzsp = s.bank.lzsp := by
  simp [State.setPc]
@[simp] theorem State.setPc_bank_subpri (s : State) (v : Word) : (s.setPc v).bank.subpri = s.bank.subpri := by
  simp [State.setPc]
@[simp] theorem State.setPc_readG (s : State) (v : Word) (r : RegIx) : (s.setPc v).readG r = s.readG r := by
  simp [State.readG, Bank.readG, State.setPc]

/-! ### General registers (02 R23) -/

/-- G0 reads as zero. -/
@[simp] theorem State.readG_zero (s : State) : s.readG 0 = 0 := rfl

/-- A write to G0 is discarded. -/
@[simp] theorem State.writeG_zero (s : State) (v : Word) : s.writeG 0 v = s := by
  simp [State.writeG, Bank.writeG]

/-- The register just written. -/
theorem State.readG_writeG_self (s : State) {r : RegIx} (v : Word) (h : r ≠ 0) : (s.writeG r v).readG r = v := by
  simp only [State.readG, State.writeG, State.bank_setBank, Bank.readG, Bank.writeG, if_neg h, Fin.getElem_fin, Vector.getElem_set_self]

/-- Every other register. -/
theorem State.readG_writeG_ne (s : State) {q r : RegIx} (v : Word) (h : q ≠ r) : (s.writeG r v).readG q = s.readG q := by
  have : (regFin r).val ≠ (regFin q).val := fun e => h (BitVec.eq_of_toNat_eq e.symm)
  simp only [State.readG, State.writeG, State.bank_setBank, Bank.readG, Bank.writeG]
  by_cases hq : q = 0
  · simp only [if_pos hq]
  · by_cases hr : r = 0
    · simp only [if_pos hr]
    · simp only [if_neg hq, if_neg hr, Fin.getElem_fin, Vector.getElem_set_ne _ _ this]

end Sys2Proof.Machine
end

