-- ==== Sys2Proof/Laws/Answers.lean ====
section
/-! SUPPORT. How a command ends: a well-formed one answers a next state, an ill-formed one is refused. -/

namespace Sys2Proof.Machine

/-- A well-formed command answers a next state; one whose operands the table does not admit is refused. -/
theorem exec_answers (c : Instr) (s : State) :
    (c.wf = true ∧ ∃ t, exec c s = answer s t) ∨ (c.wf = false ∧ exec c s = .refused .illFormed) := by
  cases c with
  | registerWrite r v b =>
    cases r with
    | csr n => exact .inl ⟨rfl, _, rfl⟩
    | window a n => cases h : windowAccess a n <;> simp [Instr.wf, exec, execRegisterWrite, h]
  | tileEntryStart l => cases h : elementList l <;> simp [Instr.wf, exec, execTileEntryStart, h]
  | winzeRequest rd ra rb op func parityError early => cases early <;> exact .inl ⟨rfl, _, rfl⟩
  | fillClose k => cases h : fillClass k <;> simp [Instr.wf, exec, execFillClose, h]
  | parityError k x u a p => cases h : parityClass k <;> simp [Instr.wf, exec, execParityError, h]
  | readPacket p => cases h : readFrame p <;> simp [Instr.wf, exec, execReadPacket, h]
  | writePacket p => cases h : dataFrame p <;> simp [Instr.wf, exec, execWritePacket, h]
  | reducePacket p => cases h : reduceFrame p <;> simp [Instr.wf, exec, execReducePacket, h]
  | reservedPacketType t => cases h : reservedType t <;> simp [Instr.wf, exec, execReservedPacketType, h]
  | _ => exact .inl ⟨rfl, _, rfl⟩

/-- A next state of a command is one with what the spec hard-wires put right. -/
theorem exec_next {c : Instr} {s u : State} (h : exec c s = .next u) : ∃ t, u = hardwire s t := by
  rcases exec_answers c s with ⟨-, t, e⟩ | ⟨-, e⟩
  · rw [e] at h
    injection h with h
    exact ⟨t, h.symm⟩
  · rw [e] at h
    cases h

end Sys2Proof.Machine
end

