-- ==== Sys2Proof/Laws/Issue.lean ====
section
/-! SUPPORT. What issuing an instruction of the scalar core and taking an exception can do. -/

namespace Sys2Proof.Machine

/-! ### Issue -/

/-- An instruction that executes in `u` ends as its own work says. -/
theorem issue_of_issues {s u : State} (h : Issues s u) (body : State → IRes) : s.issue body = answer s (body u).finish := by
  unfold State.issue
  rw [show s.preIssue = .go u from h]

/-- An instruction before which the core stays or enters a handler does nothing of its own. -/
theorem issue_of_stay {s u : State} (h : s.preIssue = .stay u) (body : State → IRes) : s.issue body = answer s u := by
  unfold State.issue
  rw [h]

/-- A core that cannot issue stays as it is (log 6). -/
theorem preIssue_of_not_canIssue {s : State} (h : s.canIssue = false) : s.preIssue = .stay s := by
  simp [State.preIssue, h]

/-- A guarded body whose reserved fields are clear. -/
@[simp] theorem guardRsv_true (w : Word) (s : State) (r : IRes) : guardRsv true w s r = r := rfl

/-- A guarded body with a reserved field set raises cause 1. -/
@[simp] theorem guardRsv_false (w : Word) (s : State) (r : IRes) : guardRsv false w s r = .exc s (undefinedWord w) := rfl

/-- A Supervisor instruction at Supervisor privilege. -/
theorem guardPriv_super {s : State} (h : s.super = true) (w : Word) (r : IRes) : guardPriv w s r = r := by
  simp [guardPriv, h]

/-- A Supervisor instruction at User privilege raises cause 2. -/
theorem guardPriv_user {s : State} (h : s.super = false) (w : Word) (r : IRes) : guardPriv w s r = .exc s (privilegedWord w) := by
  simp [guardPriv, h]

/-! ### The end of an instruction -/

/-- Without a debug step or single step, an instruction's end is that it is counted. -/
theorem retire_eq {s : State} (h : s.core.stepGrant = false) (d : s.core.dbgStep.getLsbD s.lvl.val = false) :
    s.retire = s.counted := by
  have h' : s.counted.core.stepGrant = false := h
  have d' : s.counted.core.dbgStep.getLsbD s.counted.lvl.val = false := d
  unfold State.retire
  simp only [h', d', Bool.false_and, Bool.false_eq_true, if_false]

/-- Outside a hardware loop's last instruction PC advances by 4. -/
theorem advancePc_straight {s : State} (h : s.bank.lc = 0 ∨ s.bank.pc ≠ s.bank.le) : s.advancePc = s.setPc (s.bank.pc + 4) := by
  unfold State.advancePc
  rw [if_neg (by rintro ⟨a, b⟩; rcases h with h | h; exacts [a h, h b])]

/-! ### Exceptions (05 R130 to R132) -/

/-- An exception taken at its own level. -/
theorem takeException_own {s : State} {e : Exc} (l : s.lvl ≠ 7) (x : s.bank.excm = false) :
    s.takeException e = (s.cancelEarly.countConsumed e.cause).setBank { s.bank with
      epc := e.epc.getD s.bank.pc, ecause := BitVec.ofNat 6 e.cause, eaddr := e.eaddr, einfo := e.einfo, ppriv := s.bank.priv,
      priv := true, excm := true, pc := vectorOf e.cause } := by
  unfold State.takeException
  simp only [if_neg l, x, Bool.false_eq_true, if_false]

/-- An exception while EXCM = 1 escalates to level 7. -/
theorem takeException_escalates {s : State} {e : Exc} (l : s.lvl ≠ 7) (x : s.bank.excm = true) :
    s.takeException e = s.escalate e.cause e.eaddr e.einfo (e.epc.getD s.bank.pc) := by
  unfold State.takeException
  simp only [if_neg l, x, if_true]

/-- An exception at level 7 stops the core. -/
theorem takeException_seven {s : State} {e : Exc} (l : s.lvl = 7) :
    s.takeException e = (s.cancelEarly.countConsumed e.cause).fatalStop := by
  unfold State.takeException
  simp only [if_pos l]

/-! ### What the hard-wired fields come to -/

/-- Every next state of a command has what the spec hard-wires. -/
theorem hardwire_hardwired (s t : State) : Hardwired (hardwire s t) := by
  refine ⟨by simp [hardwire], ?_, ?_, ?_, ?_⟩
  · simp [hardwire]
  · simp [hardwire]
  · intro k h1 h2
    have : ∀ k : Fin 64, 56 ≤ k.val → k.val < 63 → (hardwire s t).bm.evrt[k] = 0 := by
      intro k h1 h2
      simp only [hardwire, Fin.getElem_fin]
      obtain ⟨n, hn⟩ := k
      simp only at h1 h2
      interval_cases n <;> simp
    exact this k h1 h2
  · simp only [hardwire]
    rw [BitVec.and_assoc]
    have : (0x80FFFFFFFFFFFFFF#64 &&& 0x7F00000000000000 : Word) = 0 := by decide
    rw [this]
    simp

end Sys2Proof.Machine
end

