-- ==== Sys2Proof/Laws/Memory.lean ====
section
/-! SUPPORT. Sparse lists and memory: a read after a write, and that every operation keeps the canonical form. -/

namespace Sys2Proof.Machine

/-! ### Sparse lists -/

/-- Below its first key a canonical list has nothing. -/
theorem smGet_below {α : Type} [DecidableEq α] (d : α) {k lo : Nat} {l : List (Nat × α)} (h : smWf d lo l = true) (hk : k < lo) :
    smGet d k l = d := by
  induction l generalizing lo with
  | nil => rfl
  | cons x t ih =>
    obtain ⟨j, v⟩ := x
    simp only [smWf, Bool.and_eq_true, decide_eq_true_eq] at h
    simp only [smGet]
    rw [if_neg (by omega)]
    exact ih h.2 (by omega)

/-- The canonical form with a lower bound weakened. -/
theorem smWf_mono {α : Type} [DecidableEq α] {d : α} {lo hi : Nat} {l : List (Nat × α)} (h : smWf d hi l = true) (hl : lo ≤ hi) :
    smWf d lo l = true := by
  cases l with
  | nil => rfl
  | cons x t =>
    simp only [smWf, Bool.and_eq_true, decide_eq_true_eq] at h ⊢
    exact ⟨⟨by omega, h.1.2⟩, h.2⟩

/-- A write keeps the canonical form. -/
theorem smWf_smSet {α : Type} [DecidableEq α] {d : α} {lo k : Nat} (v : α) {l : List (Nat × α)} (h : smWf d lo l = true) (hk : lo ≤ k) :
    smWf d lo (smSet d k v l) = true := by
  induction l generalizing lo with
  | nil => simp only [smSet]; split <;> simp_all [smWf]
  | cons x t ih =>
    obtain ⟨j, w⟩ := x
    simp only [smWf, Bool.and_eq_true, decide_eq_true_eq] at h
    simp only [smSet]
    split
    · split
      · simp [smWf, h]
      · rename_i h1 h2; simp [smWf, h, h1, h2, hk]
    · split
      · split
        · exact smWf_mono h.2 (by omega)
        · rename_i h1 h2 h3; subst h2; simp [smWf, h.2, h3, hk]
      · rename_i h1 h2
        simp only [smWf, Bool.and_eq_true, decide_eq_true_eq]
        exact ⟨h.1, ih h.2 (by omega)⟩

/-- The key just written. -/
theorem smGet_smSet_self {α : Type} [DecidableEq α] {d : α} {lo : Nat} (k : Nat) (v : α) {l : List (Nat × α)}
    (h : smWf d lo l = true) : smGet d k (smSet d k v l) = v := by
  induction l generalizing lo with
  | nil => simp only [smSet]; split <;> simp_all [smGet]
  | cons x t ih =>
    obtain ⟨j, w⟩ := x
    simp only [smWf, Bool.and_eq_true, decide_eq_true_eq] at h
    simp only [smSet]
    split
    · split
      · rename_i h1 h2; subst h2; simp only [smGet]; rw [if_neg (by omega)]; exact smGet_below _ h.2 (by omega)
      · simp [smGet]
    · split
      · split
        · rename_i h1 h2 h3; subst h3; exact smGet_below _ h.2 (by omega)
        · simp [smGet]
      · rename_i h1 h2; simp only [smGet]; rw [if_neg h2]; exact ih h.2

/-- Every other key. -/
theorem smGet_smSet_ne {α : Type} [DecidableEq α] (d : α) {k q : Nat} (v : α) (l : List (Nat × α)) (h : q ≠ k) :
    smGet d q (smSet d k v l) = smGet d q l := by
  induction l with
  | nil => simp only [smSet]; split <;> simp [smGet, h]
  | cons x t ih =>
    obtain ⟨j, w⟩ := x
    simp only [smSet]
    split
    · split <;> simp [smGet, h]
    · split
      · rename_i h1 h2; subst h2; split <;> simp [smGet, h]
      · simp only [smGet, ih]

/-- Entries may be left out. -/
theorem smWf_filter {α : Type} [DecidableEq α] {d : α} {lo : Nat} (p : Nat × α → Bool) {l : List (Nat × α)} (h : smWf d lo l = true) :
    smWf d lo (l.filter p) = true := by
  induction l generalizing lo with
  | nil => rfl
  | cons x t ih =>
    obtain ⟨j, w⟩ := x
    simp only [smWf, Bool.and_eq_true, decide_eq_true_eq] at h
    simp only [List.filter_cons]
    split
    · simp only [smWf, Bool.and_eq_true, decide_eq_true_eq]; exact ⟨h.1, ih h.2⟩
    · exact smWf_mono (ih h.2) (by omega)

/-! ### Sets of numbers -/

/-- The rising form with a lower bound weakened. -/
theorem nsWf_mono {lo hi : Nat} {l : List Nat} (h : nsWf hi l = true) (hl : lo ≤ hi) : nsWf lo l = true := by
  cases l with
  | nil => rfl
  | cons x t => simp only [nsWf, Bool.and_eq_true, decide_eq_true_eq] at h ⊢; exact ⟨by omega, h.2⟩

/-- An insertion keeps the rising form. -/
theorem nsWf_nsInsert {lo k : Nat} {l : List Nat} (h : nsWf lo l = true) (hk : lo ≤ k) : nsWf lo (nsInsert k l) = true := by
  induction l generalizing lo with
  | nil => simp [nsInsert, nsWf, hk]
  | cons x t ih =>
    simp only [nsWf, Bool.and_eq_true, decide_eq_true_eq] at h
    simp only [nsInsert]
    split
    · simp only [nsWf, Bool.and_eq_true, decide_eq_true_eq]; exact ⟨hk, by omega, h.2⟩
    · split
      · simp [nsWf, h]
      · simp only [nsWf, Bool.and_eq_true, decide_eq_true_eq]; exact ⟨h.1, ih h.2 (by omega)⟩

/-- Leaving members out keeps the rising form. -/
theorem nsWf_filter {lo : Nat} (p : Nat → Bool) {l : List Nat} (h : nsWf lo l = true) : nsWf lo (l.filter p) = true := by
  induction l generalizing lo with
  | nil => rfl
  | cons x t ih =>
    simp only [nsWf, Bool.and_eq_true, decide_eq_true_eq] at h
    simp only [List.filter_cons]
    split
    · simp only [nsWf, Bool.and_eq_true, decide_eq_true_eq]; exact ⟨h.1, ih h.2⟩
    · exact nsWf_mono (ih h.2) (by omega)

/-- A removal keeps the rising form. -/
theorem nsWf_nsErase {lo : Nat} (k : Nat) {l : List Nat} (h : nsWf lo l = true) : nsWf lo (nsErase k l) = true := nsWf_filter _ h

/-- Membership after an insertion. -/
theorem nsMem_nsInsert (q k : Nat) (l : List Nat) : nsMem q (nsInsert k l) = (q == k || nsMem q l) := by
  induction l with
  | nil => simp [nsInsert, nsMem, Bool.beq_eq_decide_eq]
  | cons x t ih =>
    simp only [nsMem, List.contains_cons] at ih ⊢
    simp only [nsInsert]
    split
    · simp only [List.contains_cons]
    · split
      · rename_i h1 h2; subst h2; simp only [List.contains_cons]; cases q == k <;> simp
      · simp only [List.contains_cons, ih]; cases q == x <;> cases q == k <;> simp

/-- Membership after a removal. -/
theorem nsMem_nsErase (q k : Nat) (l : List Nat) : nsMem q (nsErase k l) = (q != k && nsMem q l) := by
  by_cases h : q ∈ l <;> by_cases e : q = k <;> simp [nsMem, nsErase, h, e]

/-! ### Lines of the caches -/

/-- The rising form with a lower bound weakened. -/
theorem linesWf_mono {lo hi : Nat} {l : List CacheLine} (h : linesWf hi l = true) (hl : lo ≤ hi) : linesWf lo l = true := by
  cases l with
  | nil => rfl
  | cons x t => simp only [linesWf, Bool.and_eq_true, decide_eq_true_eq] at h ⊢; exact ⟨by omega, h.2⟩

/-- Putting a line keeps the rising form. -/
theorem linesWf_linePut {lo : Nat} (x : CacheLine) {l : List CacheLine} (h : linesWf lo l = true) (hx : lo ≤ x.granule) :
    linesWf lo (linePut x l) = true := by
  induction l generalizing lo with
  | nil => simp [linePut, linesWf, hx]
  | cons y t ih =>
    simp only [linesWf, Bool.and_eq_true, decide_eq_true_eq] at h
    simp only [linePut]
    split
    · simp only [linesWf, Bool.and_eq_true, decide_eq_true_eq]; exact ⟨hx, by omega, h.2⟩
    · split
      · rename_i h1 h2; simp only [linesWf, Bool.and_eq_true, decide_eq_true_eq]; exact ⟨hx, by rw [h2]; exact h.2⟩
      · simp only [linesWf, Bool.and_eq_true, decide_eq_true_eq]; exact ⟨h.1, ih h.2 (by omega)⟩

/-- Dropping lines keeps the rising form. -/
theorem linesWf_filter {lo : Nat} (p : CacheLine → Bool) {l : List CacheLine} (h : linesWf lo l = true) :
    linesWf lo (l.filter p) = true := by
  induction l generalizing lo with
  | nil => rfl
  | cons x t ih =>
    simp only [linesWf, Bool.and_eq_true, decide_eq_true_eq] at h
    simp only [List.filter_cons]
    split
    · simp only [linesWf, Bool.and_eq_true, decide_eq_true_eq]; exact ⟨h.1, ih h.2⟩
    · exact linesWf_mono (ih h.2) (by omega)

/-- A change that keeps every granule keeps the rising form. -/
theorem linesWf_map {lo : Nat} (f : CacheLine → CacheLine) (hf : ∀ x, (f x).granule = x.granule) {l : List CacheLine}
    (h : linesWf lo l = true) : linesWf lo (l.map f) = true := by
  induction l generalizing lo with
  | nil => rfl
  | cons x t ih =>
    simp only [linesWf, Bool.and_eq_true, decide_eq_true_eq] at h
    simp only [List.map_cons, linesWf, Bool.and_eq_true, decide_eq_true_eq, hf]
    exact ⟨h.1, ih h.2⟩

/-! ### Memory -/

/-- The canonical form, part by part. -/
theorem Memory.wf_iff (m : Mem) : Memory.wf m = true ↔
    smWf 0#8 0 m.cells = true ∧ nsWf 0 m.poison = true ∧ nsWf 0 m.copyPoison = true ∧ linesWf 0 m.cache = true
      ∧ linesWf 0 m.tsc = true ∧ smWf 0#8 0 m.onCore = true ∧ nsWf 0 m.onCorePoison = true := by
  simp only [Memory.wf, Bool.and_eq_true, and_assoc]

/-- An operation that keeps the form keeps it over a list. -/
theorem Memory.wf_foldl {α : Type} {f : Mem → α → Mem} (hf : ∀ m x, Memory.wf m = true → Memory.wf (f m x) = true) (l : List α) {m : Mem}
    (h : Memory.wf m = true) : Memory.wf (l.foldl f m) = true := by
  induction l generalizing m with
  | nil => exact h
  | cons x t ih => exact ih (hf m x h)

/-- Another L2 content in rising form. -/
theorem Memory.wf_cache {m : Mem} {c : List CacheLine} (h : Memory.wf m = true) (hc : linesWf 0 c = true) :
    Memory.wf { m with cache := c } = true := by
  simp only [Memory.wf_iff] at h ⊢
  exact ⟨h.1, h.2.1, h.2.2.1, hc, h.2.2.2.2⟩

/-- Another tile-store cache content in rising form. -/
theorem Memory.wf_tsc {m : Mem} {c : List CacheLine} (h : Memory.wf m = true) (hc : linesWf 0 c = true) :
    Memory.wf { m with tsc := c } = true := by
  simp only [Memory.wf_iff] at h ⊢
  exact ⟨h.1, h.2.1, h.2.2.1, h.2.2.2.1, hc, h.2.2.2.2.2⟩

/-- Other poisoned clean copies in rising form. -/
theorem Memory.wf_copyPoison {m : Mem} {c : List Nat} (h : Memory.wf m = true) (hc : nsWf 0 c = true) :
    Memory.wf { m with copyPoison := c } = true := by
  simp only [Memory.wf_iff] at h ⊢
  exact ⟨h.1, h.2.1, hc, h.2.2.2⟩

/-- The lists of lines are in rising form. -/
theorem Memory.wf_lines {m : Mem} (h : Memory.wf m = true) :
    nsWf 0 m.copyPoison = true ∧ linesWf 0 m.cache = true ∧ linesWf 0 m.tsc = true := by
  simp only [Memory.wf_iff] at h
  exact ⟨h.2.2.1, h.2.2.2.1, h.2.2.2.2.1⟩

theorem Memory.wf_offerWrite {m : Mem} (r : PortReq) (h : Memory.wf m = true) : Memory.wf (m.offerWrite r) = true := h

theorem Memory.wf_offerRead {m : Mem} (r : PortReq) (h : Memory.wf m = true) : Memory.wf (m.offerRead r) = true := h

theorem Memory.wf_setBack {m : Mem} (pa : Nat) (v : Byte) (h : Memory.wf m = true) : Memory.wf (m.setBack pa v) = true := by
  simp only [Memory.wf_iff] at h ⊢
  exact ⟨smWf_smSet v h.1 (Nat.zero_le _), h.2⟩

theorem Memory.wf_setBackPoison {m : Mem} (g : Nat) (p : Bool) (h : Memory.wf m = true) : Memory.wf (m.setBackPoison g p) = true := by
  simp only [Memory.wf_iff, Mem.setBackPoison] at h ⊢
  refine ⟨h.1, ?_, h.2.2⟩
  split
  · exact nsWf_nsInsert h.2.1 (Nat.zero_le _)
  · exact nsWf_nsErase _ h.2.1

theorem Memory.wf_setBackNat {m : Mem} (pa v n : Nat) (h : Memory.wf m = true) : Memory.wf (m.setBackNat pa v n) = true := by
  induction n generalizing m pa v with
  | zero => exact h
  | succ n ih => exact ih _ _ (Memory.wf_setBack _ _ h)

theorem Memory.wf_setBackLine {m : Mem} (l : CacheLine) (h : Memory.wf m = true) : Memory.wf (m.setBackLine l) = true := by
  unfold Mem.setBackLine
  split
  · exact Memory.wf_setBackPoison _ _ (Memory.wf_setBackNat _ _ _ h)
  · exact Memory.wf_offerWrite _ (Memory.wf_setBackPoison _ _ (Memory.wf_setBackNat _ _ _ h))

theorem Memory.wf_evictStore {m : Mem} (n : Nat) (h : Memory.wf m = true) : Memory.wf (m.evictStore n) = true := by
  unfold Mem.evictStore
  exact Memory.wf_tsc (Memory.wf_foldl (fun _ x k => Memory.wf_setBackLine x k) _ h) (linesWf_filter _ (Memory.wf_lines h).2.2)

theorem Memory.wf_toStore {m : Mem} (l : CacheLine) (h : Memory.wf m = true) : Memory.wf (m.toStore l) = true := by
  unfold Mem.toStore
  split
  · exact Memory.wf_tsc (Memory.wf_setBackLine l h) (linesWf_filter _ (Memory.wf_lines h).2.2)
  · dsimp only
    split
    · have k := Memory.wf_evictStore (victimOf (m.storeWays (l.granule / 2))) h
      exact Memory.wf_tsc k (linesWf_linePut _ (Memory.wf_lines k).2.2 (Nat.zero_le _))
    · exact Memory.wf_tsc h (linesWf_linePut _ (Memory.wf_lines h).2.2 (Nat.zero_le _))

theorem Memory.wf_evictL2 {m : Mem} (g : Nat) (h : Memory.wf m = true) : Memory.wf (m.evictL2 g) = true := by
  unfold Mem.evictL2
  split
  · exact h
  · exact Memory.wf_toStore _ (Memory.wf_cache h (linesWf_filter _ (Memory.wf_lines h).2.1))

theorem Memory.wf_evictL1 {m : Mem} (g : Nat) (h : Memory.wf m = true) : Memory.wf (m.evictL1 g) = true :=
  Memory.wf_cache h (linesWf_map _ (fun x => by split <;> rfl) (Memory.wf_lines h).2.1)

theorem Memory.wf_room {m : Mem} (g : Nat) (l1 : Bool) (h : Memory.wf m = true) : Memory.wf (m.room g l1) = true := by
  have k : ∀ u : Mem, Memory.wf u = true →
      Memory.wf (if l1 && decide (8 ≤ (u.l1Set g).length) then u.evictL1 (victimOf (u.l1Set g)) else u) = true := by
    intro u w
    split
    · exact Memory.wf_evictL1 _ w
    · exact w
  unfold Mem.room
  by_cases c : m.l2ways ≤ (m.l2Set g).length
  · simp only [if_pos c]; exact k _ (Memory.wf_evictL2 _ h)
  · simp only [if_neg c]; exact k _ h

theorem Memory.wf_putLine {m : Mem} (l : CacheLine) (h : Memory.wf m = true) : Memory.wf (m.putLine l) = true := by
  have k := Memory.wf_room l.granule l.l1 h
  unfold Mem.putLine
  exact Memory.wf_copyPoison (Memory.wf_cache k (linesWf_linePut _ (Memory.wf_lines k).2.1 (Nat.zero_le _)))
    (nsWf_nsErase _ (Memory.wf_lines k).1)

theorem Memory.wf_putEngine {m : Mem} (l : CacheLine) (h : Memory.wf m = true) : Memory.wf (m.putEngine l) = true := by
  unfold Mem.putEngine
  split
  · exact Memory.wf_putLine _ h
  · have k := Memory.wf_toStore l h
    exact Memory.wf_copyPoison k (nsWf_nsErase _ (Memory.wf_lines k).1)

theorem Memory.wf_dropLine {m : Mem} (g : Nat) (h : Memory.wf m = true) : Memory.wf (m.dropLine g) = true := by
  have k := Memory.wf_lines h
  exact Memory.wf_copyPoison (Memory.wf_tsc (Memory.wf_cache h (linesWf_filter _ k.2.1)) (linesWf_filter _ k.2.2)) (nsWf_nsErase _ k.1)

theorem Memory.wf_setByte {m : Mem} (pa : Nat) (v : Byte) (h : Memory.wf m = true) : Memory.wf (m.setByte pa v) = true := by
  unfold Mem.setByte
  exact Memory.wf_putLine _ h

theorem Memory.wf_setEngine {m : Mem} (pa : Nat) (v : Byte) (h : Memory.wf m = true) : Memory.wf (m.setEngine pa v) = true := by
  unfold Mem.setEngine
  exact Memory.wf_putEngine _ h

theorem Memory.wf_writeNat {m : Mem} (pa v n : Nat) (h : Memory.wf m = true) : Memory.wf (m.writeNat pa v n) = true := by
  induction n generalizing m pa v with
  | zero => exact h
  | succ n ih => exact ih _ _ (Memory.wf_setByte _ _ h)

theorem Memory.wf_engineNat {m : Mem} (pa v n : Nat) (h : Memory.wf m = true) : Memory.wf (m.engineNat pa v n) = true := by
  induction n generalizing m pa v with
  | zero => exact h
  | succ n ih => exact ih _ _ (Memory.wf_setEngine _ _ h)

theorem Memory.wf_writeGranule {m : Mem} (g : Nat) (data : BitVec 512) (p : Bool) (h : Memory.wf m = true) :
    Memory.wf (m.writeGranule g data p) = true := by
  unfold Mem.writeGranule
  exact Memory.wf_putLine _ h

theorem Memory.wf_engineGranule {m : Mem} (g : Nat) (data : BitVec 512) (p : Bool) (h : Memory.wf m = true) :
    Memory.wf (m.engineGranule g data p) = true := by
  unfold Mem.engineGranule
  exact Memory.wf_putEngine _ h

theorem Memory.wf_poisonGranule {m : Mem} (g : Nat) (h : Memory.wf m = true) : Memory.wf (m.poisonGranule g) = true := by
  unfold Mem.poisonGranule
  exact Memory.wf_putEngine _ h

theorem Memory.wf_writeBack {m : Mem} (g : Nat) (h : Memory.wf m = true) : Memory.wf (m.writeBack g) = true := by
  unfold Mem.writeBack
  split
  · exact h
  · exact Memory.wf_dropLine _ (Memory.wf_setBackLine _ h)

theorem Memory.wf_writeBackCore {m : Mem} (h : Memory.wf m = true) : Memory.wf m.writeBackCore = true :=
  Memory.wf_copyPoison (Memory.wf_foldl (fun _ x k => Memory.wf_writeBack x k) _ h) rfl

theorem Memory.wf_writeBackStore {m : Mem} (h : Memory.wf m = true) : Memory.wf m.writeBackStore = true :=
  Memory.wf_tsc (Memory.wf_foldl (fun _ x k => Memory.wf_setBackLine x k) _ h) rfl

theorem Memory.wf_writeBackAll {m : Mem} (h : Memory.wf m = true) : Memory.wf m.writeBackAll = true :=
  Memory.wf_writeBackCore (Memory.wf_writeBackStore h)

theorem Memory.wf_portWrite {m : Mem} (src : BitVec 3) (pa n v : Nat) (h : Memory.wf m = true) :
    Memory.wf (m.portWrite src pa n v) = true := Memory.wf_offerWrite _ (Memory.wf_setBackNat _ _ _ h)

theorem Memory.wf_writeTy {m : Mem} (ty : MemType) (pa n v : Nat) (h : Memory.wf m = true) : Memory.wf (m.writeTy ty pa n v) = true := by
  cases ty with
  | uncached => exact Memory.wf_portWrite _ _ _ _ h
  | device => exact h
  | _ => exact Memory.wf_writeNat _ _ _ h

theorem Memory.wf_engineTy {m : Mem} (src : BitVec 3) (ty : MemType) (pa n v : Nat) (h : Memory.wf m = true) :
    Memory.wf (m.engineTy src ty pa n v) = true := by
  cases ty with
  | uncached => exact Memory.wf_portWrite _ _ _ _ h
  | device => exact h
  | _ => exact Memory.wf_engineNat _ _ _ h

theorem Memory.wf_engineLine {m : Mem} (src : BitVec 3) (ty : MemType) (g : Nat) (data : BitVec 512) (p : Bool) (h : Memory.wf m = true) :
    Memory.wf (m.engineLine src ty g data p) = true := by
  cases ty with
  | uncached | device => exact Memory.wf_setBackPoison _ _ (Memory.wf_portWrite _ _ _ _ h)
  | _ => exact Memory.wf_engineGranule _ _ _ h

theorem Memory.wf_performStore {m : Mem} (e : StoreEntry) (h : Memory.wf m = true) : Memory.wf (m.performStore e) = true := by
  simp only [Mem.performStore]
  split
  · exact Memory.wf_poisonGranule _ (Memory.wf_writeTy _ _ _ _ h)
  · exact Memory.wf_writeTy _ _ _ _ h

theorem Memory.wf_drain {m : Mem} (h : Memory.wf m = true) : Memory.wf m.drain = true :=
  Memory.wf_foldl (fun _ x k => Memory.wf_performStore x k) m.sb h

theorem Memory.wf_pushStore {m : Mem} (e : StoreEntry) (h : Memory.wf m = true) : Memory.wf (m.pushStore e) = true := by
  unfold Mem.pushStore
  split
  · split
    · exact Memory.wf_performStore _ h
    · exact h
  · exact h

theorem Memory.wf_loadThrough {m : Mem} (ty : MemType) (pa n : Nat) (h : Memory.wf m = true) :
    Memory.wf (m.loadThrough ty pa n).1 = true := by
  unfold Mem.loadThrough
  split
  · exact h
  · split
    · exact h
    · exact Memory.wf_drain h

theorem Memory.wf_setOnCoreNat {m : Mem} (off v n : Nat) (h : Memory.wf m = true) : Memory.wf (m.setOnCoreNat off v n) = true := by
  induction n generalizing m off v with
  | zero => exact h
  | succ n ih =>
    refine ih _ _ ?_
    simp only [Memory.wf_iff] at h ⊢
    exact ⟨h.1, h.2.1, h.2.2.1, h.2.2.2.1, h.2.2.2.2.1, smWf_smSet _ h.2.2.2.2.2.1 (Nat.zero_le _), h.2.2.2.2.2.2⟩

/-! ### Reading after writing -/

/-- A byte behind the caches just written. -/
theorem Mem.backByte_setBack_self {m : Mem} (pa : Nat) (v : Byte) (h : Memory.wf m = true) : (m.setBack pa v).backByte pa = v :=
  smGet_smSet_self pa v ((Memory.wf_iff m).1 h).1

/-- Every other byte behind the caches. -/
theorem Mem.backByte_setBack_ne (m : Mem) {pa q : Nat} (v : Byte) (h : q ≠ pa) : (m.setBack pa v).backByte q = m.backByte q :=
  smGet_smSet_ne _ v m.cells h

/-- The line just put, found again. -/
theorem lineFind_linePut_self (x : CacheLine) (l : List CacheLine) : lineFind x.granule (linePut x l) = some x := by
  induction l with
  | nil => simp [linePut, lineFind]
  | cons y t ih =>
    simp only [linePut]
    split
    · simp [lineFind]
    · split
      · simp [lineFind]
      · rename_i h1 h2
        simp only [lineFind] at ih ⊢
        rw [List.find?_cons_of_neg (by simpa using fun e => h2 e.symm)]
        exact ih

/-- Another line, found as before. -/
theorem lineFind_linePut_ne (x : CacheLine) {g : Nat} (l : List CacheLine) (h : g ≠ x.granule) :
    lineFind g (linePut x l) = lineFind g l := by
  have hx : (x.granule == g) = false := by simpa using fun e => h e.symm
  induction l with
  | nil => simp [linePut, lineFind, hx]
  | cons y t ih =>
    simp only [linePut]
    split
    · simp [lineFind, List.find?_cons, hx]
    · split
      · rename_i h1 h2
        have hy : (y.granule == g) = false := by rw [← h2]; exact hx
        simp [lineFind, hx, hy]
      · simp only [lineFind, List.find?_cons] at ih ⊢
        rw [ih]

end Sys2Proof.Machine
end

