-- ==== Sys2Proof/Tests/Slice0.lean ====
section
/-! SUPPORT. Tests: ill-formed commands are refused, single steps have the results that the spec gives, and the hypotheses of every
statement are met by a state, clause by clause. -/

namespace Sys2Proof.Tests

set_option Elab.async false

open Sys2Proof Sys2Proof.Machine

/-! ### Small states -/

/-- The scalar core just released, nothing else changed from reset. -/
def coreState : State :=
  { State.reset with
    core := { State.reset.core with mode := .run, taskRunning := true }
    pwr := { State.reset.pwr with core := .on, coreReset := false, latching := false } }

/-- A region that takes the whole of memory as one near-tier pool. -/
def wholeMap : Pmat :=
  { valid := true, base := 0, log2size := 47, ilfirst := 0, ilgran := 0, ilways := 0, secure := false, tier := 0, device := false }

/-- The same with memory mapped. -/
def memState : State := { coreState with xl := { coreState.xl with pmat := coreState.xl.pmat.set 0 wholeMap } }

/-- A state with its current bank changed. -/
def withBank (s : State) (f : Bank → Bank) : State := s.setBank (f s.bank)

/-- The core at User privilege. -/
def userState : State := withBank memState fun b => { b with priv := false, excm := false, pc := 0x100 }

/-- Where an instruction of `s` executes. -/
def issued (s : State) : State := match s.preIssue with | .go u => u | .stay t => t

/-- An instruction issues. -/
def issuesSome (s : State) : Bool := match s.preIssue with | .go _ => true | .stay _ => false

/-- What `issuesSome` says. -/
theorem issues_of_some {s : State} (h : issuesSome s = true) : Issues s (issued s) := by
  unfold issuesSome at h
  unfold Issues issued
  split at h
  · rename_i u e; rw [e]
  · cases h

/-- The state that a command answers satisfies a test. -/
def nextIs (r : Host.Outcome State Fault Refusal) (p : State → Bool) : Bool := match r with | .next t => p t | _ => false

/-- An access result that succeeds. -/
def loads (s : State) (a : Word) (n : Nat) : Bool := match s.load a n with | .ok _ _ => true | _ => false
/-- A store that succeeds. -/
def stores (s : State) (a : Word) (n : Nat) (v : Word) : Bool := match s.store a n v false with | .ok _ => true | _ => false
/-- An atomic that succeeds. -/
def atomics (s : State) (a : Word) (n : Nat) : Bool := match s.atomic 0 a n id with | .ok _ _ => true | _ => false
/-- An access that translates to a cached physical address. -/
def maps (s : State) (a : Access) (pa : Nat) : Bool := match s.translate a with | .ok _ (.phys p .cached) => p == pa | _ => false

/-! ### Ill-formed commands -/

/-- A packet of zeros. -/
def noPacket : Packet :=
  { src := 0, dst := 0, sec := false, sr := false, red := 0, fmt := 0, len := 0, status := 0, tag := 0, tail := 0, head := 0, addr := 0,
    pois := 0, inl := 0, data := [] }

/-- A packet that writes one granule. -/
def onePacket : Packet := { noPacket with len := 64, data := [5], addr := 128 }

theorem test_wf_reserved_type : (Instr.reservedPacketType 1).wf = false ∧ (Instr.reservedPacketType 0xC).wf = true := by decide
theorem test_wf_parity_class : (Instr.parityError 14 true 0 0 0).wf = false ∧ (Instr.parityError 13 true 0 0 0).wf = true := by decide
theorem test_wf_fill_class : (Instr.fillClose 5).wf = false ∧ (Instr.fillClose 4).wf = true := by decide
theorem test_wf_window : (Instr.registerWrite (.window 0xFFFF 2) 0 true).wf = false ∧ (Instr.registerWrite (.window 0 0) 0 true).wf = false
    ∧ (Instr.registerWrite (.window 0 9) 0 true).wf = false ∧ (Instr.registerWrite (.window 0xFFFE 2) 0 true).wf = true := by decide
theorem test_wf_elements : (Instr.tileEntryStart [(1, 0), (1, 5)]).wf = false ∧ (Instr.tileEntryStart [(1, 0), (2, 5)]).wf = true := by decide
theorem test_wf_read : (Instr.readPacket noPacket).wf = false ∧ (Instr.readPacket { noPacket with len := 64, addr := 1 }).wf = false
    ∧ (Instr.readPacket { noPacket with len := 64 }).wf = true := by decide
theorem test_wf_write : (Instr.writePacket noPacket).wf = false ∧ (Instr.writePacket { onePacket with head := 63, tail := 1 }).wf = false
    ∧ (Instr.writePacket onePacket).wf = true := by decide
theorem test_wf_reduce : (Instr.reducePacket { onePacket with red := 2 }).wf = false ∧ (Instr.reducePacket { onePacket with fmt := 3 }).wf = false
    ∧ (Instr.reducePacket onePacket).wf = true := by decide
theorem test_refuses_ill_formed : exec (.fillClose 5) State.reset = .refused .illFormed := by rfl

/-! ### The queue -/

theorem test_step_takes_the_front : nextIs (step { State.reset with pending := [.fuseRdy, .freeze] }) (fun t =>
    t.straps.fuseRdy && decide (t.pending = [.freeze])) = true := by decide +kernel
theorem test_word_spells_no_command : decodeTableWord 32 0 = none ∧ State.withFetchWord State.reset 32 0 = State.reset := ⟨rfl, rfl⟩
theorem test_idle_after_reset : nextIs (step State.reset) (fun t => decide (t = State.reset)) = true := by decide +kernel

/-- STEP_KEEPS: a step that answers. -/
theorem witness_StepKeepsHardwiredFields : nextIs (step State.reset) (fun _ => true) = true := by decide +kernel

/-- A command of each kind: one that its row admits, one that it does not. -/
theorem witness_WellFormedCommandsAnswer : (Instr.nop).wf = true ∧ (Instr.fillClose 7).wf = false := by decide

/-! ### The scalar core: hypotheses met -/

theorem issues_core : Issues coreState (issued coreState) := issues_of_some (by decide +kernel)
theorem issues_mem : Issues memState (issued memState) := issues_of_some (by decide +kernel)
theorem issues_user : Issues userState (issued userState) := issues_of_some (by decide +kernel)

theorem witness_AdditionResultAndFlags : Issues coreState (issued coreState) := issues_core
theorem witness_LogicShiftAndCountResults : ∃ s u, Issues s u ∧ ∀ k : Fin 4, k = 0 ∨ k = 1 ∨ k = 2 ∨ k = 3 := ⟨_, _, issues_core, by decide⟩
theorem witness_MoveResults : Issues userState (issued userState) := issues_user

/-- A dividend and a divisor at the ends of their ranges. -/
def divState (a b : Word) : State := (coreState.writeG 2 a).writeG 3 b

theorem witness_MultiplyAndDivideResults :
    (Issues (divState 7 0) (issued (divState 7 0)) ∧ (issued (divState 7 0)).readG 3 = 0)
    ∧ (Issues (divState 0x8000000000000000 0xFFFFFFFFFFFFFFFF) (issued (divState 0x8000000000000000 0xFFFFFFFFFFFFFFFF))
      ∧ (issued (divState 0x8000000000000000 0xFFFFFFFFFFFFFFFF)).readG 2 = 0x8000000000000000
      ∧ (issued (divState 0x8000000000000000 0xFFFFFFFFFFFFFFFF)).readG 3 = 0xFFFFFFFFFFFFFFFF)
    ∧ (Issues (divState 0x8000000000000000 1) (issued (divState 0x8000000000000000 1)) ∧ (issued (divState 0x8000000000000000 1)).readG 3 ≠ 0) :=
  ⟨⟨issues_of_some (by decide +kernel), by decide +kernel⟩, ⟨issues_of_some (by decide +kernel), by decide +kernel, by decide +kernel⟩,
    ⟨issues_of_some (by decide +kernel), by decide +kernel⟩⟩

/-- The core with a stack pointer that is not a multiple of 8. -/
def oddStack : State := coreState.setSp 4

theorem witness_ReservedRightsAndAlignmentTraps :
    (Issues coreState (issued coreState) ∧ (1 : RegIx) ≠ 0 ∧ (256 : BitVec 9) ≠ 0 ∧ (1 : BitVec 3) ≠ 0 ∧ 256 ≤ (256 : BitVec 16).toNat)
    ∧ (Issues userState (issued userState) ∧ (csrOfWinze 0xFFF && (issued userState).build.winze) = false ∧ csrRights 0xFFF = none)
    ∧ (Issues userState (issued userState) ∧ (csrOfWinze 0x106 && (issued userState).build.winze) = false ∧ (csrRights 0x106).any (fun r => r.read == .super) = true
      ∧ (issued userState).super = false)
    ∧ (Issues oddStack (issued oddStack) ∧ (issued oddStack).bank.sp.toNat % 8 ≠ 0 ∧ ((issued oddStack).readG 1).toNat % 4 = 0) :=
  ⟨⟨issues_core, by decide⟩, ⟨issues_user, by decide +kernel⟩, ⟨issues_user, by decide +kernel⟩,
    ⟨issues_of_some (by decide +kernel), by decide +kernel⟩⟩

/-- The core outside an exception. -/
def calmState : State := withBank coreState fun b => { b with excm := false, ml := 0 }
/-- The core at level 7. -/
def topState : State := { coreState with core := { coreState.core with active := coreState.core.active.set 7 true } }

theorem witness_ExceptionEntryAndEscalation :
    (calmState.lvl ≠ 7 ∧ calmState.bank.excm = false ∧ (31 < 32 ∧ 25 < 32) ∧ calmState.wz.early = [])
    ∧ (coreState.lvl ≠ 7 ∧ coreState.bank.excm = true ∧ coreState.pwr.latching = false) ∧ topState.lvl = 7 := by decide +kernel

/-- The core in a loop of one instruction. -/
def loopState (n : Word) : State := withBank coreState fun b => { b with lc := n, lb := b.pc, le := b.pc }

/-- MOV completes where it issues. -/
theorem mov_completes {s u : State} (h : Issues s u) : Completes (.mov 0 0 0 0) s (u.writeG 0 (u.readG 0)) := by
  show execMov 0 0 0 0 s = _
  unfold execMov
  rw [issue_of_issues h]
  rfl

/-- BR transfers control where it issues. -/
theorem br_jumps {s u : State} (h : Issues s u) : Jumps (.br 5) s u (branchTarget u.bank.pc (5 : BitVec 26)) := by
  show execBr 5 s = _
  unfold execBr
  rw [issue_of_issues h]
  rfl

theorem witness_LoopEndDecision : Completes (.mov 0 0 0 0) (loopState 1) ((issued (loopState 1)).writeG 0 ((issued (loopState 1)).readG 0))
    ∧ Jumps (.br 5) (loopState 1) (issued (loopState 1)) (branchTarget (issued (loopState 1)).bank.pc (5 : BitVec 26))
    ∧ (issued (loopState 1)).bank.lc ≠ 0 ∧ (issued (loopState 1)).bank.pc = (issued (loopState 1)).bank.le
    ∧ Completes (.mov 0 0 0 0) (loopState 0) ((issued (loopState 0)).writeG 0 ((issued (loopState 0)).readG 0)) ∧ (issued (loopState 0)).bank.lc = 0 :=
  ⟨mov_completes (issues_of_some (by decide +kernel)), br_jumps (issues_of_some (by decide +kernel)), by decide +kernel, by decide +kernel,
    mov_completes (issues_of_some (by decide +kernel)), by decide +kernel⟩

theorem witness_IntegerFrame : Issues coreState (issued coreState) ∧ (issued coreState).core.stepGrant = false ∧ (issued coreState).core.dbgStep = 0
    ∧ nextIs (exec (.remu 1 2 3 0) coreState) (fun _ => true) = true := ⟨issues_core, by decide +kernel⟩

theorem witness_FloatResults : Issues coreState (issued coreState) ∧ fmaFormat 0 ≠ none ∧ fpCompare (fpOperand .f64 0x7FF0000000000001) (fpOperand .f64 0) =
    fpCompare (fpOperand .f64 0x7FF0000000000001) (fpOperand .f64 0) ∧ (fpOperand .f64 0x7FF0000000000001).isSnan = true
    ∧ (fpOperand .f64 0).isNan = false := ⟨issues_core, by decide +kernel⟩

theorem witness_LoadStoreResults : Issues memState (issued memState) ∧ loads (issued memState) 0x7F8 8 = true ∧ stores (issued memState) 0x7F8 8 5 = true
    ∧ (match (issued coreState).load 0x7F8 8 with | .exc _ _ => true | _ => false) = true
    ∧ (match (issued coreState).store 0x7F8 8 0 false with | .exc _ _ => true | _ => false) = true
    ∧ (0 < 8 ∧ 8 ≤ 8 ∧ MemType.uncached ≠ .device) := ⟨issues_mem, by decide +kernel⟩

theorem witness_AtomicResults : Issues memState (issued memState) ∧ atomics (issued memState) 0x7F8 8 = true ∧ atomics (issued memState) 0x7FC 4 = true := ⟨issues_mem, by decide +kernel⟩

theorem witness_StoreFrame : Issues memState (issued memState) ∧ (issued memState).core.stepGrant = false ∧ (issued memState).core.dbgStep = 0
    ∧ (match (issued memState).checkParts .store ((issued memState).eaOffset 1 3 0) 8 with
      | .ok v p => decide (p.length = 1) && decide (Memory.wf v.mem = true) && decide (v.mem.sb.length < 63) | _ => false) = true
    ∧ nextIs (exec (.st 1 1 3 false false 0) memState) (fun _ => true) = true := ⟨issues_mem, by decide +kernel⟩

/-- Memory with a stack and a return address on it. -/
def stackState : State := (memState.setSp 0x1000).writeG 1 0x2000

theorem witness_TransfersTrapsAndReturn :
    (Issues stackState (issued stackState) ∧ condHolds 0 (issued stackState).bank.fl = true ∧ condHolds 1 (issued stackState).bank.fl = false
      ∧ ((issued stackState).readG 1).toNat % 4 = 0 ∧ (issued stackState).readG 1 ≠ 0 ∧ (issued stackState).readG 2 = 0 ∧ (issued stackState).bank.sp.toNat % 8 = 0
      ∧ stores (issued stackState) 0xFF8 8 5 = true ∧ (match (issued stackState).load 0x1000 8 with | .ok _ v => decide (v % 4 = 0) | _ => false) = true
      ∧ (1 : BitVec 16) ≠ 0 ∧ (1 : BitVec 10) ≠ 0)
    ∧ (Issues (coreState.writeG 1 2) (issued (coreState.writeG 1 2)) ∧ ((issued (coreState.writeG 1 2)).readG 1).toNat % 4 ≠ 0)
    ∧ (Issues coreState (issued coreState) ∧ (issued coreState).bank.priv = true ∧ (issued coreState).bank.excm = true ∧ (issued coreState).lvl ≠ 7
      ∧ (issued coreState).core.active[(issued coreState).lvl] = true ∧ (issued coreState).bank.epc.toNat % 4 = 0)
    ∧ (Issues calmState (issued calmState) ∧ (issued calmState).bank.priv = true ∧ (issued calmState).bank.excm = false ∧ (issued calmState).lvl = 0)
    ∧ (∃ s : State, Issues s (issued s) ∧ (issued s).bank.priv = true ∧ (issued s).bank.excm = true ∧ (issued s).lvl ≠ 7 ∧ (issued s).bank.epc.toNat % 4 ≠ 0)
    ∧ (Issues userState (issued userState) ∧ (issued userState).bank.priv = false) :=
  ⟨⟨issues_of_some (by decide +kernel), by decide +kernel⟩, ⟨issues_of_some (by decide +kernel), by decide +kernel⟩,
    ⟨issues_core, by decide +kernel⟩, ⟨issues_of_some (by decide +kernel), by decide +kernel⟩,
    ⟨withBank coreState (fun b => { b with epc := 2 }), issues_of_some (by decide +kernel), by decide +kernel⟩, ⟨issues_user, by decide +kernel⟩⟩

/-- One element to fill or move. -/
def stringState (n : Word) : State := withBank (((coreState.writeG 28 n).writeG 29 0xFFFFFFFFFFFFB800).writeG 30 0xFFFFFFFFFFFFB900) fun b => { b with vswe := true }

/-- The second access of a move or a comparison. -/
def secondAccess (w : State) (v : Nat) : Bool :=
  (match w.store (w.readG 30) 8 (wd v) false with | .ok t => t.readG 28 == 1 | _ => false)
    && (match w.load (w.readG 30) 8 with | .ok t _ => t.readG 28 == 1 | _ => false) && w.readG 28 == 1

theorem witness_StringResults :
    (Issues (stringState 0) (issued (stringState 0)) ∧ (issued (stringState 0)).readG 28 = 0)
    ∧ (Issues (stringState 1) (issued (stringState 1)) ∧ (issued (stringState 1)).readG 28 = 1
      ∧ (match (issued (stringState 1)).store ((issued (stringState 1)).readG 30) 8 0 false with | .ok t => t.readG 28 == 1 | _ => false) = true
      ∧ (match (issued (stringState 1)).load ((issued (stringState 1)).readG 29) 8 with | .ok w v => secondAccess w v | _ => false) = true) :=
  ⟨⟨issues_of_some (by decide +kernel), by decide +kernel⟩, ⟨issues_of_some (by decide +kernel), by decide +kernel⟩⟩

/-- A tile instruction that cannot start: its domain is off. -/
def stuckState : State :=
  { memState with tile := { memState.tile with queue := [{ op := .tzero false 1, started := false }] } }

theorem witness_FencesTlbAndCacheMaintenance :
    (Issues memState (issued memState) ∧ (8 : BitVec 4) ≠ 0 ∧ (issued memState).super = true ∧ (issued memState).drainStores.tileStuck = false
      ∧ inScratch 0x1000 = false)
    ∧ (Issues stuckState (issued stuckState) ∧ (issued stuckState).super = true ∧ (issued stuckState).drainStores.tileStuck = true)
    ∧ (Issues userState (issued userState) ∧ (issued userState).super = false)
    ∧ (∀ k ∈ [AccKind.load, .store, .inval], maps (memState.writeG 1 0x1000) { kind := k, va := 0x1000, eaddr := 0x1000, priv := true } 0x1000 = true) :=
  ⟨⟨issues_mem, by decide +kernel⟩, ⟨issues_of_some (by decide +kernel), by decide +kernel⟩, ⟨issues_user, by decide +kernel⟩, by decide +kernel⟩

theorem witness_CsrAccessAndRegisterWrites : (Issues coreState (issued coreState) ∧ (issued coreState).super = true)
    ∧ windowAccess 0xFFFF 2 = false ∧ ((0x7FFF : BitVec 16).toNat + 1 ≤ 0x8000 ∧ smWf 0#8 0 (issued coreState).dep.data = true)
    ∧ State.reset.pwr.core ≠ .on ∧ (issued coreState).pwr.core = .on := ⟨⟨issues_core, by decide +kernel⟩, by decide +kernel⟩

/-- An event waits, routed to a level. -/
def eventState (n : Fin 64) (l : BitVec 3) : State :=
  { calmState with bm := { calmState.bm with evpend := 1#64 <<< n.val, evrt := calmState.bm.evrt.set n l } }

theorem witness_EventSourcesAndEntry :
    (Issues coreState (issued coreState) ∧ (issued coreState).super = true) ∧ (Issues userState (issued userState) ∧ (issued userState).super = false)
    ∧ (issued coreState).pwr.latching = false
    ∧ (∀ x ∈ [((33 : Fin 64), (3 : BitVec 3)), (32, 7)], let s := eventState x.1 x.2
        s.core.mode = .run ∧ s.wz.req = none ∧ s.core.devLoads = [] ∧ s.pickEvent = some x.1
        ∧ s.core.resident[levelOf s.bm.evrt[x.1]] = true ∧ s.res.bankPoison[levelOf s.bm.evrt[x.1]] = false ∧ s.lvl < levelOf s.bm.evrt[x.1])
    ∧ (issued coreState).pickEvent = none := ⟨⟨issues_core, by decide +kernel⟩, ⟨issues_user, by decide +kernel⟩, by decide +kernel⟩

/-- A counter object of this node, and the core whose G1 names it. -/
def syncState (count : Word) (target : BitVec 32) : State :=
  { coreState with sy := { coreState.sy with objs := [(0, { SyncObj.zero with count := count, target := target, mode := 1 })] } }

/-- A post of a doorbell kind that arrives, for object 0 of node 0 or for another node. -/
def postPacket (node : Nat) : Packet := { noPacket with inl := inlineOf [wd (2 ^ 60 + 2 ^ 56 + node * 2 ^ 13), 1, 0x7] }

theorem witness_SyncObjectOperations :
    (∀ s ∈ [syncState 5 5, syncState 4 5], Issues s (issued s))
    ∧ ((syncState 5 5).drainStores.tileStuck = false ∧ (syncState 5 5).performAll.postWaits 0 = false
      ∧ (match (syncState 5 5).performAll.post 0 1 true with | .ok _ => true | .error _ => false) = true
      ∧ (syncState 5 5).checkLocalOp 0 true false = none ∧ ((syncState 5 5).obj 0).ready = true ∧ ((syncState 4 5).obj 0).ready = false
      ∧ (syncState 5 5).checkLocalOp 0 true true = none ∧ (issued coreState).checkLocalOp 0 true false = some (.reason 6))
    ∧ ((issued coreState).sy.selPk = false ∧ ({ coreState with sy := { (issued coreState).sy with selPk := true } } : State).sy.selPk = true)
    ∧ ((packetWord (postPacket 0) 0).toNat / 2 ^ 60 = 1 ∧ nameNode (wd ((packetWord (postPacket 0) 0).toNat % 2 ^ 37)) = (issued coreState).straps.nodeId
      ∧ (syncState 5 5).checkObj 0 true = none ∧ (issued coreState).checkObj 0 true = some (.reason 6)
      ∧ nameNode (wd ((packetWord (postPacket 1) 0).toNat % 2 ^ 37)) ≠ (issued coreState).straps.nodeId)
    ∧ (let k : Parked := { obj := 0, tsb := 4, gen := 0 }
       let s := { syncState 5 5 with sy := { (syncState 5 5).sy with parked := [k] } }
       s.sy.parked = [k] ∧ s.bm.ready.length < 64 ∧ s.core.mode = .run ∧ s.mayTake k = true ∧ (s.obj k.obj).mode = 1
        ∧ smWf SyncObj.zero 0 s.sy.objs = true)
    ∧ (issued coreState).sy.parked = []
    ∧ 64 ≤ ({ coreState with bm := { (issued coreState).bm with ready := List.replicate 64 { tsb := 0, subpri := 0, tilewait := false } } } : State).bm.ready.length := by
  refine ⟨fun s h => ?_, by decide +kernel⟩
  simp only [List.mem_cons, List.not_mem_nil, or_false] at h
  rcases h with rfl | rfl <;> exact issues_of_some (by decide +kernel)

/-! ### The tile extension: hypotheses met -/

/-- The running context owns the tile extension, every tile register is enabled, and memory is mapped; the TLB is FLAT, which has
a slot for every line. -/
def tileState : State :=
  { memState with
    build := { memState.build with flatTlb := true }
    pwr := { memState.pwr with tile := .on, store := .on }
    tile := { memState.tile with en := true, uen := true, regs := { memState.tile.regs with tconf := BitVec.allOnes 22, ktype := 2 } }
    bm := { memState.bm with owner := some (memState.selfOwner 0) } }

/-- An instruction of `s` issues and passes the tile gate into a state with a property. -/
def tilePass (s : State) (p : State → Bool) : Bool :=
  match s.preIssue with
  | .stay _ => false
  | .go u => match u.obtainTile with
    | .ok v => decide (u.pwr.tile = .on) && !u.tileRetired && u.tile.en && (u.super || u.tile.uen) && decide (v.tile.queue.length < 16) && p v
    | _ => false

/-- Lines translate. -/
def lined (v : State) (kind : AccKind) (len : Nat) (l : List Word) : Bool :=
  match v.translateLines kind none len l with
  | .ok w _ => decide (w.tile.queue.length < 16)
  | _ => false

/-- A fold fill of stope column 0. -/
def foldFill : OpenFill := { unit := 0, spare := none, restarts := 0, first := none, poisoned := 0, started := 0 }

/-- An outer product of the queue waits for a fold fill. -/
def blockedState : State :=
  { tileState with
    tile := { tileState.tile with queue := [{ op := .opa 0 0 0 0 0 0 0 0, started := false }] }
    res := { tileState.res with fills := tileState.res.fills.set 0 { tileState.res.fills[(0 : Fin 5)] with openFill := some foldFill } } }

/-- Every register is enabled, no reserved operand is needed, and the scale slots are usable. -/
theorem witness_TileConfigDispatch : tilePass tileState (fun v => let c := v.mirror.tconf
    (List.range 8).all (fun i => tEnabled c i && vEnabled c i) && (List.range 4).all (kEnabled c ·) && ssEnabled c && !m0Block 0
      && m0Block 0x10 && fmtHasBlock (m0Fmt 0x10) && decide (m0Last 0x10 (tileDepth (fmtWidth (m0Fmt 0x10))) ≤ 7)
      && !v.tileStuck) = true
    ∧ (Issues tileState (issued tileState) ∧ (issued tileState).tileStuck = false)
    ∧ tilePass blockedState (fun v => ssEnabled v.mirror.tconf && v.tileStuck) = true
    ∧ (Issues blockedState (issued blockedState) ∧ (issued blockedState).tileStuck = true) :=
  ⟨by decide +kernel, ⟨issues_of_some (by decide +kernel), by decide +kernel⟩, by decide +kernel,
    ⟨issues_of_some (by decide +kernel), by decide +kernel⟩⟩

theorem witness_TileMemoryDispatch :
    tilePass tileState (fun v => lined v .load 128 (lineAddrs 0 0x400000 128) && operandAligned 0 0x400000 128 none) = true
    ∧ tilePass tileState (fun v => lined v .store 128 (lineAddrs 0 0x400000 128) && operandAligned 0 0x400000 128 (some 128)) = true
    ∧ tilePass (tileState.setRegs { tileState.tile.regs with ss := tileState.tile.regs.ss.set 0 7 }) (fun v =>
        m0Fmt v.mirror.ss[(0 : Fin 64)] == 7 && !m0Block v.mirror.ss[(0 : Fin 64)] && tileDepth (widthOfCode 3) == 64 && tileDepth (fmtWidth 7) == 64
        && lined v .load 256 (lineAddrs 0 0x400000 64) && operandAligned 0 0x400000 128 none
        && lined v .store 256 (lineAddrs 0 0x400000 64) && operandAligned 0 0x400000 128 (some 256)) = true
    ∧ tilePass (tileState.setRegs { tileState.tile.regs with ss := tileState.tile.regs.ss.set 63 0x10 }) (fun v =>
        m0Block v.mirror.ss[(63 : Fin 64)] && m0Fmt v.mirror.ss[(63 : Fin 64)] == 0 && fmtHasBlock 0
        && !scalesDisabled v.mirror v.mirror.ss[(63 : Fin 64)] (tileDepth (fmtWidth 0))
        && !scalesDisabled v.mirror v.mirror.ss[(63 : Fin 64)] 128 && decide (m0Last v.mirror.ss[(63 : Fin 64)] 128 ≤ 7)
        && decide (m0Last v.mirror.ss[(63 : Fin 64)] (tileDepth (fmtWidth 0)) ≤ 7)) = true
    ∧ tilePass tileState (fun v => lined v .load 512 (lineAddrs 0x80 0 1) && lined v .store 512 (lineAddrs 0x80 512 1)
        && lined v .load 4096 (lineAddrs 0 0 1)) = true := by decide +kernel

/-- A seam image without stages that stores nothing, OFMT 15, whose tables make its CRC 0. -/
def seamImage : Nat := 0x4D414553 + 2 ^ 32 + 15 * 2 ^ 64 + 15938687095519486191 * 2 ^ (8 * 0x100)

theorem crcOver_add (d m n c : Nat) : crcOver d (m + n) c = crcOver (d / 256 ^ m) n (crcOver d m c) := by
  induction m generalizing d c with
  | zero => simp [crcOver]
  | succ m ih => rw [Nat.succ_add_eq_add_succ, Nat.add_succ]; simp only [crcOver]; rw [ih, Nat.div_div_eq_div_mul, Nat.pow_succ, Nat.mul_comm]

theorem crcOver_zeros (n : Nat) : crcOver 0 n 0 = 0 := by
  induction n with
  | zero => rfl
  | succ n ih => simpa [crcOver, crcByte, crcBit, bitOf] using ih

theorem crc_pieces : ∀ x ∈ [(0, 16, 0, 1863220437047755201), (128, 24, 1863220437047755201, 420048455308052103),
    (320, 24, 420048455308052103, 3834295920765595453), (512, 24, 3834295920765595453, 3678681694313632838),
    (704, 24, 3678681694313632838, 15133356166181416298), (896, 24, 15133356166181416298, 4764172203672146573),
    (1088, 24, 4764172203672146573, 281188874594485188), (1280, 24, 281188874594485188, 8286948159056594343),
    (1472, 24, 8286948159056594343, 13106892854937450955), (1664, 24, 13106892854937450955, 14457833765216618974),
    (1856, 24, 14457833765216618974, 17266953195575783901), (2048, 8, 17266953195575783901, 0)],
    crcOver (seamImage / 2 ^ x.1) x.2.1 x.2.2.1 = x.2.2.2 := by decide +kernel

theorem image_crc : crc64 seamImage 0xFF8 = 0 := by
  have h := crc_pieces
  simp only [List.mem_cons, List.not_mem_nil, or_false, forall_eq_or_imp, forall_eq] at h
  obtain ⟨h0, h1, h2, h3, h4, h5, h6, h7, h8, h9, h10, h11⟩ := h
  have step (a b n m c c' : Nat) (k : Nat) (e : b = a + 8 * n) (hc : crcOver (seamImage / 2 ^ a) n c = c')
      (hk : k = n + m) : crcOver (seamImage / 2 ^ a) k c = crcOver (seamImage / 2 ^ b) m c' := by
    rw [hk, crcOver_add, hc, e, Nat.div_div_eq_div_mul, Nat.pow_add, Nat.pow_mul]
  unfold crc64
  have z : seamImage = seamImage / 2 ^ 0 := by simp
  rw [z]
  rw [step 0 128 16 4072 _ _ _ rfl h0 rfl, step 128 320 24 4048 _ _ _ rfl h1 rfl, step 320 512 24 4024 _ _ _ rfl h2 rfl,
    step 512 704 24 4000 _ _ _ rfl h3 rfl, step 704 896 24 3976 _ _ _ rfl h4 rfl, step 896 1088 24 3952 _ _ _ rfl h5 rfl,
    step 1088 1280 24 3928 _ _ _ rfl h6 rfl, step 1280 1472 24 3904 _ _ _ rfl h7 rfl, step 1472 1664 24 3880 _ _ _ rfl h8 rfl,
    step 1664 1856 24 3856 _ _ _ rfl h9 rfl, step 1856 2048 24 3832 _ _ _ rfl h10 rfl, step 2048 2112 8 3824 _ _ _ rfl h11 rfl]
  have e : seamImage / 2 ^ 2112 = 0 := by decide +kernel
  rw [e, crcOver_zeros]

theorem image_good : imgCheck (BitVec.ofNat 32768 seamImage) = none := by
  have h : (BitVec.ofNat 32768 seamImage).toNat = seamImage := by decide +kernel
  unfold imgCheck
  rw [h, image_crc]
  decide +kernel

/-- Memory that holds the image at 0. -/
def imageState : State :=
  { tileState with mem := { tileState.mem with cells := [(0, 83), (1, 69), (2, 65), (3, 77), (4, 1), (8, 15), (256, 239), (257, 160), (258, 138), (259, 114), (260, 119), (261, 151), (262, 49), (263, 221)] } }

/-- Chunks that hold a number's pieces read as the number. -/
theorem readChunks_pieces (s : State) (k : Nat) : ∀ (seg : Segment) (n : Nat),
    (∀ i < k, s.mem.readTy seg.ty (seg.pa + 32 * i) 32 = n / 2 ^ (256 * i) % 2 ^ 256) → (s.readChunks seg k).1 = n % 2 ^ (256 * k) := by
  induction k with
  | zero => intro seg n _; simp [State.readChunks, Nat.mod_one]
  | succ k ih =>
    intro seg n h
    have h0 := h 0 (Nat.succ_pos k)
    have e := ih { seg with pa := seg.pa + 32 } (n / 2 ^ 256) (fun i hi => by
      have := h (i + 1) (Nat.succ_lt_succ hi)
      rw [Nat.div_div_eq_div_mul, ← Nat.pow_add]
      rw [show 256 + 256 * i = 256 * (i + 1) by omega, ← this]
      congr 1; simp only []; omega)
    simp only [Nat.mul_zero, Nat.add_zero, Nat.pow_zero, Nat.div_one] at h0
    simp only [State.readChunks]
    rw [h0, e, show 256 * (k + 1) = 256 + 256 * k by omega, Nat.pow_add, Nat.mod_mul]

/-- The state after the wait for free segments, and the line's segments, of a line load. -/
def lineOf (v : State) : Option (State × List Segment) :=
  match v.translateLines .load none 4096 (lineAddrs 0 0 1) with
  | .ok w ls => some (w, ls.flatten)
  | _ => none

theorem image_pieces : ∀ i < 128, imageState.mem.readTy .cached (0 + 32 * i) 32 = seamImage / 2 ^ (256 * i) % 2 ^ 256 := by decide +kernel

theorem image_fits : seamImage % 2 ^ (256 * 128) = seamImage := by decide +kernel

theorem seamTake_good (s : State) (p : Bool) (n : Nat) (h : imgCheck (BitVec.ofNat 32768 n) = none) : (s.seamTake 0 0 n p).2 = none := by
  unfold State.seamTake
  simp only [h]

/-- SEAMLD reads the image and the slot takes it: the line is one segment, memory is as it was, and the image is good. -/
theorem witness_seam_load :
    tilePass imageState (fun v => (lineOf v).any fun x => decide (x.1.tile.queue.length < 16) && !x.1.tileStuck && !x.1.drainTile.unbacked 0
      && decide (x.1.drainTile.mem = imageState.mem)) = true
    ∧ tilePass imageState (fun v => (lineOf v).any fun x => decide (x.2 = [{ pa := 0, len := 4096, ty := .cached }])) = true
    ∧ ∀ (s : State) (p : Bool), (s.seamTake 0 0 seamImage p).2 = none :=
  ⟨by decide +kernel, by decide +kernel, fun s p => seamTake_good s p _ image_good⟩

/-- The image is in slot 0. -/
def koutState (ofmt : Nat) : State :=
  let slot : SeamSlot := { image := BitVec.ofNat 32768 (ofmt * 2 ^ 64), valid := true, poison := false, src := 0 }
  { tileState with tile := { tileState.tile with seam := tileState.tile.seam.set 0 slot } }

theorem witness_TileComputeDispatch :
    tilePass tileState (fun v => let m := v.mirror
      kEnabled m.tconf 0 && tEnabled m.tconf 0 && !m.ktype.getLsbD 0 && !ctlRangeBad 0 0 && !ctlSr 0 && !ctlMx 0 && ssEnabled m.tconf
        && !m0Block m.ss[ctlSsa 0] && m0Fmt m.ss[ctlSsa 0] == 0) = true
    ∧ tilePass tileState (fun v => let m := v.mirror
      ctlMx 0x4000 && !ctlMxBad 0x4000 0 0 && !ctlRangeBad 0x4000 0
        && (rangeBlocks 0x4000 0).all (fun b => vEnabled m.tconf (ctlVa 0x4000 + b / 4) && vEnabled m.tconf (ctlVb 0x4000 + b / 4))) = true
    ∧ tilePass tileState (fun v => let m := v.mirror
      ctlSr 0x8000000000 && qEnabled m.tconf && kEnabled m.tconf 1 && m.ktype.getLsbD 1 && !m.ktype.getLsbD 0 && !ctlRangeBad 0 4
        && fieldOf 0 14 9 == 0) = true
    ∧ tilePass (koutState 15) (fun v => let img := v.tile.seam[(0 : Fin 4)].image
      v.tile.seam[(0 : Fin 4)].valid && imgOfmt img == 15 && imgMasks img == 0 && imgRed img == 0 && (imgReadsV img).isEmpty
        && !m0Block v.mirror.ss[(0 : Fin 64)]) = true
    ∧ tilePass (koutState 7) (fun v => imgOfmt v.tile.seam[(0 : Fin 4)].image == 7 && lined v .store 256 (lineAddrs 0 0x400000 128)
      && operandAligned 0 0x400000 128 (some 256)) = true := by decide +kernel

theorem witness_TileGateAndQueueEntries :
    (Issues memState (issued memState) ∧ (issued memState).pwr.tile ≠ .on)
    ∧ (let s : State := { tileState with tile := { tileState.tile with en := false } }
       Issues s (issued s) ∧ (issued s).pwr.tile = .on ∧ (issued s).tileRetired = false ∧ (issued s).tile.en = false)
    ∧ (let s : State := { userState with pwr := { userState.pwr with tile := .on }, tile := { userState.tile with en := true } }
       Issues s (issued s) ∧ (issued s).tile.en = true ∧ (issued s).super = false ∧ (issued s).tile.uen = false)
    ∧ tilePass (tileState.setRegs { tileState.tile.regs with tconf := 0 }) (fun v => !tEnabled v.mirror.tconf 0) = true
    ∧ (∀ op ∈ [TileOp.tzero false 1, .tzero true 0x80, .tmov false 0 7, .scaleSet 63 7 1, .tcfg 0],
        ({ tileState with tile := { tileState.tile with queue := [{ op := op, started := false }] } } : State).foldOpen = false
        ∧ op.segments = [])
    ∧ tileState.pwr.tile = .on ∧ tileState.core.mode ≠ .frozen ∧ elementList [(0x3FFF, 1)] = true
    ∧ ((TileOp.tzero false 1).unit ≠ .stope ∧ (TileOp.tzero false 1).unit ≠ .seam)
    ∧ ((TileOp.opa 0 0 0 0 0 0 0 0).unit = .stope ∧ (TileOp.kout 0 0 0 false 0 [] none).unit = .seam) :=
  ⟨⟨issues_mem, by decide +kernel⟩, ⟨issues_of_some (by decide +kernel), by decide +kernel⟩,
    ⟨issues_of_some (by decide +kernel), by decide +kernel⟩, by decide +kernel⟩

/-- STEP: nothing owned; the journal on with a ring of records; live tile state. -/
theorem witness_StepsAndStreamDraws :
    (Issues coreState (issued coreState) ∧ (issued coreState).jnl.pend.length < 8 ∧ (issued coreState).ownsLive = false
      ∧ (issued coreState).jnl.en = false)
    ∧ (let s : State := { coreState with jnl := { coreState.jnl with en := true } }
       Issues s (issued s) ∧ (issued s).ownsLive = false ∧ (issued s).jnl.en = true ∧ (issued s).jnl.pend = [])
    ∧ (Issues tileState (issued tileState) ∧ (issued tileState).ownsLive = true ∧ (issued tileState).tile.queue.length < 16)
    ∧ (tileState.foldOpen = false ∧ tileState.core.mode ≠ .frozen)
    ∧ tilePass tileState (fun v => qEnabled v.mirror.tconf && !v.tileStuck && !v.drainTile.tile.regs.qpois.getLsbD 0
        && !qArmed v.drainTile.tile.regs.q[(0 : Fin 16)]) = true
    ∧ tilePass (tileState.setRegs { tileState.tile.regs with qpois := 0x8000 }) (fun v => v.drainTile.tile.regs.qpois.getLsbD 15) = true :=
  ⟨⟨issues_core, by decide +kernel⟩, ⟨issues_of_some (by decide +kernel), by decide +kernel⟩,
    ⟨issues_of_some (by decide +kernel), by decide +kernel⟩, by decide +kernel⟩

/-- Channel 31 serves the journal, and a log tier takes the upper half of memory. -/
def journalState (addr : Nat) : State :=
  { coreState with
    xl := { coreState.xl with pmat := coreState.xl.pmat.set 0 { wholeMap with tier := 2, log2size := 20 } }
    jnl := { coreState.jnl with jch := true, pend := [{ seq := 0, addr := addr, data := some 1 }] } }

theorem witness_JournalAppends :
    ((journalState 0xFFFC0).jnl.jch = true ∧ (journalState 0xFFFC0).inLog 0xFFFC0 = true) ∧ (journalState 0x100000).inLog 0x100000 = false
    ∧ coreState.tileStuck = false ∧ blockedState.tileStuck = true := by
  decide +kernel

/-! ### The deputy: hypotheses met -/

/-- The deputy running at the start of program memory, its state changed. -/
def depState (f : Deputy → Deputy) : State := { coreState with dep := f { State.reset.dep with pc := 0 } }

/-- The deputy as it stands. -/
abbrev depPlain : State := depState id

/-- A data access is performed. -/
def performed {α : Type} (x : DepAcc α) : Bool := match x with | .ok _ _ => true | _ => false
/-- It is refused with a reason. -/
def refusedFor {α : Type} (x : DepAcc α) (n : Nat) : Bool := match x with | .refuse _ r => r == n | _ => false
/-- It waits. -/
def waits {α : Type} (x : DepAcc α) : Bool := match x with | .wait => true | _ => false

theorem ready_plain : DepReady depPlain ∧ DepStraight depPlain := by
  unfold DepReady DepStraight
  decide +kernel

theorem witness_DeputyRegisterResults : DepReady depPlain ∧ DepStraight depPlain := ready_plain

/-- In data SRAM, in the window, below the window's start and from its last byte around to data SRAM; the stack at both of its bounds; the
queue of posts at 4. -/
theorem witness_DeputyMemoryResults : DepReady depPlain ∧ DepStraight depPlain ∧ (0 : DReg) ≠ 1
    ∧ performed (depPlain.dataLoad false 0 2) = true ∧ performed (depPlain.dataStore false 0 2 5) = true
    ∧ performed (depPlain.dataStore false 0x7FFF 1 5) = true ∧ performed (depPlain.dataStore false 0x8000 2 5) = true
    ∧ performed (depPlain.dataLoad false 0x8000 2) = true
    ∧ (depPlain.dep.stackBad (depPlain.dep.sp - 2) = false ∧ performed (depPlain.dataStore false (depPlain.dep.sp - 2) 2 7) = true)
    ∧ ((depState fun d => { d with sp := 0x7F00 }).dep.stackBad 0x7F00 = false
      ∧ performed ((depState fun d => { d with sp := 0x7F00 }).dataLoad false 0x7F00 2) = true)
    ∧ ((0x7FFE : Half).toNat + 1 < 0x8000 + 1 ∧ (0x7FFD : Half).toNat + 1 < 0x8000 ∧ smWf 0 0 depPlain.dep.data = true
      ∧ performed (depPlain.dataStore false 0x7FFD 2 0x1234) = true) := ⟨ready_plain.1, ready_plain.2, by decide +kernel⟩

/-- A posted write. -/
def post : WinWrite := { addr := 0x8000, bytes := 2, value := 0, secure := true }

theorem witness_PostedWritesFit : PostsFit (depState fun d => { d with wqueue := [post, post, post] })
    ∧ performed ((depState fun d => { d with wqueue := [post, post, post] }).dataStore false 0x8000 2 5) = true
    ∧ waits ((depState fun d => { d with wqueue := [post, post, post, post] }).dataStore false 0x8000 2 5) = true := by
  unfold PostsFit
  decide +kernel

/-- A deputy whose last jump was delayed. -/
def slotState (push pop : Bool) : State := depState fun d => { d with pc := 1, pair := some { addr := 0, target := 8, push := push, pop := pop } }

theorem witness_DeputyBranchesAndDelaySlots :
    (DepReady depPlain ∧ depCond 0 depPlain.dep = false ∧ depCond 1 depPlain.dep = true ∧ DepStraight depPlain
      ∧ inExt 0 = inExt 0x37FF ∧ inExt 0 = inExt 1 ∧ performed (depPlain.pushWord false 1) = true)
    ∧ (let s := depState fun d => { d with sp := 0x7FFC }
       performed (s.popWord false) = true ∧ inExt 0 = inExt 0
       ∧ (match s.popWord false with | .ok u _ => performed (u.popWord false) | _ => false) = true)
    ∧ (let s := slotState false false
       s.dep.halted = false ∧ s.dep.waiting = false ∧ progHole s.dep.pc = false ∧ s.dep.fetchBad = false ∧ s.dep.pair ≠ none ∧ inExt 0 = inExt 8)
    ∧ performed ((slotState true false).pushWord false 2) = true
    ∧ performed ((depState fun d => { d with sp := 0x7FFC }).popWord false) = true :=
  ⟨⟨ready_plain.1, by decide +kernel, by decide +kernel, ready_plain.2, by decide +kernel⟩, by decide +kernel⟩

theorem witness_DeputySystemInstructions : DepReady depPlain ∧ DepStraight depPlain ∧ depPlain.dep.ipend &&& depPlain.dep.iena = 0 :=
  ⟨ready_plain.1, ready_plain.2, by decide +kernel⟩

/-- One element is left to repeat. -/
def repeatState (a b : Half) : State :=
  depState fun d => (((d.storeSram 0x10 2 a.toNat).storeSram 0x20 2 b.toNat).setReg 6 0x10).setReg 5 0x20 |>.setReg 7 1

/-- What the repeats' loads, stores and comparisons need; the words equal and different. -/
def repeats (s : State) (n : Nat) (eq : Bool) : Bool :=
  performed (s.dataStore false (s.dep.reg 5) n 0) && match s.dataLoad false (s.dep.reg 6) n with
    | .ok t v => (match t.dataStore false (t.dep.reg 5) n v.toNat with | .ok u _ => u.dep.reg 7 == 1 | _ => false)
      && (match t.dataLoad false (t.dep.reg 5) n with | .ok u w => u.dep.reg 7 == 1 && (v == w) == eq | _ => false)
    | _ => false

theorem witness_RepeatInstructions : DepReady depPlain ∧ DepStraight depPlain ∧ depPlain.dep.reg 7 = 0
    ∧ (DepReady (repeatState 1 2) ∧ DepStraight (repeatState 1 2) ∧ (repeatState 1 2).dep.reg 7 = 1 ∧ (repeatState 1 2).dep.asyncVector = none)
    ∧ repeats (repeatState 1 2) 2 false = true ∧ repeats (repeatState 1 2) 1 false = true ∧ repeats (repeatState 1 1) 2 true = true
    ∧ repeats (repeatState 0x100 0) 1 true = true := by
  refine ⟨ready_plain.1, ready_plain.2, by decide +kernel, ?_, by decide +kernel⟩
  unfold DepReady DepStraight
  decide +kernel

theorem witness_DeputyVectorsAndFaults :
    (let s := depState fun d => { d with ie := true, iena := 0xFFFF, ipend := 0x4010 }
     s.dep.asyncVector = some 4 ∧ s.dep.stackBad (s.dep.sp - 2) = false ∧ s.dep.stackBad (s.dep.sp - 4) = false ∧ 4 ≤ s.dep.sp.toNat
     ∧ s.dep.sp.toNat ≤ 0x8000 ∧ smWf 0 0 s.dep.data = true)
    ∧ (depState fun d => { d with ie := true, iena := 0xFFFF, ipend := 0xC000 }).dep.asyncVector = some 14
    ∧ (depState fun d => { d with ie := true, iena := 0xFFFF, ipend := 0x800F }).dep.asyncVector = none
    ∧ depPlain.dep.shValid = false
    ∧ (let s := depState fun d => { d with sp := 0x7F01 }
       (s.dep.sp - 2).getLsbD 0 = true ∧ s.dep.sp.getLsbD 0 = true ∧ (s.dep.sp - 2).toNat < s.dep.splo.toNat)
    ∧ (let s := depState fun d => { d with sp := 0x7EFE }
       s.dep.sp.toNat < s.dep.splo.toNat)
    ∧ (let s := depState fun d => { d with sp := 0x8004 }
       s.dep.sphi.toNat < (s.dep.sp - 2).toNat + 1 ∧ s.dep.sphi.toNat < s.dep.sp.toNat + 1)
    ∧ DepReady depPlain ∧ (1 : BitVec 1) ≠ 0
    ∧ (refusedFor (depPlain.dataStore false 0xBFFE 2 5) 1 = true ∧ refusedFor (depPlain.dataLoad false 0xBFFE 2) 1 = true)
    ∧ (inExt depPlain.dep.pc = false ∧ inExt 0x3800 = true ∧ inExt 0x3FFF = true) :=
  ⟨by decide +kernel, by decide +kernel, by decide +kernel, by decide +kernel, by decide +kernel, by decide +kernel, by decide +kernel,
    ready_plain.1, by decide +kernel⟩

/-- The core window on a page, a write of two bytes posted at its offset. -/
def windowState (page : BitVec 8) (off : Half) (busy : Bool) : State :=
  let s := depState fun d => { d with winsel := page, wqueue := [{ post with addr := 0xC000 + off }] }
  { s with ts := { s.ts with busy := busy } }

/-- Its performance. -/
def windowDone (s : State) : Bool :=
  match s.dep.wqueue with
  | w :: q => (State.winPerform { s with dep := { s.dep with wqueue := q } } w).isSome
  | [] => false

theorem witness_WatchdogTimerAndWindow :
    (let s := depState fun d => { d with bootStatus := 1 }
     s.dep.wdEn = true ∧ s.dep.bootStatus = 1 ∧ s.dep.wdSecond = false)
    ∧ (let s := depState fun d => { d with bootStatus := 1, wdSecond := true }
       s.dep.wdEn = true ∧ s.dep.bootStatus = 1 ∧ s.dep.wdSecond = true)
    ∧ (depPlain.dep.bootStatus ≠ 1 ∧ ((depState fun d => { d with wdEn := false }).dep.wdEn = false))
    ∧ ((depState fun d => { d with tmrEn := true }).dep.tmrEn = true ∧ depPlain.dep.tmrEn = false)
    ∧ depPlain.dep.wqueue = [] ∧ windowDone (windowState 0 0x1406 false) = true ∧ windowDone (windowState 0 0x1406 true) = false
    ∧ ((windowState 0 0x1406 true).flushed = none ∧ ((windowState 0 0x1406 false).flushed.any fun t => t.coreWindowFault false 0x1407 == none) = true
      ∧ ((windowState 0x20 0 false).flushed.any fun t => (t.coreWindowFault false 0).isSome) = true)
    ∧ (((depPlain.coreWindowPut 0x1406 2 5 true).any fun t => decide (t.dep.wqueue = [])) = true
      ∧ ((depState fun d => { d with winsel := 0x20 }).coreWindowFault (!true) 0).isSome = true ∧ depPlain.coreWindowFault (!true) 0x1406 = none
      ∧ ({ depPlain with ts := { depPlain.ts with busy := true } } : State).coreWindowPut 0x1406 2 5 true = none)
    ∧ ((windowState 0x20 0 false).coreWindowFault false 0).isSome = true ∧ (windowState 0 0 false).coreWindowFault false 0x3FFF = none
    ∧ ((windowState 3 0 false).coreWindowFault false 0x800).isSome = true ∧ (windowState 3 0 false).coreWindowFault false 0x7FF = none
    ∧ ((windowState 2 0 false).coreWindowFault true 0).isSome = true ∧ (windowState 0 0 false).coreWindowFault true 0 = none := by decide +kernel

theorem witness_ProgramMemoryLock : depPlain.dep.lock = false ∧ depPlain.dep.pmaddr.toNat < 0x4000
    ∧ (depState fun d => { d with lock := true }).dep.lock = true
    ∧ (depState fun d => { d with pmaddr := 0x3FFF }).dep.pmaddr.toNat < 0x4000 := by decide +kernel

/-! ### The winze port and the memory system: hypotheses met -/

/-- The core with or without a winze port. -/
def winzeState (present : Bool) : State := { coreState with build := { coreState.build with winze := present } }
/-- A request for the oldest instruction, offered or transferred. -/
def wzReq (sent : Bool) : WzReq :=
  { tag := 3, op := 0, func := 0, a := 0, b := 0, priv := true, lvl := 0, csr := false, rd := 5, word := 0, spec := false, apar := 0, bpar := 0,
    pc := 0, transferred := sent, answer := none }
/-- The port with a request. -/
def wzState (sent : Bool) : State := withBank { winzeState true with wz := { coreState.wz with req := some (wzReq sent) } } fun b => { b with excm := false, ml := 0 }
/-- A request made early for the instruction at the reset vector, G5 its destination. -/
def earlyReq (sent : Bool) (a : Option WzAnswer) : WzReq :=
  { wzReq sent with word := encR 0x38 5 1 2 0, spec := true, pc := coreState.bank.pc, answer := a }
/-- The port takes speculative requests, and has one. -/
def specState (l : List WzReq) : State := { winzeState true with wz := { coreState.wz with specsafe := true, early := l } }

theorem witness_WinzePort :
    (Issues (winzeState true) (issued (winzeState true)) ∧ (issued (winzeState true)).wz.early = [] ∧ (issued (winzeState true)).build.winze = true
      ∧ (issued (winzeState true)).wz.pickTag = some 0 ∧ (3 : BitVec 3).toNat < 4 ∧ 4 ≤ (4 : BitVec 3).toNat)
    ∧ (Issues (winzeState false) (issued (winzeState false)) ∧ (issued (winzeState false)).wz.early = [] ∧ (issued (winzeState false)).build.winze = false)
    ∧ ((winzeState true).wz.specsafe = false ∧ (specState []).coreRuns = true ∧ (specState []).build.winze = true ∧ (specState []).wz.specsafe = true
      ∧ (specState []).wz.pickTag = some 0)
    ∧ (let s := specState [earlyReq true (some (.ok 9))]
       let r := earlyReq true (some (.ok 9))
       Issues s (issued s) ∧ (issued s).build.winze = true ∧ (issued s).wz.early = [r] ∧ r.csr = false ∧ r.spec = true ∧ r.priv = (issued s).super
       ∧ r.lvl = (issued s).lvl ∧ r.pc = (issued s).bank.pc ∧ r.answer = some (.ok 9) ∧ r.a = (issued s).readG 1 ∧ r.b = (issued s).readG 2
       ∧ r.apar = byteParity r.a ∧ r.bpar = byteParity r.b ∧ r.word = encR (0x38 + r.op.toNat) r.rd 1 2 r.func.toNat)
    ∧ (∀ sent, (specState [earlyReq sent none]).wz.req = none ∧ (specState [earlyReq sent none]).wz.early = [earlyReq sent none]
      ∧ (earlyReq sent none).transferred = sent ∧ (earlyReq sent none).answer = none)
    ∧ ((wzState false).wz.req = some (wzReq false) ∧ (wzState false).wz.early = [] ∧ (wzState false).core.entryWaits = false)
    ∧ ((wzState true).wz.req = some (wzReq true) ∧ (wzState true).wz.early = [] ∧ (wzState true).core.entryWaits = false
      ∧ (wzReq true).transferred = true ∧ (wzState true).lvl ≠ 7 ∧ (wzState true).bank.excm = false ∧ (4 : BitVec 4) ≠ (wzReq true).tag) :=
  ⟨⟨issues_of_some (by decide +kernel), by decide +kernel⟩, ⟨issues_of_some (by decide +kernel), by decide +kernel⟩, by decide +kernel,
    ⟨issues_of_some (by decide +kernel), by decide +kernel⟩, by decide +kernel, by decide +kernel, by decide +kernel⟩

/-- A buffered store of 8 bytes, a release or not. -/
def buffered (pa : Nat) (release : Bool := false) : StoreEntry := { pa := pa, size := 8, data := 1, ty := .cached, release := release, poison := false }
/-- The stores of a buffer. -/
def bufferState (l : List StoreEntry) : State := { memState with mem := { memState.mem with sb := l } }
/-- A device load of level 0 waits. -/
def loadState (d : DevDest) : State :=
  { memState with core := { memState.core with devLoads := [{ level := levelOf 0, dest := d, pa := 0, va := 0, background := false, tries := 0 }] } }

/-- A slot that maps page 1 to itself. -/
def pageSlot : TlbSlot :=
  { vpage := 1, span := 1, asid := 0, g := true, ipage := 1, ppage := 1, r := true, w := true, x := true, u := true, s1 := false, mt := 0, d := true }
/-- The prefetcher with 4 trackers, the last in use, over a FLAT TLB. -/
def streamState (k : Option Tracker) (slots : List TlbSlot) : State :=
  { memState with build := { memState.build with flatTlb := true }, xl := { memState.xl with tlb := slots }
                  pf := { memState.pf with en := true, trackers := 4, streams := memState.pf.streams.set 3 k } }
/-- A stream of three misses, the last in page 1, and one whose last miss is in page 0. -/
def streamAt (last : Nat) (misses : Nat) : Tracker := { last := last, stride := 1, misses := misses, ahead := 0 }

/-- Where the draw finds the slot still resident, the lookup answers it. -/
theorem lookTlb_pageSlot (h : Config.tlbHit (streamState (some (streamAt 510 3)) [pageSlot]).free = true) :
    (streamState (some (streamAt 510 3)) [pageSlot]).lookTlb false 0x7FC0
      = ((streamState (some (streamAt 510 3)) [pageSlot]).drawn, some pageSlot) := by
  have f : (streamState (some (streamAt 510 3)) [pageSlot]).xl.tlb.find?
      (fun t => t.covers 0x7FC0 (streamState (some (streamAt 510 3)) [pageSlot]).xl.asid) = some pageSlot := by decide +kernel
  have b : (streamState (some (streamAt 510 3)) [pageSlot]).build.flatTlb = true := by decide +kernel
  have d : (streamState (some (streamAt 510 3)) [pageSlot]).drawn.build.flatTlb = true := b
  simp only [State.lookTlb, State.lookL2, b, d, f, h, if_true, List.find?_nil]

theorem witness_StoreBufferReassignmentPrefetch :
    ((bufferState [buffered 0, buffered 7]).mem.sb[1]? = some (buffered 7)
      ∧ (∃ x ∈ (bufferState [buffered 0, buffered 7]).mem.sb.take 1, overlaps x.pa x.size 7 8 = true)
      ∧ (bufferState [buffered 0, buffered 7]).mem.sb[2]? = none)
    ∧ ((bufferState [buffered 0, buffered 64 true]).mem.sb[1]? = some (buffered 64 true) ∧ (buffered 64 true).release = true
      ∧ (bufferState [buffered 64 true]).mem.sb[0]? = some (buffered 64 true)
      ∧ (bufferState [buffered 0, buffered 8]).mem.sb[1]? = some (buffered 8) ∧ (buffered 8).release = false
      ∧ ∀ x ∈ (bufferState [buffered 0, buffered 8]).mem.sb.take 1, overlaps x.pa x.size 8 8 = false ∧ ¬(x.ty = .device ∧ (buffered 8).ty = .device))
    ∧ ((loadState (.reg 5 3 false)).core.devLoads = [{ level := levelOf 0, dest := .reg 5 3 false, pa := 0, va := 0, background := false, tries := 0 }]
      ∧ (loadState .ret).core.devLoads = [{ level := levelOf 0, dest := .ret, pa := 0, va := 0, background := false, tries := 0 }]
      ∧ (4 : Word).toNat % 4 = 0)
    ∧ (let s : State := { memState with ts := { memState.ts with busy := true } }
       s.ts.busy = true)
    ∧ (memState.ts.busy = false ∧ memState.tsSteps < 15 ∧ memState.ts.cache16 = memState.ts.cache16
      ∧ (∃ n : BitVec 4, n.toNat ≤ memState.tsSteps ∧ n ≠ memState.ts.cache16)) :=
  ⟨by decide +kernel, by decide +kernel, by decide +kernel, rfl, by decide +kernel, by decide +kernel, rfl, 1, by decide +kernel⟩

/-- A prefetch line's clauses: no tracker, one not confirmed, a page border, no slot, and a slot that is still resident. -/
theorem witness_StreamPrefetch :
    ((streamState none []).pf.en = true ∧ (streamState none []).pf.streams[regFin 3] = none ∧ (4 : BitVec 6).toNat ≤ (4 : BitVec 5).toNat)
    ∧ (∀ l ∈ [(255, 2), (255, 3), (510, 3)], let s := streamState (some (streamAt l.1 l.2)) []
        s.pf.en = true ∧ (3 : BitVec 5).toNat < s.pf.trackers.toNat ∧ s.pf.streams[regFin 3] = some (streamAt l.1 l.2) ∧ 0 < s.pf.dist.toNat)
    ∧ (((0x4000 / 64 : Nat) : Int) = (255 : Nat) + 1 * ((0 : Nat) + 1) ∧ 0x4000 / 64 / 256 ≠ 255 / 256)
    ∧ (((0x7FC0 / 64 : Nat) : Int) = (510 : Nat) + 1 * ((0 : Nat) + 1) ∧ 0x7FC0 / 64 / 256 = 510 / 256 ∧ (0x7FC0 : Word).toNat < onCoreBase)
    ∧ ((streamState (some (streamAt 510 3)) []).lookTlb false 0x7FC0).2 = none
    ∧ (let w := (streamState (some (streamAt 510 3)) [pageSlot]).drawn
       pageSlot.serves { kind := .load, va := 0x7FC0, eaddr := 0x7FC0, priv := w.super } = true
       ∧ (match w.checkPhys { kind := .load, va := 0x7FC0, eaddr := 0x7FC0, priv := w.super }
            ((pageSlot.ppage + ((0x7FC0 : Word).toNat / 2 ^ 14 - pageSlot.vpage)) * 2 ^ 14 + (0x7FC0 : Word).toNat % 2 ^ 14) pageSlot.mt.toNat with
          | .ok _ (.phys p .cached) => p == 0x7FC0 | _ => false) = true)
    ∧ ((96 : Int) / 256 = (64 : Int) / 256 ∧ (64 : Int) / 256 = (32 : Int) / 256 ∧ (-32 : Int) ≠ 0 ∧ (-32 : Int).natAbs ≤ 32) := by decide +kernel

/-! ### Held faults and tasks: hypotheses met -/

/-- A held record with its waiters. -/
def heldState (waiters : List HeldWaiter) (lim : Nat) : State :=
  let s := withBank memState fun b => { b with excm := false, ml := 0 }
  let r : HeldRec := { s.xl.held[(0 : Fin 4)] with valid := true, waiters := waiters }
  { s with xl := { s.xl with held := s.xl.held.set 0 r, holdlim := BitVec.ofNat _ lim } }

theorem witness_HeldFaults :
    ((heldState [] 0).xl.held[(0 : Fin 4)].valid = true ∧ (heldState [] 0).xl.held[(3 : Fin 4)].valid = false ∧ (heldState [] 0).xl.holdlim = 0
      ∧ (heldState [] 0).xl.held[(0 : Fin 4)].waiters = [] ∧ (heldState [] 0).underMigration ((heldState [] 0).xl.held[(0 : Fin 4)].ia.toNat / 2 ^ 14) = false)
    ∧ (let s : State := { heldState [] 0 with hl := { (heldState [] 0).hl with revoked := [0] } }
       s.underMigration (s.xl.held[(0 : Fin 4)].ia.toNat / 2 ^ 14) = true)
    ∧ stuckState.tileStuck = true ∧ memState.tileStuck = false
    ∧ (let s := heldState [.core 16 8 0] 1
       s.xl.held[(0 : Fin 4)].valid = true ∧ s.xl.holdlim ≠ 0 ∧ s.xl.held[(0 : Fin 4)].waiters = [.core 16 8 0] ∧ s.core.mode = .run ∧ s.lvl ≠ 7
       ∧ s.bank.excm = false) := by decide +kernel

/-- A ready task. -/
def entryOf (t : BitVec 37) (p : BitVec 4) : ReadyEntry := { tsb := t, subpri := p, tilewait := false }
/-- The core at a level, or idle at level 0, with tasks ready. -/
def readyState (running : Bool) (l : List ReadyEntry) : State :=
  { memState with core := { memState.core with taskRunning := running }, bm := { memState.bm with ready := l } }
/-- A level active. -/
def atLevel (s : State) (l : Fin 8) : State :=
  { s with core := { s.core with active := s.core.active.set l true, resident := s.core.resident.set l true } }
/-- Every bank resident. -/
def allResident : State := { memState with core := { memState.core with resident := Vector.replicate 8 true } }

theorem witness_ReadyListAndTaskSwitches :
    ((readyState true (List.replicate 63 (entryOf 1 0))).bm.ready.length < 64 ∧ 64 ≤ (readyState true (List.replicate 64 (entryOf 1 0))).bm.ready.length)
    ∧ ((7 : BitVec 3) ≠ 0 ∧ (atLevel memState 7).core.active[levelOf 7] = true ∧ memState.core.active[levelOf 3] = false
      ∧ (let s : State := { memState with core := { memState.core with resident := memState.core.resident.set 3 false } }
         s.core.active[levelOf 3] = false ∧ s.core.resident[levelOf 3] = false ∧ s.bm.spill = false))
    ∧ ((atLevel memState 7).lvl ≠ 0 ∧ allResident.lvl = 0 ∧ (∀ k : Fin 8, allResident.core.resident[k] = true))
    ∧ (memState.core.devLoads = [] ∧ memState.wz.req = none ∧ State.reset.core.mode ≠ .run ∧ nextReady memState.bm.ready = none
      ∧ memState.res.bankPoison[memState.lvl] = false)
    ∧ (let s := readyState true [entryOf 1 0]
       s.core.mode = .run ∧ s.lvl = 0 ∧ nextReady s.bm.ready = some (entryOf 1 0) ∧ s.core.taskRunning = true ∧ (0 : BitVec 4) ≤ (s.bankOf 0).subpri
       ∧ s.res.bankPoison[s.lvl] = false)
    ∧ (let s := readyState false [entryOf 1 0]
       s.core.mode = .run ∧ s.lvl = 0 ∧ nextReady s.bm.ready = some (entryOf 1 0) ∧ s.core.taskRunning = false
       ∧ (match (s.setReady (s.bm.ready.erase (entryOf 1 0))).loadTask 1 with
          | .ok u => decide ((u.bankOf 0).pc.toNat % 4 = 0) && !u.res.bankPoison[u.lvl] | _ => false) = true) := by decide +kernel

/-- A running task at level 0 and a ready one of a higher sub-priority number. -/
def preemptState : State :=
  let s := readyState true [entryOf 1 5]
  { s with bm := { s.bm with tsbp := s.bm.tsbp.set 0 8 } }
/-- The ready one runs. -/
def preempted : State := preemptState.switchTo (entryOf 1 5) (some (preemptState.runningEntry false))

theorem preempted_poison : preempted.res.bankPoison = Vector.replicate 8 false := by decide +kernel

theorem witness_TaskSwitches_preempts :
    (preemptState.core.mode = .run ∧ preemptState.lvl = 0 ∧ nextReady preemptState.bm.ready = some (entryOf 1 5)
      ∧ preemptState.core.taskRunning = true ∧ preemptState.bm.tsbp[0] ≠ 0 ∧ preemptState.levelZeroPinned = false ∧ (preemptState.bankOf 0).subpri < 5)
    ∧ preempted.res.bankPoison[preempted.lvl] = false := by
  have none (v : Vector Bool 8) (k : Fin 8) (h : v = Vector.replicate 8 false) : v[k] = false := by subst h; simp
  exact ⟨by decide +kernel, none _ _ preempted_poison⟩

/-- A move of the tile state ends with its state owned. -/
def owned (x : Own) : Bool := match x with | .ok _ => true | _ => false

/-- Level 0 owns the tile state, lazily, and level 3 runs. -/
def lazyState : State :=
  let o : TileOwner := { tileState.selfOwner 0 with pend := true, lsap := 0x10000 }
  atLevel { tileState with bm := { tileState.bm with owner := some o }, tile := { tileState.tile with regs := { tileState.tile.regs with tconf := 0 } } } 3
/-- Level 3's fill displaced level 0's state. -/
def displacedState : State :=
  let d : TileOwner := { tileState.selfOwner 0 with lsap := 0x10000, filled := true, filler := 3 }
  atLevel { tileState with bm := { tileState.bm with owner := some (tileState.selfOwner 3), displaced := [d] } } 3
/-- A task without a budget left holds the tile state, its area at 0x10000, and another runs. -/
def sliceState : State :=
  let o : TileOwner := { tileState.selfOwner 0 with tsb := 1 }
  { tileState with bm := { tileState.bm with owner := some o, left := 0, tsbp := tileState.bm.tsbp.set 0 8 },
                   mem := { tileState.mem with cells := [(0x400 + 0x17A, 1)] } }

theorem witness_TileOwnershipMoves :
    (lazyState.bm.owner.any (fun o => lazyState.canIssue && o.pend && lazyState.lvl != 0 && owned (lazyState.lazyFill o))) = true
    ∧ (match displacedState.bm.owner, displacedState.bm.displaced with
       | some o, d :: _ => displacedState.canIssue && o.level == displacedState.lvl && d.filler == displacedState.lvl && displacedState.lvl != 0
           && owned (displacedState.lazyRestore d)
       | _, _ => false) = true
    ∧ memState.bm.owner = none
    ∧ (tileState.bm.owner = some (tileState.selfOwner 0) ∧ (tileState.selfOwner 0).level = 0 ∧ tileState.bm.unlimited = false)
    ∧ (let s : State := { tileState with bm := { tileState.bm with unlimited := true } }
       s.bm.unlimited = true)
    ∧ (sliceState.bm.owner.any (fun o => sliceState.contends o && sliceState.bm.left == 0 && !sliceState.bm.unlimited
        && sliceState.tsave o.tsb == 0x10000 && owned (sliceState.timeSliceSave o))) = true
    ∧ (memState.canIssue = true ∧ memState.lvl = 0 ∧ owned memState.timeSliceRestore = true) := by decide +kernel

/-! ### Assay, calibration, fills and parity: hypotheses met -/

/-- A same-format check whose stope results are the recomputed ones, but perhaps for the last. -/
def oneCheck (good : Bool) : Check :=
  { sample := { ltag := 1, rb := 0, cb := 0 }, ref := List.replicate 256 7, got := List.replicate 255 7 ++ [if good then 7 else 8],
    cols := List.replicate 16 0, wide := false }
/-- It waits. -/
def sampleState (good : Bool) : State := { memState with assay := { memState.assay with pend := [oneCheck good] } }
/-- A wide sample of a bucket waits. -/
def wideState (bucket : BitVec 5) : State :=
  { memState with assay := { memState.assay with widePend := some { ltag := 255, bucket := bucket, err := 0 } } }

theorem witness_AssayChecks :
    memState.assay.pend = []
    ∧ ((sampleState true).assay.pend = [oneCheck true] ∧ (sampleState true).windowOpen = false ∧ (oneCheck true).got = ((oneCheck true).misread []).ref)
    ∧ (let s := sampleState false
       let p := oneCheck false
       s.assay.pend = [p] ∧ 255 < 256 ∧ ((p.misread []).ref[255]?).getD 0 ≠ (p.got[255]?).getD 0
       ∧ (((oneCheck true).misread [(0xFF, 0x80000000)]).ref[255]?).getD 0 ≠ ((oneCheck true).got[255]?).getD 0 ∧ s.pwr.latching = false ∧ s.firmware = false
       ∧ s.assay.stepOpen = false ∧ s.res.fills[(0 : Fin 5)].openFill = none ∧ s.assay.misValid = false)
    ∧ memState.assay.widePend = none
    ∧ ((wideState 31).assay.widePend.isSome = true ∧ smWf 0 0 (wideState 31).assay.hist = true ∧ (wideState 24).assay.albkt ≤ 24
      ∧ (23 : BitVec 5) < (wideState 23).assay.albkt) := by decide +kernel

/-- Firmware runs with calibration enabled, the voltage code above its least and the trim below its most. -/
def calState (f : Assay → Assay) : State :=
  let s : State := { memState with dep := { memState.dep with bootStatus := 1 }, assay := f memState.assay }
  (((s.setEntry 0x5000 9 [1]).setEntry 0x5000 4 [50, 0]).setEntry 0x5000 7 [2, 0]).setEntry 0x5000 2 [0, 0, 0, 0]

theorem witness_Calibration :
    memState.firmware = false
    ∧ (let s := calState id
       s.firmware = true ∧ s.calEnabled = true ∧ s.assay.stepOpen = false ∧ s.assay.holdoff = 0 ∧ s.stopeFillBusy = false ∧ s.assay.lastKnob = true
       ∧ s.canLess false = true ∧ s.tuningHeld 31 = false ∧ s.win.d2dcnt[(31 : Fin 32)].2.2.toNat < 4096)
    ∧ (let s := calState fun a => { a with lastKnob := false }
       s.firmware = true ∧ s.calEnabled = true ∧ s.assay.stepOpen = false ∧ s.assay.holdoff = 0 ∧ s.stopeFillBusy = false ∧ s.assay.lastKnob = false
       ∧ s.canLess true = true)
    ∧ (calState fun a => { a with holdoff := 1 }).assay.holdoff ≠ 0
    ∧ (let s := calState fun a => { a with stepOpen := true }
       s.firmware = true ∧ s.assay.stepOpen = true ∧ s.assay.stepFail = none ∧ s.windowDone = true)
    ∧ (let s : State := { calState id with win := { (calState id).win with d2dcnt := (calState id).win.d2dcnt.set 31 (17, 0, 4096) } }
       let x := s.win.d2dcnt[regFin 31]
       s.firmware = true ∧ s.calEnabled = true ∧ s.tuningHeld (regFin 31) = false ∧ 4096 ≤ (([].zip []).foldl shadowCount x).2.2.toNat
       ∧ (([true].zip [false]).foldl shadowCount x) = (18, 0, 4097) ∧ x.2.1.toNat + 16 < x.1.toNat) := by decide +kernel

/-- A fill of unit 0 in every class. -/
def fillState (queue : List Nat) (spare : Option Nat) : State :=
  let m (c : Fin 5) : FillMachine := { memState.res.fills[c] with
    openFill := some { unit := 0, spare := spare, restarts := 0, first := none, poisoned := 0, started := 0 }, queue := queue }
  { memState with res := { memState.res with fills := Vector.ofFn m } }

theorem witness_FillsAndParityErrors :
    (memState.fillUnit 0 127 = true ∧ memState.fillUnit 0 128 = false ∧ memState.fillUnit 1 191 = true ∧ memState.fillUnit 1 192 = false
      ∧ memState.fillUnit 2 1023 = true ∧ memState.fillUnit 2 1024 = false ∧ memState.fillUnit 4 15 = true ∧ memState.fillUnit 4 16 = false)
    ∧ (∀ c : Fin 5, (fillState [] (some 0)).fillUnit c 1 = true ∧ 1 ∉ (fillState [] (some 0)).res.fills[c].queue
        ∧ 1 ∉ (fillState [] (some 0)).res.fills[c].dead
        ∧ (fillState [] (some 0)).res.fills[c].openFill.any (fun o => o.unit != 1) = true
        ∧ (fillState [2, 3, 4, 5] (some 0)).res.fills[c].queue.length = 4 ∧ 5 ∈ (fillState [2, 3, 4, 5] (some 0)).res.fills[c].queue
        ∧ memState.res.fills[c].openFill = none
        ∧ (fillState [] none).res.fills[c].openFill.any (fun o => !(o.spare.isNone && (fillState [] none).tile.queue.any fun e => e.started && (e.op.unit == .stope || e.op.unit == .seam))) = true)
    ∧ (let s : State := { fillState [] none with tile := { memState.tile with queue := [{ op := .opa 0 0 0 0 0 0 0 0, started := true }] } }
       ∀ c : Fin 5, s.res.fills[c].openFill.any (fun o => o.spare.isNone && s.tile.queue.any fun e => e.started && (e.op.unit == .stope || e.op.unit == .seam)) = true)
    ∧ (memState.parityPowered 0 = true ∧ memState.parityPowered 6 = true ∧ memState.parityPowered 13 = true ∧ memState.parityPowered 9 = false)
    ∧ (State.reset.parityPowered 0 = false ∧ (13 : BitVec 4).toNat < 14 ∧ memState.res.capValid = false)
    ∧ (memState.mem.dirty 5 = none ∧ (lineFind 5 [{ granule := 5, data := 1, poison := false, l1 := false }]).isSome = true ∧ smWf SyncObj.zero 0 memState.sy.objs = true
      ∧ ((bufferState [buffered 0]).parityEffect 4 false 0 0 0).mem.sb[0]?.isSome = true
      ∧ memState.core.mode = .run ∧ memState.levelOfPhys 0 = some memState.lvl) := by decide +kernel

/-! ### Haulage and the copy engine: hypotheses met -/

/-- Firmware runs. -/
def fwState : State := { memState with dep := { memState.dep with bootStatus := 1 } }
/-- Haulage enabled in its parameters, and the home of the node's group another node. -/
def haulState (member : Bool) : State := (fwState.setEntry 0x6000 1 [1]).setEntry 0x6000 0xB (if member then [9, 0, 0, 0] else [0, 0, 0, 0])
/-- Haulage disabled in its parameters. -/
def idleState : State := fwState.setEntry 0x6000 1 [0]
/-- An entry of the heat table. -/
def hot (p : BitVec 33) : HeatEntry := { iapg := p, fill := 3, miss := 0 }
/-- The heat table with the first ways of set 0, and an event of a page queued. -/
def heatState (ways : Nat) (page : BitVec 33) : State :=
  { memState with hl := { memState.hl with
    heat := (List.range ways).map (fun k => (k, some (hot (BitVec.ofNat 33 (4096 * k))))), queue := [(true, page)] } }

theorem witness_HeatTable :
    memState.hl.queue = []
    ∧ (let s : State := { memState with xl := { memState.xl with s2en := true }, hl := { memState.hl with queue := List.replicate 64 (true, 0) } }
       s.xl.s2en = true ∧ s.hl.queue.length = 64)
    ∧ memState.xl.s2en = false
    ∧ (let s := heatState 4 12288
       s.hl.queue = [(true, 12288)] ∧ s.hl.aging = false ∧ smGet none 3 s.hl.heat = some (hot 12288) ∧ (hot 12288).iapg = 12288
       ∧ ∀ k < 3, ∀ x ∈ smGet none k s.hl.heat, x.iapg ≠ 12288)
    ∧ (let s := heatState 3 12288
       s.hl.queue = [(true, 12288)] ∧ s.hl.aging = false ∧ (∀ k < 3, smGet none k s.hl.heat ≠ none) ∧ smGet none 3 s.hl.heat = none
       ∧ ∀ k < 4, ∀ x ∈ smGet none k s.hl.heat, x.iapg ≠ 12288)
    ∧ (let s : State := { heatState 1 0 with hl := { (heatState 1 0).hl with aging := true } }
       s.hl.aging = true ∧ s.hl.queue = [(true, 0)])
    ∧ (memState.hl.aging = false ∧ memState.dep.wqueue = [] ∧ (heatState 1 0).hl.aging = false ∧ (heatState 1 0).dep.wqueue = [])
    ∧ smGet none (heatState 1 0).hl.htwsel.toNat (heatState 1 0).hl.heat = some (hot 0) := by decide +kernel

/-- Firmware of a member, or of the home, has a doorbell with an OP, a sender and a field at bit 44 and at bit 56. -/
def doorState (member : Bool) (op node reqop mig : Nat) (asked : Option (BitVec 8)) : State :=
  let s := haulState member
  { s with win := { s.win with dbin := [doorWord op 0 mig reqop 0 0 node 0] }, hl := { s.hl with asked := asked } }

/-- The doorbell at the front of the queue. -/
def frontDoor (s : State) : Nat := (s.win.dbin.headD 0).toNat

theorem witness_MemberDoorbells :
    memState.firmware = false ∧ fwState.win.dbin = []
    ∧ (∀ op, 1 ≤ op → op ≤ 8 → (doorState true op 9 0 0 none).firmware = true ∧ (doorState true op 9 0 0 none).win.dbin.length = 1
        ∧ fieldOf (frontDoor (doorState true op 9 0 0 none)) 60 4 = op ∧ doorNode (frontDoor (doorState true op 9 0 0 none)) = (doorState true op 9 0 0 none).home
        ∧ doorNode (frontDoor (doorState true op 8 0 0 none)) ≠ (doorState true op 8 0 0 none).home)
    ∧ (doorState true 6 9 0 0 none).hl.hints.length < 256 := by
  refine ⟨by decide +kernel, by decide +kernel, ?_, by decide +kernel⟩
  have h : ∀ op : Fin 9, 1 ≤ op.val → (doorState true op 9 0 0 none).firmware = true ∧ (doorState true op 9 0 0 none).win.dbin.length = 1
        ∧ fieldOf (frontDoor (doorState true op 9 0 0 none)) 60 4 = op ∧ doorNode (frontDoor (doorState true op 9 0 0 none)) = (doorState true op 9 0 0 none).home
        ∧ doorNode (frontDoor (doorState true op 8 0 0 none)) ≠ (doorState true op 8 0 0 none).home := by decide +kernel
  exact fun op a b => h ⟨op, by omega⟩ a

/-- The hints are 256, of page 1. -/
def hintState : State :=
  let s := doorState true 6 9 0 0 none
  { s with hl := { s.hl with hints := List.replicate 256 { page := 1, heat := 0, stack := 0 } } }

theorem witness_HaulageDoorbells :
    (256 ≤ hintState.hl.hints.length ∧ (∀ h ∈ hintState.hl.hints, h.page ≠ doorPage (frontDoor hintState)))
    ∧ (let s (n : Nat) : State := { memState with win := { memState.win with dbin := List.replicate n 0 } }
       (s 7).win.dbin.length < 8 ∧ 8 ≤ (s 8).win.dbin.length ∧ (s 7).fab.bad = false)
    ∧ (let s : State := { memState with fab := { memState.fab with bad := true } }
       s.fab.bad = true)
    ∧ (let s : State := { memState with win := { memState.win with dbbusy := true } }
       s.win.dbbusy = true)
    ∧ memState.win.dbbusy = false := by decide +kernel

/-- Stage 2 maps IA page 0 by a page entry at level 2, the tables at 0x400000, 0x800000 and 0xC00000. -/
def stage2State (s : State) : State :=
  { s with xl := { s.xl with s2en := true, s2root := 0x100 }
           mem := { s.mem with cells := [(0x400000, 1), (0x400003, 2), (0x800000, 1), (0x800003, 3), (0xC00000, 0x0F)] } }

/-- IA page 0 lies in the EXP tier, which begins at 0x40000000; a NEAR page may be free. -/
def farState (free : Option (BitVec 33)) : State :=
  let s := stage2State (haulState false)
  { s with xl := { s.xl with pmat := (s.xl.pmat.set 0 { wholeMap with base := 0x10000, log2size := 30, tier := 1 }).set 1 wholeMap }
           mem := { s.mem with cells := [(0x400000, 1), (0x400003, 2), (0x800000, 1), (0x800003, 3), (0xC00000, 0x0F), (0xC00004, 1)] }
           hl := { s.hl with free := free.toList } }

theorem witness_HaulageRequests :
    (let s : State := { haulState false with hl := { (haulState false).hl with asked := some 1 } }
     s.reqBusy = true ∧ s.firmware = true)
    ∧ (memState.reqBusy = false ∧ memState.firmware = false ∧ memState.hl.asked = none)
    ∧ (idleState.firmware = true ∧ idleState.hl.requests = [] ∧ idleState.hl.asked = none ∧ idleState.hl.chosen = [] ∧ idleState.hl.migrations = []
      ∧ idleState.hen = false)
    ∧ (let s := haulState false
       s.firmware = true ∧ s.isMember = false ∧ s.hen = true ∧ s.hl.requests = [] ∧ s.hl.asked = none ∧ s.hl.chosen = [] ∧ s.hl.migrations = [])
    ∧ (let s := stage2State (haulState false)
       (s.pageEntry 0).isSome = true ∧ s.tile.queue = [] ∧ s.firmware = true ∧ s.isMember = false ∧ s.hen = true)
    ∧ (let s := farState none
       s.firmware = true ∧ s.isMember = false ∧ s.hen = true ∧ s.hl.requests = [] ∧ s.hl.asked = none ∧ s.hl.chosen = [] ∧ s.hl.migrations = []
       ∧ (s.pageEntry 0).any (fun x => s.mayMove 0 == some (x.1, fieldOf x.2 16 33) && fieldOf x.2 16 33 == 0x10000) = true
       ∧ s.liesIn 0x10000 none = true ∧ s.liesIn 0x10000 (some s.hl.lstack) = false ∧ s.freePage (some s.hl.lstack) = none)
    ∧ (let s := farState (some 7)
       s.firmware = true ∧ s.isMember = false ∧ s.hen = true ∧ s.hl.requests = [] ∧ s.hl.asked = none ∧ s.hl.chosen = [] ∧ s.hl.migrations = []
       ∧ (s.pageEntry 0).any (fun x => s.mayMove 0 == some (x.1, fieldOf x.2 16 33) && fieldOf x.2 16 33 == 0x10000) = true
       ∧ s.liesIn 0x10000 (some s.hl.lstack) = false ∧ s.freePage (some s.hl.lstack) = some 7 ∧ s.hl.members = [] ∧ s.ce.busy = false
       ∧ s.tile.queue = [])
    ∧ (let s (r : Nat) : State := { farState none with win := { (farState none).win with dbin := [doorWord 7 0 0 r 0 0 8 0] } }
       ∀ r ∈ [1, 2, 3, 4], (s r).firmware = true ∧ fieldOf (frontDoor (s r)) 60 4 = 7 ∧ fieldOf (frontDoor (s r)) 44 4 = r
         ∧ fieldOf (frontDoor (s r)) 64 8 = 0 ∧ doorPage (frontDoor (s r)) = 0
         ∧ (s r).liesIn 0x10000 (if r = 3 then some (BitVec.ofNat 5 (fieldOf (frontDoor (s r)) 34 5)) else none) = decide (r ≠ 3))
    ∧ (let s := doorState false 7 8 1 0 none
       s.hen = true ∧ s.pageEntry (doorPage (frontDoor s)) = none)
    ∧ (doorState true 7 8 1 0 none).isMember = true
    ∧ (let s : State := { fwState with hl := { fwState.hl with asked := some 1 } }
       s.firmware = true ∧ s.hl.asked = some 1) := by decide +kernel

theorem witness_HaulageRequests_doors :
    (let d (r : Nat) := frontDoor (doorState false 7 8 r 0 none)
     fieldOf (d 0) 60 4 = 7 ∧ fieldOf (d 0) 44 4 = 0 ∧ 4 < fieldOf (d 5) 44 4 ∧ fieldOf (d 1) 44 4 = 1 ∧ fieldOf (d 4) 44 4 = 4)
    ∧ (let s : State := { idleState with win := { idleState.win with dbin := [doorWord 7 0 0 1 0 0 8 0] } }
       s.firmware = true ∧ s.hl.requests = [] ∧ s.hl.chosen = [] ∧ s.hl.migrations = [] ∧ s.hen = false)
    ∧ (let s := doorState true 8 9 0 3 (some 3)
       s.firmware = true ∧ fieldOf (frontDoor s) 60 4 = 8 ∧ s.hl.asked = some 3 ∧ doorMig (frontDoor s) = 3 ∧ doorNode (frontDoor s) = s.home ∧ s.isMember = true)
    ∧ (let s := doorState true 8 9 0 3 none
       s.hl.asked = none ∧ s.hl.migrations = []) := by decide +kernel

/-- A migration of page 7 from page 1 to page 2 in its copy. -/
def oneMigration : Migration :=
  { migid := 4, page := 7, old := 1, new := 2, entry := 0x400000, phase := .copy, waits := [], reason := 0, requested := false }
/-- The home carries it out, its copy running. -/
def migState (next : BitVec 4) : State :=
  { fwState with hl := { fwState.hl with migrations := [oneMigration] }
                 ce := { fwState.ce with busy := true, src := 0x4000, dst := 0x8000, next := next } }

theorem witness_Migrations :
    memState.firmware = false
    ∧ (idleState.firmware = true ∧ idleState.hl.migrations.find? (fun m => m.migid == 4) = none ∧ idleState.ce.busy = false ∧ idleState.isMember = false
      ∧ idleState.hen = false ∧ idleState.hl.migrations = [] ∧ idleState.hl.requests = [] ∧ idleState.hl.aging = false)
    ∧ ((haulState true).firmware = true ∧ (haulState true).isMember = true ∧ (haulState false).isMember = false ∧ (haulState false).hen = true)
    ∧ (let s := migState 1
       s.firmware = true ∧ s.hl.migrations = [oneMigration] ∧ oneMigration.phase = .copy ∧ s.hl.members = [] ∧ s.hl.requests = [] ∧ s.hl.chosen = []
       ∧ s.tile.queue = [] ∧ s.ce.busy = true ∧ s.ce.src.toNat = oneMigration.old.toNat * 2 ^ 14 ∧ s.ce.dst.toNat = oneMigration.new.toNat * 2 ^ 14
       ∧ s.ce.waiting = none ∧ (if false then 4#4 else s.ce.next).toNat ≤ 1 ∧ 2 ≤ (migState 2).ce.next.toNat ∧ s.mem.sb = [] ∧ s.hl.noteValid = false) := by decide +kernel

theorem witness_CopyEngineCommands :
    (migState 0).ce.busy = true ∧ (memState.ce.busy = false ∧ memState.ce.len = 0)
    ∧ (let s : State := { memState with ce := { memState.ce with len := 1, src := 0, dst := 0x7FFF } }
       s.ce.busy = false ∧ s.ce.len ≠ 0 ∧ s.ce.src.toNat + s.ce.len.toNat ≤ 32768 ∧ s.ce.dst.toNat + s.ce.len.toNat ≤ 32768
       ∧ s.ce.src.toNat + s.ce.len.toNat ≤ s.ce.dst.toNat ∧ s.dep.dataBad = [] ∧ smWf 0#8 0 s.dep.data = true
       ∧ inScratch (s.ce.dst.toNat / 2 ^ 14 * 2 ^ 14) = false)
    ∧ (let s : State := { memState with ce := { memState.ce with busy := true, irq := true } }
       s.ce.busy = true ∧ s.ce.waiting = none ∧ s.firmware = false ∧ s.ce.irq = true) := by decide +kernel

/-! ### Sync objects, mailboxes and the tram: hypotheses met -/

/-- Object 1 as given. -/
def objState (o : SyncObj) : State := memState.setObj 1 o
/-- A counter of target 1, ready, for Supervisor. -/
def counter : SyncObj := { SyncObj.zero with mode := 1, count := 1, target := 1 }
/-- A queue with one entry, its head at sequence number 0 and its ring at 4096. -/
def queueObj : SyncObj := { SyncObj.zero with mode := 3, count := 1, ringpa := 1, log2len := 3 }
/-- A sync packet: kind 1, an object of a node, of Supervisor. -/
def syncPacket (kind node obj seq : Nat) : Packet :=
  { noPacket with inl := BitVec.ofNat 768 (kind * 2 ^ 60 + 2 ^ 56 + node * 2 ^ 13 + obj + seq * 2 ^ 160) }
/-- A task parked on object 1. -/
def parkedOne : Parked := { tsb := 5, obj := 1, gen := 0 }

/-- The queue's ring lies in a scratch step that is being zeroed. -/
def fillingQueue : State :=
  let s := memState.setObj 1 { queueObj with ringpa := BitVec.ofNat 35 (scratchBase / 4096) }
  { s with ts := { s.ts with busy := true, kept := 0, cache16 := 0 } }

theorem witness_SyncObjectCommands :
    (let s : State := { memState with sy := { memState.sy with selPk := true } }
     s.sy.selPk = true ∧ memState.sy.selPk = false)
    ∧ (let p := syncPacket 1 0 1 0
       let w := packetWord p 0
       let name := wd (w.toNat % 2 ^ 37)
       w.toNat / 2 ^ 60 = 1 ∧ nameNode name = memState.straps.nodeId ∧ nameObj name = 1 ∧ (objState counter).checkObj 1 (w.getLsbD 56) = none ∧ memState.fab.bad = false
       ∧ (objState counter).postWaits 1 = false ∧ fillingQueue.checkObj 1 (w.getLsbD 56) = none ∧ fillingQueue.postWaits 1 = true
       ∧ memState.checkObj 1 (w.getLsbD 56) ≠ none ∧ memState.sy.errValid = false)
    ∧ nameNode (wd ((packetWord (syncPacket 1 9 1 0) 0).toNat % 2 ^ 37)) ≠ memState.straps.nodeId
    ∧ memState.sy.parked = [] ∧ 64 ≤ (readyState true (List.replicate 64 (entryOf 1 0))).bm.ready.length
    ∧ (let s : State := { objState counter with sy := { (objState counter).sy with parked := [parkedOne] } }
       s.sy.parked = [parkedOne] ∧ s.bm.ready.length < 64 ∧ s.core.mode = .run ∧ s.mayTake parkedOne = true ∧ (s.obj parkedOne.obj).mode = 1
       ∧ smWf SyncObj.zero 0 s.sy.objs = true) := by decide +kernel

/-- Task take of an object of a node is enabled, in a phase. -/
def takeState (node : Nat) (ph : TakePhase) : State :=
  let s := objState queueObj
  { s with sy := { s.sy with takeEn := true, takeObj := BitVec.ofNat 37 (node * 2 ^ 13 + 2), phase := ph }
           bm := { s.bm with tsbp := s.bm.tsbp.set 0 4 }
           hl := { s.hl with thr := 255, reflim := 1 } }

/-- A reply about object 2 of node 9. -/
def replyPacket (status seq desc : Nat) : Packet :=
  { noPacket with inl := BitVec.ofNat 768 (status * 2 ^ 57 + 9 * 2 ^ 13 + 2 + seq * 2 ^ 160 + desc * 2 ^ 192) }

theorem witness_TaskTake :
    (memState.takeRuns = false ∧ (let s : State := { memState with sy := { memState.sy with phase := .waiting } }
                                  s.takeRuns = false ∧ s.sy.phase = .waiting))
    ∧ ((takeState 9 .idle).takeRuns = true ∧ (takeState 9 .idle).sy.phase = .idle ∧ (takeState 9 .waiting).sy.phase = .waiting
      ∧ (takeState 9 .waiting).takeRuns = true ∧ nameNode ((takeState 9 .idle).sy.takeObj.setWidth 64) ≠ (takeState 9 .idle).straps.nodeId)
    ∧ (nameNode ((takeState 0 .idle).sy.takeObj.setWidth 64) = (takeState 0 .idle).straps.nodeId ∧ (takeState 0 .idle).takeRuns = true
      ∧ ((takeState 0 .idle).peekObj ((takeState 0 .idle).sy.takeObj.setWidth 13) true).status ≠ 0)
    ∧ (let s := takeState 9 (.peeked (packetName (replyPacket 0 0 0)))
       s.sy.phase = .peeked (packetName (replyPacket 0 0 0)) ∧ s.fab.bad = false ∧ (packetReply (replyPacket 1 0 0)).status ≠ 0 ∧ (packetReply (replyPacket 0 0 0)).status = 0
       ∧ (s.judge (packetName (replyPacket 0 0 0)) 0).2 = true
       ∧ (s.judge (packetName (replyPacket 0 0 64)) (packetReply (replyPacket 0 0 64)).desc).2 = false)
    ∧ (let s := takeState 9 (.taking (packetName (replyPacket 0 3 0)) 3)
       s.sy.phase = .taking (packetName (replyPacket 0 3 0)) 3 ∧ s.fab.bad = false ∧ (packetReply (replyPacket 0 3 0)).status = 0 ∧ s.bm.ready.length < 64
       ∧ (packetReply (replyPacket 1 3 0)).status ≠ 0 ∧ (packetReply (replyPacket 1 3 0)).status ≠ 2
       ∧ (packetReply (replyPacket 2 3 0)).status = 2 ∧ memState.takeRuns = false)
    ∧ (let p := syncPacket 0 0 1 0
       let n : BitVec 13 := (packetName p).setWidth 13
       let sup := (packetWord p 0).getLsbD 56
       nameNode ((packetName p).setWidth 64) = memState.straps.nodeId ∧ (memState.peekObj n sup).status ≠ 0 ∧ ((objState queueObj).peekObj n sup).status = 0
       ∧ ((objState queueObj).peekObj n sup).seq = BitVec.ofNat 32 ((packetWord p 2).toNat / 2 ^ 32)
       ∧ ((objState queueObj).peekObj n sup).seq ≠ BitVec.ofNat 32 ((packetWord (syncPacket 0 0 1 1) 2).toNat / 2 ^ 32)) := by decide +kernel

/-- A mailbox channel as given. -/
def boxState (c : Fin 16) (f : Mailbox → Mailbox) : State :=
  { memState with mb := { memState.mb with ch := memState.mb.ch.set c (f memState.mb.ch[c]) } }

theorem witness_Mailboxes :
    ((boxState 15 fun m => { m with outFull := true }).mb.ch[(15 : Fin 16)].outFull = true ∧ memState.mb.ch[(15 : Fin 16)].outFull = false)
    ∧ ((boxState 0 fun m => { m with outFull := true, credit := true }).mb.ch[(0 : Fin 16)].credit = true ∧ memState.mb.ch[(0 : Fin 16)].inFull = false
      ∧ (boxState 8 fun m => { m with inFull := true }).mb.ch[(8 : Fin 16)].inFull = true)
    ∧ (let s := boxState 7 fun m => { m with en := true }
       s.mb.ch[(7 : Fin 16)].en = true ∧ s.mb.ch[(7 : Fin 16)].inFull = false ∧ s.pwr.latching = false ∧ memState.mb.ch[(7 : Fin 16)].en = false)
    ∧ (let s := boxState 8 fun m => { m with en := true, inFull := true }
       s.mb.ch[(8 : Fin 16)].en = true ∧ s.mb.ch[(8 : Fin 16)].inFull = true ∧ noPacket.sec = false ∧ noPacket.addr.setWidth 4 = (0 : BitVec 4) ∧ s.fab.bad = false) := by
  decide +kernel

/-- A channel as given, its ring at 4096 with 8 slots. -/
def chanState (c : Fin 32) (f : Channel → Channel) : State :=
  { memState with tr := { memState.tr with ch := memState.tr.ch.set c (f { memState.tr.ch[c] with en := true, ring := 1, log2len := 3, pa := true }) } }
/-- A descriptor. -/
def descOf (op src dst len : Nat) : BitVec 512 := BitVec.ofNat 512 (op + 6 * 2 ^ 16 + src * 2 ^ 64 + dst * 2 ^ 128 + len * 2 ^ 192)
/-- It is open. -/
def openOf (d : BitVec 512) : TramOpen := { desc := d, issued := false, ending := false, noRecord := false, waits := [], status := 0, bytes := 0, result := 0 }

theorem witness_TramChannels :
    (¬ ((0 : Fin 32) = 31 ∧ memState.journalHolds = true)
      ∧ (let s : State := { memState with jnl := { memState.jnl with en := true } }
         s.journalHolds = true))
    ∧ memState.tr.ch[(0 : Fin 32)].en = false
    ∧ (let s := chanState 31 fun x => { x with head := 1 }
       let x := s.tr.ch[(31 : Fin 32)]
       x.en = true ∧ x.halt = false ∧ x.hasRing = true ∧ x.index x.tail ≠ x.index x.head ∧ s.jnl.jch = false ∧ s.tramRegion 4096 4 = true ∧ x.opens = [])
    ∧ (let s : State := { chanState 0 (fun x => { x with head := 1, opens := [openOf 0] }) with mem := { memState.mem with cells := [(4097, 4)] } }
       let x := s.tr.ch[(0 : Fin 32)]
       x.en = true ∧ x.halt = false ∧ x.hasRing = true ∧ x.index x.tail ≠ x.index x.head ∧ x.opens ≠ [] ∧ s.tramRegion 4096 4 = true ∧ descField (BitVec.ofNat 512 (s.mem.readNat 4096 64)) 0 10 1 = 1)
    ∧ (let o : TramOpen := { openOf 0 with issued := true }
       let s := chanState 0 fun x => { x with opens := [o] }
       s.tr.ch[(0 : Fin 32)].opens = [o] ∧ o.issued = true ∧ o.waits = [] ∧ descField o.desc 0x28 4 60 = 0 ∧ descField o.desc 0x20 63 1 = 0
       ∧ o.status.toNat < 2 ∧ 2 ≤ (8 : BitVec 4).toNat ∧ s.pwr.latching = false ∧ (openOf 0).issued = false)
    ∧ ((chanState 0 id).tr.ch[tramOf (chanState 0 id).tr.sel].en = true
      ∧ memState.tr.ch[tramOf memState.tr.sel].en = false) := by decide +kernel

/-- A channel with one descriptor open, of an operation. -/
def opState (op src dst len : Nat) : State := chanState 3 fun x => { x with opens := [openOf (descOf op src dst len)] }
/-- What every operation's clause assumes. -/
def opReady (op src dst len : Nat) : Bool :=
  let s := opState op src dst len
  let x := s.tr.ch[(3 : Fin 32)]
  let d := descOf op src dst len
  x.en && decide (s.tramTurn = some 3) && x.pa && decide (x.opens = [openOf d]) && decide (Memory.wf s.mem = true) && descOp d == op && descOk d && descSrc d == src && descDst d == dst && descLen d == len
    && descGlog d == 6 && decide (src < 2 ^ 46) && decide (dst < 2 ^ 46)
/-- A granule is backed and clean. -/
def granuleOk (s : State) (a : Nat) : Bool := s.tramRegion a 4 && !s.unbacked a && !s.waitsForFill a && !s.mem.poisoned (a / 64)

theorem witness_TramOperations :
    (memState.tr.ch[(3 : Fin 32)].current = none ∧ (opState 1 0 64 64).tr.ch[(3 : Fin 32)].current = some (openOf (descOf 1 0 64 64))
      ∧ descOp (descOf 1 0 64 64) ≠ 8)
    ∧ (∀ op ∈ [1, 2, 3, 4, 5, 6, 7], opReady op 0 (2 ^ 46 - 64) 64 = true ∧ granuleOk (opState op 0 (2 ^ 46 - 64) 64) 0 = true
        ∧ granuleOk (opState op 0 (2 ^ 46 - 64) 64) (2 ^ 46 - 64) = true)
    ∧ (opReady 8 0 0 4096 = true ∧ ∀ k < 64, granuleOk (opState 8 0 0 4096) (0 + 64 * k) = true)
    ∧ (let s := opState 3 0 64 64
       let t : State := { s with mem := { s.mem with cells := [(0, 1)] } }
       s.mem.readNat 0 8 % 64 = 0 ∧ s.mem.readNat 0 8 < 2 ^ 46 ∧ t.mem.readNat 0 8 % 64 ≠ 0)
    ∧ (let s := opState 7 0 64 64
       let t : State := { s with xl := { s.xl with pmat := s.xl.pmat.set 0 { wholeMap with tier := 2 } } }
       s.inLog 64 = false ∧ s.waitsForFill 64 = false ∧ t.tramRegion 64 4 = true ∧ t.tramRegion 0 4 = true ∧ t.inLog 64 = true ∧ Memory.wf t.mem = true) := by decide +kernel

/-- The node's window of remote accesses is the lowest 2^k bytes. -/
def windowed (k : BitVec 6) (s : State) : State := { s with tr := { s.tr with winEn := true, winBase := 0, winLog := k } }
/-- A channel waits for a reply to one packet. -/
def waitState : State := chanState 31 fun x => { x with opens := [{ openOf (descOf 4 0 64 64) with issued := true, waits := [(7, 0, 64)] }] }

theorem witness_RemotePackets :
    (readFrame noPacket = false ∧ dataFrame noPacket = false ∧ reduceFrame noPacket = false)
    ∧ (let p : Packet := { noPacket with len := 64, addr := 16320 }
       readFrame p = true ∧ (windowed 14 memState).inWindow 16320 1 = true ∧ (windowed 14 memState).inWindow 16384 1 = false
       ∧ (windowed 14 memState).inWindow 16320 2 = false ∧ (windowed 14 coreState).tramRegion 0 4 = false
       ∧ memState.tramRegion 16320 4 = true ∧ memState.unbacked 16320 = false ∧ memState.waitsForFill 16320 = false ∧ memState.fab.bad = false)
    ∧ (let s : State := { memState with fab := { memState.fab with bad := true } }
       s.fab.bad = true ∧ dataFrame onePacket = true)
    ∧ (dataFrame onePacket = true ∧ reduceFrame onePacket = true ∧ onePacket.data = [5] ∧ onePacket.head = 0 ∧ onePacket.tail = 0 ∧ onePacket.pois = 0 ∧ Memory.wf memState.mem = true
      ∧ (windowed 14 memState).inWindow onePacket.addr.toNat 1 = true ∧ memState.mem.poisoned (onePacket.addr.toNat / 64) = false) := by decide +kernel

theorem witness_RemotePackets_replies :
    memState.waiterOf 7 = none
    ∧ (let o : TramOpen := { openOf (descOf 4 0 64 64) with issued := true, waits := [(7, 0, 64)] }
       waitState.waiterOf 7 = some (31, o, 0, 64) ∧ waitState.tr.ch[(31 : Fin 32)].opens = [o] ∧ o.waits = [(7, 0, 64)] ∧ o.status = 0
       ∧ waitState.tr.ch[(31 : Fin 32)].pa = true ∧ descSrc o.desc % 64 = 0 ∧ descDst o.desc % 64 = 0 ∧ descDst o.desc < 2 ^ 46
       ∧ waitState.tramRegion (descDst o.desc) 4 = true ∧ waitState.unbacked (descDst o.desc) = false ∧ waitState.waitsForFill (descDst o.desc) = false ∧ waitState.fab.bad = false ∧ ({ onePacket with tag := 7 } : Packet).status = 0
       ∧ ({ noPacket with tag := 7, status := 1 } : Packet).status ≠ 0)
    ∧ ((packetWord { noPacket with inl := 9 } 0).toNat % 16 = 9 ∧ memState.fab.waiting = [])
    ∧ (let s : State := { memState with fab := { memState.fab with waiting := [(1, onePacket)] } }
       s.fab.waiting = [(1, onePacket)] ∧ vcOf 1 = (0 : BitVec 2).toFin ∧ packetFlits onePacket ≤ s.fab.credits[(0 : BitVec 2).toFin] + 2)
    ∧ (reservedType 0 = true ∧ reservedType 0xF = true ∧ reservedType 0xB = false ∧ reservedType 1 = false) := by decide +kernel

/-! ### Registers from outside, boot, the dictionary, power and debug: hypotheses met -/

theorem witness_CsrAccessAndRegisterWrites_window :
    windowAccess 0 0 = false ∧ windowAccess 0 9 = false ∧ windowAccess 0xFFFF 2 = false ∧ (1 ≤ 8 ∧ 8 ≤ 8 ∧ (0x7FF8 : BitVec 16).toNat + 8 ≤ 0x8000)
    ∧ smWf 0#8 0 memState.dep.data = true ∧ State.reset.pwr.core ≠ .on ∧ memState.pwr.core = .on := by decide +kernel

/-- The boot image's place holds a header of one vendor word. -/
def bootState (formed fuses : Bool) : State :=
  let s : State := { State.reset with straps := { State.reset.straps with bootBase := 0x100, fuseRdy := fuses } }
  if formed then { s with mem := { s.mem with cells :=
    [(0x400000, 0x47), (0x400001, 0x54), (0x400002, 0x50), (0x400003, 0x44), (0x400004, 1), (0x40000C, 1)] } } else s
/-- The image that ROM would read. -/
def bootBytes (s : State) : List Byte := State.bootImage { s with dep := { s.dep with prog := [], progBad := [] } }
/-- The core after an assertion of CORE reset, as power and releases stand. -/
def resetHeld (first up : Bool) : State :=
  { memState with core := { memState.core with mode := .held },
                  pwr := { memState.pwr with coreReset := true, firstRelease := first, poweredUp := up, tail := false, wakeLatch := 0x0080000200000000 } }

/-- ROM's view of program memory at its start. -/
theorem one_block : (0x8000 : BitVec 16) = 0 ∨ ∃ b : Fin 16, ∀ k : Fin 16, (0x8000 : BitVec 16).getLsbD k.val = decide (k = b) :=
  .inr ⟨15, by decide⟩

theorem witness_BootAndResets :
    ((bootState false true).dep.bootStatus = 0 ∧ imageFormed (bootBytes (bootState false true)) = false)
    ∧ ((bootState true false).dep.bootStatus = 0 ∧ imageFormed (bootBytes (bootState true false)) = true ∧ (bootState true false).straps.fuseRdy = false)
    ∧ ((0 : Fin 16) ≠ 15 ∧ (0x8001 : BitVec 16).getLsbD (0 : Fin 16).val = true ∧ (0x8001 : BitVec 16).getLsbD (15 : Fin 16).val = true)
    ∧ (let s : State := { memState with dep := { memState.dep with bootStatus := 6 } }
       s.dep.bootStatus ≠ 0 ∧ s.firmware = false)
    ∧ (let s : State := { State.reset with dep := { State.reset.dep with bootStatus := 1 } }
       s.firmware = true ∧ s.pwr.firstRelease = true ∧ s.pwr.core = .off)
    ∧ (State.reset.pwr.core ≠ .on ∧ memState.pwr.core = .on ∧ memState.pwr.coreReset = false ∧ memState.pwr.tail = false)
    ∧ ((resetHeld false true).pwr.tail = false ∧ (resetHeld false true).pwr.core = .on ∧ (resetHeld false true).pwr.coreReset = true
      ∧ (resetHeld false true).pwr.coreRetired = false ∧ (resetHeld true false).pwr.firstRelease = true ∧ (resetHeld false false).pwr.poweredUp = false
      ∧ (resetHeld true true).pwr.wakeLatch.getLsbD 33 = true ∧ (resetHeld true true).pwr.wakeLatch.getLsbD 55 = true)
    ∧ (resetHeld false true).core.heldFrozen = false
    ∧ (let s : State := { resetHeld false true with core := { (resetHeld false true).core with heldFrozen := true } }
       s.core.heldFrozen = true ∧ s.pwr.tail = false ∧ s.pwr.coreReset = true)
    ∧ (inScratch 0 = false ∧ inScratch 0x7FFF00000000 = true) := by decide +kernel

/-- There is a tally area, at an address of the map or at one without a region. -/
def areaState (mapped : Bool) : State :=
  let s := (fwState.setEntry 0x7000 3 [0, 0, 1, 0]).setEntry 0x7000 2 [0, 0, 0, 1, 0, 0, 0, 0]
  if mapped then s else { s with xl := { s.xl with pmat := coreState.xl.pmat } }
/-- The image that the next period writes, and whether the copy engine reaches its place. -/
def areaReached (s : State) : Bool :=
  let u := s.passTime
  let v := victimCopy (u.tallyCopy 0) (u.tallyCopy 1)
  s.ceReaches (s.dumpBase + 0x8000 * v) (u.tallyImage (genOf (u.tallyCopy (1 - v)) + 1)).length

theorem witness_PersistenceAndMemoryPort :
    memState.firmware = false ∧ (fwState.firmware = true ∧ fwState.hasTallyArea = false ∧ (fwState.res.persists + 1) % 1024 ≠ 0)
    ∧ Memory.wf memState.mem = true ∧ (5 : BitVec 41) ∉ memState.fab.reissued ∧ lineFind 5 memState.mem.cache = none
    ∧ (let s : State := { memState with fab := { memState.fab with reissued := [5] } }
       (5 : BitVec 41) ∈ s.fab.reissued ∧ s.mem.dirty 5 = none)
    ∧ ((areaState true).firmware = true ∧ (areaState true).hasTallyArea = true ∧ (areaState true).dumpBase % 64 = 0
      ∧ (areaState true).dumpBase + 0x10000 ≤ scratchBase ∧ ((areaState true).res.persists + 1) % 1024 ≠ 0 ∧ Memory.wf (areaState true).mem = true)
    ∧ (areaReached (areaState true) = true ∧ areaReached (areaState false) = false)
    ∧ (memState.region 0 = some wholeMap ∧ coreState.region 0 = none ∧ inScratch 0 = false) := by decide +kernel

/-- A request of a service on a path, of data and a length. -/
def reqOf (service : BitVec 4) (path : BitVec 2) (idx sub type len data : Nat) : DictReq :=
  { path := path, secure := false, service := service, tid := 0, prio := 0, source := 0, broadcast := false
    frame := BitVec.ofNat 512 (idx + sub * 2 ^ 16 + type * 2 ^ 28 + len * 2 ^ 56 + 2 ^ 62 * (if service = 2 then 1 else 0) + data * 2 ^ 64), passed := 0, bytes := 64 }
/-- Firmware serves the dictionary, requests waiting and one perhaps open, on a node of the field network. -/
def dictState (queue : List DictReq) (current : Option DictReq) : State :=
  { fwState with dict := { fwState.dict with queue := queue, current := current }, can := { fwState.can with en := true }
                 straps := { fwState.straps with mgmtNode := 5 } }
/-- The wait of a request for its turn. -/
def served (r : DictReq) : Bool :=
  let s := dictState [r] none
  s.dict.current.isNone && decide (s.dict.queue = [r]) && !r.malformed && !s.dict.bad && !engineServed r.index && decide (s.dep.bootStatus = 1)

theorem witness_DictionaryRequests :
    (let r := reqOf 1 2 0x2000 2 0 0 0
     (dictState [] (some r)).dict.current.isSome = true ∧ (dictState [] none).dict.queue = [] ∧ (dictState [] (some r)).dictWaiting 1 < 8 ∧ (dictState [] (some r)).fab.bad = false
     ∧ bitOf (noPacket.inl.toNat % 2 ^ 128) 4 = false ∧ (dictState [] (some r)).dict.current = some r ∧ r.service ≠ 2 ∧ (reqOf 1 0 0x2000 2 0 0 0).path ≠ 2)
    ∧ (served (reqOf 1 2 0x2000 2 0 0 0) = true ∧ served (reqOf 2 2 0x2000 2 1 1 127) = true ∧ served (reqOf 3 1 0x9999 1 0 4 1) = true
      ∧ (dictState [] none).lookEntry 0x9999 1 = .noIndex)
    ∧ (let r := reqOf 1 2 0x2000 2 0 0 0
       let s := dictState [r] none
       r.service = 1 ∧ r.path = 2 ∧ s.lookEntry r.index r.sub = .entry 1 .rw ∧ (Right.rw ≠ Right.wo) ∧ r.off = 0
       ∧ (s.entryBytes r.index r.sub 1).length = 1)
    ∧ (let r := reqOf 1 2 0x4000 1 0 0 0
       (dictState [r] none).lookEntry r.index r.sub = .entry 4 .ro ∧ ((dictState [r] none).entryBytes r.index r.sub 4).length = 8)
    ∧ (let r := reqOf 2 2 0x2000 2 1 1 127
       let s := dictState [r] none
       r.service = 2 ∧ s.lookEntry r.index r.sub = .entry 1 .rw ∧ r.type = 1 ∧ r.off = 0 ∧ r.last = true ∧ typeSize 1 = some r.len
       ∧ (r.index, r.sub) ≠ (0x2000, 6) ∧ (r.index, r.sub) ≠ (0x6000, 0xB) ∧ s.valueOk r.index r.sub 1 r.data = true)
    ∧ (let r := reqOf 3 1 0x4000 1 0 4 2
       let s := dictState [r] none
       served r = true ∧ s.lookEntry r.index r.sub = .entry 4 .ro ∧ Right.ro ≠ Right.wo ∧ r.off < (s.entryBytes r.index r.sub 4).length ∧ r.off = 0)
    ∧ (let s : State := { fwState with dict := { fwState.dict with ntfBusy := true } }
       s.dict.ntfBusy = true ∧ (dictState [] none).dict.ntfBusy = false ∧ (dictState [] none).canSends = true ∧ memState.canSends = false)
    ∧ (let ident : Nat := 5 * 2 ^ 19 + 1 * 2 ^ 12 + 3 * 2 ^ 8
       fieldOf ident 19 7 = (dictState [] none).straps.mgmtNode.toNat ∧ fieldOf ident 12 7 ≠ 0 ∧ fieldOf ident 12 7 ≠ (dictState [] none).straps.mgmtNode.toNat
       ∧ bitOf ident 7 = false ∧ fieldOf ident 8 4 = 3 ∧ fieldOf (6 * 2 ^ 19) 19 7 ≠ (dictState [] none).straps.mgmtNode.toNat
       ∧ (dictState (List.replicate 7 (reqOf 1 0 0 0 0 0 0)) none).dictWaiting 0 < 8
       ∧ 8 ≤ (dictState (List.replicate 8 (reqOf 1 0 0 0 0 0 0)) none).dictWaiting 0)
    ∧ (let s : State := { memState with can := { memState.can with state := 2 } }
       s.can.state = 2 ∧ memState.can.state ≠ 2) := by decide +kernel

/-- The three domains as given, with their targets. -/
def powerState (core tile store : PowerSt) (targets : BitVec 4) : State :=
  { memState with pwr := { memState.pwr with core := core, tile := tile, store := store, targets := targets } }
/-- The same, the core asleep. -/
def asleep (s : State) : State := { s with core := { s.core with sleeping := true } }

theorem witness_PowerDomains :
    (State.reset.pwr.core = .off ∧ State.reset.pwr.tile = .off ∧ State.reset.pwr.store = .off)
    ∧ (let s := powerState .on .off .off 1
       s.pwr.core = .on ∧ s.pwr.store = .off ∧ s.pwr.tile = .off ∧ s.pwr.targets.getLsbD 0 = true)
    ∧ (let s := powerState .on .off .on 1
       s.pwr.store = .on ∧ s.tileRetired = false ∧ s.noFill [1] = true ∧ s.pwr.targets.getLsbD 1 = false)
    ∧ (let s := powerState .on .on .on 7
       s.pwr.tile = .on ∧ s.bm.owner = none ∧ s.tile.queue = [] ∧ s.noFill [0, 2] = true)
    ∧ (let s := asleep (powerState .on .off .off 1)
       s.pwr.core = .on ∧ s.pwr.store = .off ∧ s.pwr.targets &&& 0xE = 0 ∧ s.coreMayStop = true)
    ∧ (powerState .rising .off .off 1).pwr.core = .rising ∧ (powerState .falling .off .off 0).pwr.core = .falling
    ∧ (powerState .on .rising .on 7).pwr.tile = .rising
    ∧ ((powerState .on .off .falling 0).pwr.store = .falling ∧ (powerState .on .off .falling 0).pwr.targets.getLsbD 2 = false)
    ∧ (let s := powerState .on .off .retaining 9
       s.pwr.store = .retaining ∧ s.pwr.fromRetention = false ∧ s.pwr.targets.getLsbD 3 = true)
    ∧ ((powerState .on .rising .on 7).pwr.of .tile).moving = true ∧ ((powerState .on .on .on 7).pwr.of .tile).moving = false := by decide +kernel

/-- The core in a mode, the deputy stopped. -/
def stoppedState (m : CoreMode) : State := { memState with core := { memState.core with mode := m }, dep := { memState.dep with halted := true } }

theorem witness_DebugAccess :
    (memState.dbg.ir ≠ 0x10 ∧ (let s : State := { memState with dbg := { memState.dbg with ir := 0x10 } }
                               s.dbg.ir = 0x10))
    ∧ (memState.core.mode = .run ∧ memState.tile.queue = [] ∧ (stoppedState .halted).core.mode = .halted ∧ (stoppedState .held).core.mode = .held)
    ∧ (memState.ringReads true (ringSeg 0x01000000) = false ∧ (memState.ringReads false (ringSeg 0x03000000) = false)
      ∧ ringSeg 0x09003FFF = 9 ∧ ringIndex 0x09003FFF < 16384 ∧ memState.ringReads false 9 = true)
    ∧ (memState.ringWrites false (ringSeg 0x09000000) 0 = false ∧ (stoppedState .halted).ringWrites false 9 (ringIndex 0x09003FFF) = true
      ∧ (stoppedState .halted).ringWrites false 9 16384 = false ∧ smWf (0x3EFF#14) 0 (stoppedState .halted).dep.prog = true)
    ∧ ((stoppedState .frozen).stopped = true ∧ memState.res.fatalDue = 0 ∧ memState.stopped = false ∧ memState.firmware = false
      ∧ memState.res.dumping = none ∧ fwState.stopped = false ∧ fwState.res.fatalDue = 0 ∧ fwState.res.dumping = none ∧ fwState.firmware = true) := by decide +kernel

/-! ### Results that the spec's worked examples and tables give -/

/-- A register of the next state. -/
def gives (r : Host.Outcome State Fault Refusal) (rd : RegIx) (v : Word) : Bool := nextIs r fun t => t.readG rd == v
/-- The flags of the next state: N, Z, C, V. -/
def flags (r : Host.Outcome State Fault Refusal) (n z c v : Bool) : Bool := nextIs r fun t => t.bank.fl == { n := n, z := z, c := c, v := v }
/-- Two source registers hold values. -/
def pairState (a b : Word) : State := (coreState.writeG 3 a).writeG 4 b

/-- 02 Format I's example: ADDI G5, G3, −4. -/
theorem test_addi_word : encI 0x01 5 3 0xFFFC = 0x04A3FFFC ∧ gives (exec (.addi 5 3 0xFFFC) (pairState 3 0)) 5 0xFFFFFFFFFFFFFFFF = true := by
  decide +kernel
theorem test_add_wraps : gives (exec (.add 5 3 4 0) (pairState 0xFFFFFFFFFFFFFFFF 1)) 5 0 = true
    ∧ flags (exec (.add 5 3 4 0) (pairState 0xFFFFFFFFFFFFFFFF 1)) false true true false = true := by decide +kernel
theorem test_sub_overflows : flags (exec (.sub 5 3 4 0) (pairState 0x8000000000000000 1)) false false true true = true
    ∧ flags (exec (.sub 5 3 4 0) (pairState 0 1)) true false false false = true := by decide +kernel
theorem test_destination_is_source : gives (exec (.sub 3 3 4 0) (pairState 9 4)) 3 5 = true := by decide +kernel
theorem test_g0_discards : gives (exec (.addi 0 3 7) (pairState 1 0)) 0 0 = true := by decide +kernel
/-- 02 Table 2.7's example of two moves. -/
theorem test_lih_inh : gives (exec (.lih 4 2 0 0x8000) coreState) 4 0xFFFF800000000000 = true
    ∧ gives (exec (.inh 4 0 0 0x1234) (pairState 0 0xFFFF800000000000)) 4 0xFFFF800000001234 = true := by decide +kernel
/-- 02 R35's corners of division. -/
theorem test_div_corners : gives (exec (.div 5 3 4 0) (pairState 0x8000000000000000 0xFFFFFFFFFFFFFFFF)) 5 0x8000000000000000 = true
    ∧ gives (exec (.rem 5 3 4 0) (pairState 7 0)) 5 7 = true ∧ flags (exec (.divu 5 3 4 0) (pairState 7 0)) true false false true = true := by
  decide +kernel
theorem test_mulhsu : gives (exec (.mulhsu 5 3 4 0) (pairState 0xFFFFFFFFFFFFFFFF 2)) 5 0xFFFFFFFFFFFFFFFF = true := by decide +kernel
theorem test_sar_carry : gives (exec (.sar 5 3 4 0) (pairState 0x8000000000000001 65)) 5 0xC000000000000000 = true
    ∧ flags (exec (.sar 5 3 4 0) (pairState 0x8000000000000001 65)) true false true false = true := by decide +kernel
theorem test_sextb : gives (exec (.sextb 5 3 0 0) (pairState 0x180 0)) 5 0xFFFFFFFFFFFFFF80 = true := by decide +kernel
/-- 1.0 + 2.0 = 3.0; the largest double doubled overflows to infinity. -/
theorem test_fadd : gives (exec (.fadd .f64 5 3 4 0) (pairState 0x3FF0000000000000 0x4000000000000000)) 5 0x4008000000000000 = true
    ∧ gives (exec (.fadd .f64 5 3 4 0) (pairState 0x7FEFFFFFFFFFFFFF 0x7FEFFFFFFFFFFFFF)) 5 0x7FF0000000000000 = true := by decide +kernel
theorem test_fsqrt : gives (exec (.fsqrt .f64 5 3 0 0) (pairState 0x4010000000000000 0)) 5 0x4000000000000000 = true := by decide +kernel
/-- A buffered store's first byte reads back as the least significant one (00 R7). -/
theorem test_store_load : nextIs (exec (.st 3 4 3 false false 0) ((memState.writeG 3 0x1122334455667788).writeG 4 0x7F8)) (fun t =>
    t.mem.sb.length == 1 && gives (exec (.ld 5 4 0 false false 0) { t with xl := { t.xl with dtlb := [], tlb := [] } }) 5 0x88) = true := by decide +kernel

/-- The known answers of Philox4x32-10 for zero and for all ones, as its authors publish them; no other source for R231's rounds was used. -/
theorem test_philox : philox 0 0 0 = ⟨0x6627e8d5, 0xe169c58d, 0xbc57ac4c, 0x9b00dbd8⟩
    ∧ philox (2 ^ 64 - 1) (2 ^ 64 - 1) (2 ^ 64 - 1) = ⟨0x408f276d, 0x41c83b0e, 0xa20bc7c6, 0x6d5451fd⟩ := by decide +kernel

/-- The example of 10 R235: HI of Q4, and the chunk at row 5, column 37 is bits 31 to 16 of X2. -/
theorem test_promotion_chunk : let r : BitVec 256 := qPut 0 1 0x10000
    qHi r 7 3 = 0x710003 ∧ promotionChunk r 7 3 0x0102 5 37 256 = (philox 0x710003 0x101020A800000100 0).x2 / 2 ^ 16 := by decide +kernel

/-- Table 8.5: through EXP = 2 into E4M3. -/
theorem test_quantise_e4m3 : let q (b : Nat) := quantise (fpDecode (fpParams .bf16) b) 4 2
    (q 0x42C8).1 = 0x5C ∧ (q 0xC4EE).1 = 0xFE ∧ (q 0xC4EE).2.amax = 0x44EE ∧ (q 0xC4EE).2.ovf = true ∧ (q 0xC4EE).2.sat = 1
    ∧ (q 0x3CC0).1 = 0x03 ∧ (q 0).1 = 0 ∧ (q 0x7FC0).1 = 0x7E ∧ (q 0x7FC0).2.nanin = true := by decide +kernel

/-- The slot update that follows Table 8.9: EXP 5, EXPPREV 2, LASTM 1, OVF 0. -/
theorem test_slot_update : let hist := [0x4480, 0, 0, 0, 0]
    let r := ssPut (ssPut (ssPut (ssPut (0 : BitVec 512) 0 0x0000000200011004) 1 1) 2 0x44EE) 3 0
    hist.length = 5 ∧ fieldOf (ssWord (ssUpdate r) 0) 32 8 = 5 := by decide +kernel

/-- The FP4 block of 08's second example: codes 7, 7, B, 1, 0 and scale byte 0x80. -/
theorem test_fp4_block : let src (b : Nat) : QSrc := some (bitOf b 15, fpDecode (fpParams .bf16) b)
    let o := quantLane 0 (ssPut 0 0 (0x10 + 2 ^ 5)) ([src 0x4170, src 0x4150, src 0xC030, src 0x3F20, src 0x3E00] ++ List.replicate 27 (src 0))
    o.data = 0x001B77 ∧ o.scales = [0x80] ∧ o.stat.ovf = true := by decide +kernel

/-- 14's example: MOVL D1, #0x40; MOVH D1, #0xB0. -/
theorem test_movl_movh : nextIs (exec (.movl 1 0x40) depPlain) (fun t => t.dep.reg 1 == 0x40
    && nextIs (exec (.movh 1 0xB0) t) (fun u => u.dep.reg 1 == 0xB040 && u.dep.pc == 2)) = true := by decide +kernel
/-- Table 14.4: SUB sets C where nothing is borrowed, and a shift's carry is the last bit out. -/
theorem test_deputy_flags : let s := depState fun d => (d.setReg 0 0x8001).setReg 1 1
    nextIs (exec (.deputySub 0 1 0) s) (fun t => t.dep.reg 0 == 0x8000 && t.dep.c && t.dep.n && !t.dep.v) = true
    ∧ nextIs (exec (.deputyShr 0 1 0) s) (fun t => t.dep.reg 0 == 0x4000 && t.dep.c) = true := by decide +kernel

/-- The example of 15 R340: node 5 reads CALWIN from node 0x21. -/
def canState : State :=
  { fwState with straps := { fwState.straps with mgmtNode := 0x21 }, can := { fwState.can with en := true } }
theorem test_can_read : nextIs (exec (.fieldNetworkFrame 0x0D085111 true 0x025000 8) canState) (fun t => t.dict.queue.any fun r =>
    r.index == 0x5000 && r.sub == 2 && r.service == 1
    && protoFrame r.index r.sub 3 0 0 true (canState.entryBytes r.index r.sub 3) == 0x000100004400000030025000) = true := by decide +kernel
/-- The request's identifier, as the example adds it up. -/
theorem test_can_ident : canIdent 3 0x21 5 1 false 0x11 = 0x0D085111 ∧ canIdent 3 5 0x21 1 true 0x11 = 0x0C2A1191 := by decide +kernel

/-- SHA-384 of "abc", as FIPS 180-4's example gives its first and last words. -/
theorem test_sha384 : natBig ((sha384 [0x61, 0x62, 0x63]).take 8) = 0xcb00753f45a35e8b ∧ natBig ((sha384 [0x61, 0x62, 0x63]).drop 40) = 0x58baeca134c825a7 := by
  decide +kernel

end Sys2Proof.Tests
end

section
/-! SUPPORT. How an instruction of the scalar core that issues ends: one rule for each way its work can end. -/

namespace Sys2Proof.Machine

section
variable {c : Instr} {s u r : State} {body : State → IRes}

/-- An instruction that issues leaves what its work, once finished, leaves. -/
theorem yields_of_issue (h : Issues s u) (hc : exec c s = s.issue body) : Yields c s (body u).finish :=
  hc.trans (issue_of_issues h body)

theorem completes_of_done (h : Issues s u) (hc : exec c s = s.issue body) (hb : body u = .done r) : Completes c s r := by
  have := yields_of_issue h hc
  rwa [hb] at this

theorem jumps_of_jump {target : Word} (h : Issues s u) (hc : exec c s = s.issue body) (hb : body u = .jump r target) :
    Jumps c s r target := by
  have := yields_of_issue h hc
  rwa [hb] at this

theorem traps_of_exc {e : Exc} (h : Issues s u) (hc : exec c s = s.issue body) (hb : body u = .exc r e) : Traps c s r e := by
  have := yields_of_issue h hc
  rwa [hb] at this

theorem yields_of_wait (h : Issues s u) (hc : exec c s = s.issue body) (hb : body u = .wait r) : Yields c s r := by
  have := yields_of_issue h hc
  rwa [hb] at this

/-- An operation that puts a result and its flags writes them. -/
theorem writes_of_putResult {rd : RegIx} {p : Word × Flags} {w : Word} {f : Flags} (h : Issues s u) (hc : exec c s = s.issue body)
    (hb : body u = u.putResult rd p) (hp : p = (w, f)) : Writes c s u rd w f :=
  completes_of_done h hc (by rw [hb, hp, State.putResult])

/-- A command answers one next state. -/
theorem next_of_yields {t x : State} (hy : Yields c s x) (ht : exec c s = .next t) : t = hardwire s x := by
  have : Host.Outcome.next (hardwire s x) = .next t := hy.symm.trans ht
  injection this with e
  exact e.symm

end

/-! ### What the end of an instruction keeps -/

/-- The level is that of the highest active level, which the hard-wired activity of level 0 does not change. -/
@[simp] theorem hardwire_lvl (s t : State) : (hardwire s t).lvl = t.lvl := by
  simp [State.lvl, hardwire]

@[simp] theorem hardwire_bankOf (s t : State) (l : Fin 8) : (hardwire s t).bankOf l = t.bankOf l := rfl

@[simp] theorem hardwire_bank (s t : State) : (hardwire s t).bank = t.bank := by
  simp [State.bank]

@[simp] theorem hardwire_readG (s t : State) (q : RegIx) : (hardwire s t).readG q = t.readG q := by
  simp [State.readG]

@[simp] theorem counted_lvl (s : State) : s.counted.lvl = s.lvl := rfl
@[simp] theorem counted_bankOf (s : State) (l : Fin 8) : s.counted.bankOf l = s.bankOf l := rfl
@[simp] theorem counted_bank (s : State) : s.counted.bank = s.bank := rfl
@[simp] theorem counted_readG (s : State) (q : RegIx) : s.counted.readG q = s.readG q := rfl

/-- The state with the current level's LC and PC as given: what the loop-end decision may change. -/
def State.atPc (s : State) (lc pc : Word) : State := s.setBank { s.bank with lc := lc, pc := pc }

theorem advancePc_eq (s : State) : ∃ lc pc, s.advancePc = s.atPc lc pc := by
  unfold State.advancePc
  dsimp only
  split
  · exact ⟨_, _, rfl⟩
  · exact ⟨s.bank.lc, _, rfl⟩

@[simp] theorem atPc_bank (s : State) (lc pc : Word) : (s.atPc lc pc).bank = { s.bank with lc := lc, pc := pc } :=
  State.bank_setBank s _

@[simp] theorem atPc_readG (s : State) (lc pc : Word) (q : RegIx) : (s.atPc lc pc).readG q = s.readG q := by
  simp [State.readG, Bank.readG]

@[simp] theorem atPc_lvl (s : State) (lc pc : Word) : (s.atPc lc pc).lvl = s.lvl := rfl

theorem atPc_bankOf_ne (s : State) (lc pc : Word) {l : Fin 8} (h : l ≠ s.lvl) : (s.atPc lc pc).bankOf l = s.bankOf l :=
  State.bankOf_setBankOf_ne s _ h

/-! ### Nothing but the core -/

theorem coreOnly_trans {s t u : State} (h : CoreOnly s t) (k : CoreOnly t u) : CoreOnly s u := by
  unfold CoreOnly at h k ⊢
  simp_all only [and_self]

theorem coreOnly_setBankOf (s : State) (l : Fin 8) (b : Bank) : CoreOnly s (s.setBankOf l b) := by
  simp [CoreOnly]

theorem coreOnly_setBank (s : State) (b : Bank) : CoreOnly s (s.setBank b) := coreOnly_setBankOf s _ b

theorem coreOnly_counted (s : State) : CoreOnly s s.counted := by
  simp [CoreOnly, State.counted]

theorem coreOnly_hardwire (s t : State) : CoreOnly t (hardwire s t) := by
  simp [CoreOnly]

/-! ### A completed instruction -/

/-- Without a debug step or single step, an instruction that completes changes, beside its own work, PC and LC and counts itself. -/
theorem completes_next {c : Instr} {s r t : State} (hd : Completes c s r) (hs : r.core.stepGrant = false) (hb : r.core.dbgStep = 0)
    (ht : exec c s = .next t) : ∃ lc pc, t = hardwire s (r.atPc lc pc).counted := by
  obtain ⟨lc, pc, ha⟩ := advancePc_eq r
  have hn := next_of_yields hd ht
  have hg : (r.atPc lc pc).core.dbgStep.getLsbD (r.atPc lc pc).lvl.val = false := by
    rw [show (r.atPc lc pc).core.dbgStep = 0 from hb]
    exact BitVec.getLsbD_zero
  have hs' : (r.atPc lc pc).core.stepGrant = false := hs
  rw [ha, retire_eq hs' hg] at hn
  exact ⟨lc, pc, hn⟩

end Sys2Proof.Machine
end

section
/-! SUPPORT. The results of the integer operations: additions, logic, shifts, counts, products and quotients, each with its flags. -/

namespace Sys2Proof.Machine

/-! ### Flags (02 R30) -/

theorem logicOf_eq (r : Word) : logicOf r = (r, flagsOf r false false) := rfl

theorem carryFlags_eq (r : Word) (c : Bool) : carryFlags r c = flagsOf r c false := rfl

theorem mulDivFlags_eq (r : Word) (v : Bool) : mulDivFlags r v = flagsOf r false v := rfl

@[simp] theorem bit_true : bit true = 1 := rfl

@[simp] theorem bit_false : bit false = 0 := rfl

/-! ### Additions and subtractions (02 R30) -/

/-- The signs decide the signed overflow of a sum with a carry. -/
theorem msb_overflow_iff (a b r : Word) (c : Nat) (hc : c ≤ 1) (hr : r.toNat = (a.toNat + b.toNat + c) % 2 ^ 64) :
    (a.msb == b.msb && r.msb != a.msb) = decide (r.toInt ≠ a.toInt + b.toInt + c) := by
  simp only [BitVec.msb_eq_decide, BitVec.toInt_eq_toNat_cond, hr]
  have ha := a.isLt
  have hb := b.isLt
  rw [Bool.eq_iff_iff]
  simp only [Bool.and_eq_true, beq_iff_eq, bne_iff_ne, decide_eq_decide, ne_eq, decide_eq_true_eq]
  omega

/-- The sum with its flags: C the unsigned overflow, V the signed one. -/
theorem addc_eq (a b : Word) (cin : Bool) {r : Word} (hr : r = a + b + wd (bit cin)) :
    addc a b cin = (r, flagsOf r (decide (2 ^ 64 ≤ a.toNat + b.toNat + bit cin)) (decide (r.toInt ≠ a.toInt + b.toInt + bit cin))) := by
  have hn : wd (a.toNat + b.toNat + bit cin) = r := by
    apply BitVec.eq_of_toNat_eq
    simp only [hr, BitVec.toNat_add, BitVec.toNat_ofNat]
    omega
  have hv := msb_overflow_iff a b r (bit cin) (by cases cin <;> decide) (by rw [← hn, BitVec.toNat_ofNat])
  rw [← hv, addc, hn]
  rfl

theorem addc_clear (a b : Word) :
    addc a b false = (a + b, flagsOf (a + b) (decide (2 ^ 64 ≤ a.toNat + b.toNat)) (decide ((a + b).toInt ≠ a.toInt + b.toInt))) := by
  have := addc_eq a b false (BitVec.add_zero (a + b)).symm
  simpa only [bit_false, Nat.add_zero, Nat.cast_zero, add_zero] using this

/-- Adding the complement subtracts, and the carry is that nothing was borrowed. -/
theorem addc_not (a b : Word) (cin : Bool) {r : Word} (hr : r = a - b - wd (1 - bit cin)) :
    addc a (~~~b) cin = (r, flagsOf r (decide (b.toNat + (1 - bit cin) ≤ a.toNat))
      (decide (r.toInt ≠ a.toInt - b.toInt - ((1 - bit cin : Nat) : Int)))) := by
  have hb := b.isLt
  have hn : (~~~b).toNat = 2 ^ 64 - 1 - b.toNat := BitVec.toNat_not
  have hs : r = a + ~~~b + wd (bit cin) := by
    rw [hr, BitVec.not_eq_neg_add]
    cases cin
    · show a - b - 1 = a + (-b - 1) + 0
      ring
    · show a - b - 0 = a + (-b - 1) + 1
      ring
  have hc : (2 ^ 64 ≤ a.toNat + (~~~b).toNat + bit cin) ↔ b.toNat + (1 - bit cin) ≤ a.toNat := by
    rw [hn]
    cases cin <;> simp only [bit_false, bit_true] <;> omega
  have hv : a.toInt + (~~~b).toInt + bit cin = a.toInt - b.toInt - ((1 - bit cin : Nat) : Int) := by
    have hi : (~~~b).toInt = -b.toInt - 1 := by
      rw [BitVec.toInt_eq_toNat_cond, BitVec.toInt_eq_toNat_cond, hn]
      omega
    rw [hi]
    cases cin <;> simp only [bit_false, bit_true] <;> omega
  rw [addc_eq a (~~~b) cin hs, decide_eq_decide.2 hc, hv]

theorem addc_not_set (a b : Word) :
    addc a (~~~b) true = (a - b, flagsOf (a - b) (decide (b.toNat ≤ a.toNat)) (decide ((a - b).toInt ≠ a.toInt - b.toInt))) := by
  have := addc_not a b true (BitVec.sub_zero (a - b)).symm
  simpa only [bit_true, Nat.sub_self, Nat.add_zero, Nat.cast_zero, sub_zero] using this

/-! ### Results by their flag rule -/

section
variable {c : Instr} {s u : State} {rd : RegIx} {body : State → IRes}

/-- An operation of the logic rule writes its result with C and V clear. -/
theorem writes_of_logic {x r : Word} (h : Issues s u) (hc : exec c s = s.issue body) (hb : body u = u.putResult rd (logicOf x))
    (hx : x = r) : Writes c s u rd r (flagsOf r false false) :=
  hx ▸ writes_of_putResult h hc hb (logicOf_eq x)

/-- A count writes its number, with C set for an operand of 0. -/
theorem writes_of_count {a : Word} {n : Nat} (h : Issues s u) (hc : exec c s = s.issue body)
    (hb : body u = u.putResult rd (countOf a n)) : Writes c s u rd (wd n) (flagsOf (wd n) (decide (a = 0)) false) :=
  writes_of_putResult h hc hb rfl

end

/-! ### Immediates and extensions (02 R33, Table 2.6) -/

theorem zext16_eq (imm : BitVec 16) : zext16 imm = wd imm.toNat := (BitVec.ofNat_toNat 64 imm).symm

/-- The low bits of a word, zero-extended. -/
theorem setWidth_setWidth_eq (a : Word) (k : Nat) : (a.setWidth k).setWidth 64 = wd (a.toNat % 2 ^ k) := by
  apply BitVec.eq_of_toNat_eq
  rw [BitVec.toNat_setWidth, BitVec.toNat_setWidth, BitVec.toNat_ofNat]

/-! ### Shifts (02 Table 2.6) -/

theorem bne_zero_eq (k : Nat) : (k != 0) = decide (k ≠ 0) := by cases k <;> rfl

theorem shiftLeft_eq (a : Word) (k : Nat) : shiftLeft a k = (a <<< k, flagsOf (a <<< k) (k ≠ 0 && a.getLsbD (64 - k)) false) := by
  rw [shiftLeft, carryFlags_eq, bne_zero_eq]

theorem shiftRight_eq (a : Word) (k : Nat) : shiftRight a k = (a >>> k, flagsOf (a >>> k) (k ≠ 0 && a.getLsbD (k - 1)) false) := by
  rw [shiftRight, carryFlags_eq, bne_zero_eq]

theorem shiftArith_eq (a : Word) (k : Nat) :
    shiftArith a k = (a.sshiftRight k, flagsOf (a.sshiftRight k) (k ≠ 0 && a.getLsbD (k - 1)) false) := by
  rw [shiftArith, carryFlags_eq, bne_zero_eq]

theorem rotateRight_eq (a : Word) (k : Nat) :
    rotateRight a k = (a.rotateRight k, flagsOf (a.rotateRight k) (k ≠ 0 && (a.rotateRight k).msb) false) := by
  rw [rotateRight, carryFlags_eq, bne_zero_eq]

/-- SHI's immediate: the kind in bits 7 and 6, the amount below. -/
def shiImm (kind : Fin 4) (n : Fin 64) : BitVec 16 := BitVec.ofNat 16 (kind.val * 64 + n.val)

theorem shiImm_toNat (kind : Fin 4) (n : Fin 64) : (shiImm kind n).toNat = kind.val * 64 + n.val := by
  rw [shiImm, BitVec.toNat_ofNat]
  omega

/-- No reserved bit of SHI's immediate is set. -/
theorem shiImm_reserved (kind : Fin 4) (n : Fin 64) : ((shiImm kind n).toNat / 256 == 0) = true := by
  rw [shiImm_toNat, beq_iff_eq]
  omega

theorem shiftImm_shiImm (kind : Fin 4) (n : Fin 64) (a : Word) :
    shiftImm (shiImm kind n) a = (match kind with
      | 0 => shiftLeft a n
      | 1 => shiftRight a n
      | 2 => shiftArith a n
      | 3 => rotateRight a n) := by
  have hn : (kind.val * 64 + n.val) % 64 = n.val := by omega
  have hk : (kind.val * 64 + n.val) / 64 % 4 = kind.val := by omega
  simp only [shiftImm, shiImm_toNat, hn, hk]
  fin_cases kind <;> rfl

/-- SHI writes what its shift gives. -/
theorem writes_shi {s u : State} (h : Issues s u) (rd ra : RegIx) (kind : Fin 4) (n : Fin 64) {r : Word} {f : Flags}
    (hp : shiftImm (shiImm kind n) (u.readG ra) = (r, f)) : Writes (.shi rd ra (shiImm kind n)) s u rd r f :=
  writes_of_putResult h rfl (by simp only [shiImm_reserved, guardRsv_true]) hp

/-! ### Counts (02 Table 2.6) -/

theorem clzFrom_le (a : Word) (k : Nat) : clzFrom a k ≤ k := by
  induction k with
  | zero => exact Nat.le_refl 0
  | succ k ih => rw [clzFrom]; split <;> omega

/-- The bits that CLZ counts are clear. -/
theorem clzFrom_clear (a : Word) {k i : Nat} (hi : i < clzFrom a k) : a.getLsbD (k - 1 - i) = false := by
  induction k generalizing i with
  | zero => exact absurd hi (Nat.not_lt_zero i)
  | succ k ih =>
    rw [clzFrom] at hi
    split at hi
    · exact absurd hi (Nat.not_lt_zero i)
    · next hk =>
      cases i with
      | zero => simpa using hk
      | succ i =>
        have := ih (i := i) (by omega)
        rwa [show k + 1 - 1 - (i + 1) = k - 1 - i by omega]

/-- The bit below those that CLZ counts is set. -/
theorem clzFrom_set (a : Word) {k : Nat} (hk : clzFrom a k < k) : a.getLsbD (k - 1 - clzFrom a k) = true := by
  induction k with
  | zero => exact absurd hk (Nat.not_lt_zero _)
  | succ k ih =>
    rw [clzFrom] at hk ⊢
    split at hk
    · next hb => simp [hb]
    · next hb =>
      rw [if_neg hb]
      have := ih (by omega)
      rwa [show k + 1 - 1 - (1 + clzFrom a k) = k - 1 - clzFrom a k by omega]

theorem ctzFrom_le (a : Word) (k : Nat) : ctzFrom a k ≤ k := by
  induction k with
  | zero => exact Nat.le_refl 0
  | succ k ih => rw [ctzFrom]; split <;> omega

/-- The bits that CTZ counts are clear. -/
theorem ctzFrom_clear (a : Word) {k i : Nat} (hk : k ≤ 64) (hi : i < ctzFrom a k) : a.getLsbD (64 - k + i) = false := by
  induction k generalizing i with
  | zero => exact absurd hi (Nat.not_lt_zero i)
  | succ k ih =>
    rw [ctzFrom] at hi
    split at hi
    · exact absurd hi (Nat.not_lt_zero i)
    · next hb =>
      cases i with
      | zero => simpa [show 64 - (k + 1) = 63 - k by omega] using hb
      | succ i =>
        have := ih (i := i) (by omega) (by omega)
        rwa [show 64 - (k + 1) + (i + 1) = 64 - k + i by omega]

/-- The bit above those that CTZ counts is set. -/
theorem ctzFrom_set (a : Word) {k : Nat} (hk : k ≤ 64) (hc : ctzFrom a k < k) : a.getLsbD (64 - k + ctzFrom a k) = true := by
  induction k with
  | zero => exact absurd hc (Nat.not_lt_zero _)
  | succ k ih =>
    rw [ctzFrom] at hc ⊢
    split at hc
    · next hb => simp [hb, show 64 - (k + 1) = 63 - k by omega]
    · next hb =>
      rw [if_neg hb]
      have := ih (by omega) (by omega)
      rwa [show 64 - (k + 1) + (1 + ctzFrom a k) = 64 - k + ctzFrom a k by omega]

/-- POPC counts the set bits. -/
theorem popFrom_eq (a : Word) (k : Nat) : popFrom a k = (List.range k).countP (fun i => a.getLsbD i) := by
  induction k with
  | zero => rfl
  | succ k ih =>
    rw [popFrom, ih, List.range_succ, List.countP_append, Nat.add_comm]
    simp only [List.countP_singleton]

/-! ### Products (02 R35) -/

/-- A multiply or divide operation writes what it gives, with C clear. -/
theorem writes_of_mulDiv {c : Instr} {s u : State} {op : Nat} {rd ra rb : RegIx} {func : Nat} {f : Word → Word → Word × Bool} {r : Word}
    {v : Bool} (h : Issues s u) (hc : exec c s = mulDivOp (encR2 op rd ra rb func 0) rd ra rb 0 f s)
    (hf : f (u.readG ra) (u.readG rb) = (r, v)) : Writes c s u rd r (flagsOf r false v) :=
  writes_of_putResult h hc rfl (by rw [hf, mulDivFlags_eq])

/-- A multiply or divide operation with a reserved bit set is undefined. -/
theorem undef_of_mulDiv {c : Instr} {s u : State} {op : Nat} {rd ra rb : RegIx} {func : Nat} {rsv : BitVec 9}
    {f : Word → Word → Word × Bool} (h : Issues s u) (hr : rsv ≠ 0)
    (hc : exec c s = mulDivOp (encR2 op rd ra rb func rsv) rd ra rb rsv f s) :
    Traps c s u { cause := 1, eaddr := encR2 op rd ra rb func rsv } :=
  traps_of_exc h hc (by rw [beq_eq_false_iff_ne.2 hr, guardRsv_false]; rfl)

/-- V of MUL: the signed product does not fit. -/
theorem mulLow_eq (a b : Word) : mulLow a b = (a * b, decide ((a * b).toInt ≠ a.toInt * b.toInt)) := by
  rw [mulLow, BitVec.toInt_mul]
  generalize a.toInt * b.toInt = p
  congr 1
  rw [← Bool.decide_or, decide_eq_decide, ne_eq, Int.bmod_eq_iff (by decide)]
  simp
  omega

/-! ### Quotients (02 R35) -/

/-- A zero divisor: all ones and the dividend. -/
theorem div_by_zero (a : Word) : divSigned a 0 = (0xFFFFFFFFFFFFFFFF, true) ∧ divUnsigned a 0 = (0xFFFFFFFFFFFFFFFF, true)
    ∧ remSigned a 0 = (a, true) ∧ remUnsigned a 0 = (a, true) := ⟨rfl, rfl, rfl, rfl⟩

theorem divUnsigned_eq (a : Word) {b : Word} (hb : b ≠ 0) : divUnsigned a b = (a / b, false) := by
  have : wd (a.toNat / b.toNat) = a / b := by
    apply BitVec.eq_of_toNat_eq
    rw [BitVec.toNat_udiv, BitVec.toNat_ofNat, Nat.mod_eq_of_lt (Nat.lt_of_le_of_lt (Nat.div_le_self _ _) a.isLt)]
  rw [divUnsigned, if_neg hb, this]

theorem remUnsigned_eq (a : Word) {b : Word} (hb : b ≠ 0) : remUnsigned a b = (a % b, false) := by
  have : wd (a.toNat % b.toNat) = a % b := by
    apply BitVec.eq_of_toNat_eq
    rw [BitVec.toNat_umod, BitVec.toNat_ofNat, Nat.mod_eq_of_lt (Nat.lt_of_le_of_lt (Nat.mod_le _ _) a.isLt)]
  rw [remUnsigned, if_neg hb, this]

/-- −2^63 by −1 is the one signed overflow. -/
theorem divOverflows_eq_false {a b : Word} (h : ¬(a = 0x8000000000000000 ∧ b = 0xFFFFFFFFFFFFFFFF)) : divOverflows a b = false := by
  rw [Bool.eq_false_iff]
  intro ho
  rw [divOverflows, Bool.and_eq_true, beq_iff_eq, beq_iff_eq] at ho
  exact h ho

theorem divSigned_eq {a b : Word} (hb : b ≠ 0) (h : ¬(a = 0x8000000000000000 ∧ b = 0xFFFFFFFFFFFFFFFF)) :
    divSigned a b = (a.sdiv b, false) := by
  have : BitVec.ofInt 64 (a.toInt.tdiv b.toInt) = a.sdiv b := by
    apply BitVec.eq_of_toInt_eq
    rw [BitVec.toInt_ofInt, BitVec.toInt_sdiv]
  rw [divSigned, if_neg hb, divOverflows_eq_false h, this]
  rfl

theorem remSigned_eq {a b : Word} (hb : b ≠ 0) (h : ¬(a = 0x8000000000000000 ∧ b = 0xFFFFFFFFFFFFFFFF)) :
    remSigned a b = (a.srem b, false) := by
  have : BitVec.ofInt 64 (a.toInt.tmod b.toInt) = a.srem b := by
    rw [← BitVec.toInt_srem, BitVec.ofInt_toInt]
  rw [remSigned, if_neg hb, divOverflows_eq_false h, this]
  rfl

/-- A signed quotient that does not overflow is exact. -/
theorem toInt_sdiv_of_fits {a b : Word} (h : ¬(a = 0x8000000000000000 ∧ b = 0xFFFFFFFFFFFFFFFF)) :
    (a.sdiv b).toInt = a.toInt.tdiv b.toInt :=
  BitVec.toInt_sdiv_of_ne_or_ne a b (Decidable.not_and_iff_or_not.1 h)

/-- A remainder that is not zero has the dividend's sign. -/
theorem tmod_sign (x y : Int) : (0 ≤ x → 0 ≤ x.tmod y) ∧ (x ≤ 0 → x.tmod y ≤ 0) := by
  refine ⟨Int.tmod_nonneg y, fun hx => ?_⟩
  have := Int.tmod_nonneg y (Int.neg_nonneg_of_nonpos hx)
  rw [Int.neg_tmod] at this
  omega

end Sys2Proof.Machine
end

section
/-! ## Additions and subtractions (02 R30, R32, R33) -/

namespace Sys2Proof.Machine

/-- Settles O5: each form is one addition to ra, or to SP, of an operand or of its complement. -/
theorem additionResultAndFlags : Obligations.AdditionResultAndFlags := by
  intro s u rd ra rb imm h a b i c sp
  exact ⟨writes_of_putResult h rfl rfl (addc_clear a b), writes_of_putResult h rfl rfl (addc_not_set a b),
    writes_of_putResult h rfl rfl (addc_eq a b _ rfl), writes_of_putResult h rfl rfl (addc_not a b _ rfl),
    writes_of_putResult h rfl rfl (addc_clear a i), writes_of_putResult h rfl rfl (addc_not_set a i),
    completes_of_done h rfl (congrArg (fun p : Word × Flags => IRes.done ((u.setSp p.1).setFl p.2)) (addc_clear sp i))⟩

end Sys2Proof.Machine
end

section
/-! ## Moves, the loop end, logic, shifts, counts, products and quotients (02 R30 to R35, R47) -/

namespace Sys2Proof.Machine

/-- Settles O7: each move writes what Table 2.7 gives and leaves FL, but SETFL. -/
theorem moveResults : Obligations.MoveResults := by
  intro s u rd ra rb hw imm imm21 cond h a k
  refine ⟨completes_of_done h rfl rfl, completes_of_done h rfl rfl, completes_of_done h rfl rfl, completes_of_done h rfl rfl,
    completes_of_done h rfl rfl, completes_of_done h rfl rfl, completes_of_done h rfl rfl, completes_of_done h rfl rfl,
    completes_of_done h rfl rfl, completes_of_done h rfl ?_⟩
  show IRes.done (u.setFl (Flags.ofBits (a.setWidth 4))) = _
  simp only [Flags.ofBits, BitVec.getLsbD_setWidth]
  rfl

/-- Settles O11: the decision is `advancePc`'s, case by case. -/
theorem loopEndDecision : Obligations.LoopEndDecision := by
  intro c s r b
  refine ⟨fun hd => ⟨fun hlc hpc => ?_, fun hnot => ?_⟩, fun target hj => hj⟩
  · rwa [Completes, State.advancePc, if_pos ⟨hlc, hpc⟩] at hd
  · rwa [Completes, advancePc_straight hnot] at hd

/-- Settles O6: logic by its result, shifts by the last bit out, counts by what they pass over. -/
theorem logicShiftAndCountResults : Obligations.LogicShiftAndCountResults := by
  refine ⟨?_, ?_, ?_⟩
  · intro s u rd ra rb imm h a b gives
    exact ⟨writes_of_logic h rfl rfl rfl, writes_of_logic h rfl rfl rfl, writes_of_logic h rfl rfl rfl, writes_of_logic h rfl rfl rfl,
      writes_of_logic h rfl rfl rfl, writes_of_logic h rfl rfl rfl, writes_of_logic h rfl rfl rfl, writes_of_logic h rfl rfl rfl,
      writes_of_logic h rfl rfl rfl, writes_of_logic h rfl rfl rfl, writes_of_logic h rfl rfl rfl,
      writes_of_logic h rfl rfl (setWidth_setWidth_eq a 8), writes_of_logic h rfl rfl (setWidth_setWidth_eq a 16),
      writes_of_logic h rfl rfl (setWidth_setWidth_eq a 32),
      writes_of_logic h rfl rfl (congrArg (a &&& ·) (zext16_eq imm)), writes_of_logic h rfl rfl (congrArg (a ||| ·) (zext16_eq imm)),
      writes_of_logic h rfl rfl (congrArg (a ^^^ ·) (zext16_eq imm))⟩
  · intro s u rd ra rb kind n h a k gives
    have hz : decide (n ≠ 0) = decide (n.val ≠ 0) := decide_eq_decide.2 (not_congr (Fin.ext_iff (a := n) (b := 0)))
    refine ⟨writes_of_putResult h rfl rfl (shiftLeft_eq a k), writes_of_putResult h rfl rfl (shiftRight_eq a k),
      writes_of_putResult h rfl rfl (shiftArith_eq a k), writes_of_putResult h rfl rfl (rotateRight_eq a k), ?_⟩
    rw [hz]
    refine ⟨?_, ?_, ?_, ?_⟩ <;> rintro rfl <;> refine writes_shi h rd ra _ n ?_ <;> rw [shiftImm_shiImm]
    · exact shiftLeft_eq a n
    · exact shiftRight_eq a n
    · exact shiftArith_eq a n
    · exact rotateRight_eq a n
  · intro s u rd ra h a gives
    refine ⟨⟨clzFrom a 64, clzFrom_le a 64, writes_of_count h rfl rfl, fun i hi => clzFrom_clear a hi, fun hn => clzFrom_set a hn⟩,
      ⟨ctzFrom a 64, ctzFrom_le a 64, writes_of_count h rfl rfl, fun i hi => ?_, fun hn => ?_⟩, ?_⟩
    · simpa using ctzFrom_clear a (Nat.le_refl 64) hi
    · simpa using ctzFrom_set a (Nat.le_refl 64) hn
    · rw [← popFrom_eq]
      exact writes_of_count h rfl rfl

/-- Settles O8: products from their exact values, quotients from `sdiv`, `srem` and the unsigned ones. -/
theorem multiplyAndDivideResults : Obligations.MultiplyAndDivideResults := by
  refine ⟨?_, ?_⟩
  · intro s u rd ra rb h a b gives
    refine ⟨writes_of_mulDiv h rfl (mulLow_eq a b), writes_of_mulDiv h rfl rfl, writes_of_mulDiv h rfl rfl, writes_of_mulDiv h rfl rfl,
      fun rsv hr => ?_⟩
    exact ⟨undef_of_mulDiv h hr rfl, undef_of_mulDiv h hr rfl, undef_of_mulDiv h hr rfl, undef_of_mulDiv h hr rfl,
      undef_of_mulDiv h hr rfl, undef_of_mulDiv h hr rfl, undef_of_mulDiv h hr rfl, undef_of_mulDiv h hr rfl⟩
  · intro s u rd ra rb h a b gives least ones
    refine ⟨fun hb => ?_, fun ha hb => ?_, fun hb => ?_, fun hb ho => ?_⟩
    · have hz := div_by_zero a
      rw [← hb] at hz
      obtain ⟨hd, hdu, hr, hru⟩ := hz
      exact ⟨writes_of_mulDiv h rfl hd, writes_of_mulDiv h rfl hdu, writes_of_mulDiv h rfl hr, writes_of_mulDiv h rfl hru⟩
    · have hd : divSigned a b = (least, true) := by rw [ha, hb]; rfl
      have hr : remSigned a b = (0, true) := by rw [ha, hb]; rfl
      exact ⟨writes_of_mulDiv h rfl hd, writes_of_mulDiv h rfl hr⟩
    · refine ⟨a / b, a % b, writes_of_mulDiv h rfl (divUnsigned_eq a hb), writes_of_mulDiv h rfl (remUnsigned_eq a hb), ?_, ?_⟩
      · rw [BitVec.toNat_udiv, BitVec.toNat_umod, Nat.div_add_mod']
      · exact BitVec.umod_lt a ((BitVec.pos_iff_ne_zero b).2 hb)
    · refine ⟨a.sdiv b, a.srem b, writes_of_mulDiv h rfl (divSigned_eq hb ho), writes_of_mulDiv h rfl (remSigned_eq hb ho), ?_⟩
      rw [toInt_sdiv_of_fits ho, BitVec.toInt_srem]
      refine ⟨(Int.tdiv_mul_add_tmod ..).symm, ?_, tmod_sign _ _⟩
      have hi : b.toInt ≠ 0 := fun e => hb (BitVec.eq_of_toInt_eq e)
      rw [Int.natAbs_tmod]
      exact Nat.mod_lt _ (Int.natAbs_pos.2 hi)

end Sys2Proof.Machine
end

section
/-! ## What the integer instructions leave unchanged (02 R32, R33, R35) -/

namespace Sys2Proof.Machine

/-- What an instruction that writes one register and FL leaves of the state it executes in. -/
theorem writes_frame {c : Instr} {s u t : State} {rd : RegIx} {r : Word} {f : Flags} (hw : Writes c s u rd r f)
    (hg : u.core.stepGrant = false) (hd : u.core.dbgStep = 0) (ht : exec c s = .next t) :
    (∀ q, q ≠ rd → t.readG q = u.readG q)
      ∧ (∃ x : Bank, t.bank = { u.bank with g := x.g, fl := f, pc := x.pc, lc := x.lc })
      ∧ (∀ l, l ≠ u.lvl → t.bankOf l = u.bankOf l) ∧ t.lvl = u.lvl ∧ t.core.fprm = u.core.fprm ∧ t.core.fpstat = u.core.fpstat
      ∧ CoreOnly u t := by
  obtain ⟨lc, pc, rfl⟩ := completes_next hw hg hd ht
  refine ⟨fun q hq => ?_, ⟨{ (u.writeG rd r).bank with lc := lc, pc := pc }, ?_⟩, fun l hl => ?_, ?_, rfl, rfl, ?_⟩
  · simp [State.readG_writeG_ne u r hq]
  · simp only [hardwire_bank, counted_bank, atPc_bank, State.setFl, State.writeG, State.bank_setBank]
    unfold Bank.writeG
    split <;> rfl
  · rw [hardwire_bankOf, counted_bankOf, atPc_bankOf_ne _ _ _ (by simpa using hl)]
    simp [State.writeG, State.setFl, State.setBank, State.bankOf_setBankOf_ne _ _ hl]
  · simp
  · exact coreOnly_trans (coreOnly_setBank u _) (coreOnly_trans (coreOnly_setBank _ _) (coreOnly_trans (coreOnly_setBank _ _)
      (coreOnly_trans (coreOnly_counted _) (coreOnly_hardwire s _))))

/-- Settles O12: each of them writes one register and FL, so `writes_frame` gives the rest. -/
theorem integerFrame : Obligations.IntegerFrame := by
  intro c s u t rd ra rb imm h hg hd hc ht
  have hw : ∃ r f, Writes c s u rd r f := by
    simp only [List.mem_cons, List.not_mem_nil, or_false] at hc
    rcases hc with rfl | rfl | rfl | rfl | rfl | rfl | rfl | rfl | rfl | rfl | rfl | rfl | rfl | rfl | rfl | rfl | rfl | rfl | rfl | rfl |
      rfl | rfl | rfl | rfl | rfl | rfl | rfl | rfl | rfl <;> exact ⟨_, _, writes_of_putResult h rfl rfl rfl⟩
  obtain ⟨r, f, hw⟩ := hw
  obtain ⟨hreg, ⟨x, hx⟩, hbanks, hlvl, hrm, hstat, hcore⟩ := writes_frame hw hg hd ht
  rw [hx]
  exact ⟨hreg, rfl, rfl, rfl, rfl, rfl, rfl, rfl, rfl, rfl, rfl, rfl, hrm, hstat, hlvl, hbanks, hcore⟩

end Sys2Proof.Machine
end

section
/-! ## Floating point, loads, stores and atomics (02 R36 to R41) -/

namespace Sys2Proof.Machine

/-- A signalling NaN is a NaN. -/
theorem isNan_of_isSnan {x : Fp} (h : x.isSnan = true) : x.isNan = true := by
  cases x with
  | nan _ => rfl
  | inf _ | fin _ _ _ => cases h

/-- Without a NaN operand there is no signalling one. -/
theorem isSnan_or_eq_false {x y : Fp} (h : (x.isNan || y.isNan) = false) : (x.isSnan || y.isSnan) = false := by
  rw [Bool.or_eq_false_iff] at h ⊢
  exact ⟨Bool.eq_false_iff.2 fun e => by simp [isNan_of_isSnan e] at h, Bool.eq_false_iff.2 fun e => by simp [isNan_of_isSnan e] at h⟩

/-- FMA of a format that its prec field names. -/
theorem fma_completes {s u : State} {p : FpFormat} {prec : BitVec 2} (h : Issues s u) (rd ra rb rc : RegIx) (neg : BitVec 2)
    (hp : fmaFormat prec = some p) :
    let r := fpFma (fpParams p) u.rounding ((fpOperand p (u.readG ra)).negIf (neg.getLsbD 1)) (fpOperand p (u.readG rb))
      ((fpOperand p (u.readG rc)).negIf (neg.getLsbD 0))
    Completes (.fma rd ra rb rc prec neg 0) s
      (((u.writeG rd (wd r.bits)).setFl (fpFlags (fpParams p) r.bits r.exc.nx)).raiseFp r.exc) :=
  completes_of_done h rfl (by simp only [hp]; rfl)

/-- Settles O13: each operation puts its result by `putFp`; FCMP raises invalid for a signalling NaN and without a NaN never does. -/
theorem floatResults : Obligations.FloatResults := by
  intro s u p rd ra rb rc rtz neg h q x y bitsA top rm gives givesInt
  refine ⟨completes_of_done h rfl rfl, completes_of_done h rfl rfl, completes_of_done h rfl rfl, completes_of_done h rfl rfl,
    completes_of_done h rfl rfl, completes_of_done h rfl rfl, completes_of_done h rfl rfl, completes_of_done h rfl rfl,
    completes_of_done h rfl rfl, completes_of_done h rfl rfl, completes_of_done h rfl rfl, completes_of_done h rfl rfl,
    completes_of_done h rfl rfl, completes_of_done h rfl rfl, completes_of_done h rfl rfl, completes_of_done h rfl rfl,
    fun prec hp => fma_completes h rd ra rb rc neg hp, ?_⟩
  refine ⟨x.isSnan || y.isSnan || ((x.isNan || y.isNan) && Config.fcmpQuietInvalid), completes_of_done h rfl rfl, fun hs => ?_, fun hn => ?_⟩
  · rw [hs, Bool.true_or]
  · rw [hn, isSnan_or_eq_false hn, Bool.false_and, Bool.or_false]

/-! ### Loads and stores -/

section
variable {u t : State} {rt : RegIx} {va : Word} {size : BitVec 2} {sx ord : Bool} {v : Nat} {e : Exc}

theorem loadReg_of_ok (h : u.load va (2 ^ size.toNat) ord = .ok t v) :
    u.loadReg rt va size sx ord = .done (t.writeG rt (extendBytes v (2 ^ size.toNat) sx)) := by
  simp only [State.loadReg, sizeBytes, h]

theorem loadReg_of_exc (h : u.load va (2 ^ size.toNat) ord = .exc t e) : u.loadReg rt va size sx ord = .exc t e := by
  simp only [State.loadReg, sizeBytes, h]

theorem storeReg_of_ok (h : u.store va (2 ^ size.toNat) (u.readG rt) ord = .ok t) : u.storeReg rt va size ord = .done t := by
  simp only [State.storeReg, sizeBytes, h]

theorem storeReg_of_exc (h : u.store va (2 ^ size.toNat) (u.readG rt) ord = .exc t e) : u.storeReg rt va size ord = .exc t e := by
  simp only [State.storeReg, sizeBytes, h]

end

/-- The store just pushed is the youngest of the buffer, whether or not the oldest had to leave. -/
theorem pushStore_sb (m : Mem) (e : StoreEntry) : ∃ older, (m.pushStore e).sb = older ++ [e] := by
  unfold Mem.pushStore
  split
  · next o t hs =>
    split
    · exact ⟨t, rfl⟩
    · exact ⟨m.sb, rfl⟩
  · exact ⟨[], rfl⟩

/-- A load of the place and size of the youngest store is forwarded from it, but from a side-effect page. -/
theorem loadThrough_youngest {m : Mem} {older : List StoreEntry} {e : StoreEntry} (h : m.sb = older ++ [e]) (ty : MemType)
    (hn : 0 < e.size) (ht : e.ty ≠ .device) : (m.loadThrough ty e.pa e.size).2 = (fieldOf e.data.toNat 0 (8 * e.size), false) := by
  have ho : overlaps e.pa e.size e.pa e.size = true := by simp [overlaps, hn]
  have hl : (m.sb.filter (fun x => overlaps e.pa e.size x.pa x.size)).getLast? = some e := by
    simp [h, List.filter_append, ho]
  unfold Mem.loadThrough
  rw [hl]
  dsimp only
  rw [if_pos ⟨Nat.le_refl _, Nat.le_refl _, ht⟩, Nat.sub_self, Nat.mul_zero]

/-- Settles O14: the accesses by what `load` and `store` answer, forwarding by `loadThrough_youngest`. -/
theorem loadStoreResults : Obligations.LoadStoreResults := by
  refine ⟨?_, ?_⟩
  · intro s u t rt ra rb size sx ord sh off v e h n base a x
    exact ⟨fun hl => completes_of_done h rfl (loadReg_of_ok hl), fun hl => completes_of_done h rfl (loadReg_of_ok hl),
      fun hs => completes_of_done h rfl (storeReg_of_ok hs), fun hs => completes_of_done h rfl (storeReg_of_ok hs),
      fun hl => traps_of_exc h rfl (loadReg_of_exc hl), fun hs => traps_of_exc h rfl (storeReg_of_exc hs)⟩
  · intro m ty pa n v release hn h8 ht e
    obtain ⟨older, ho⟩ := pushStore_sb m e
    rw [loadThrough_youngest ho ty hn ht]
    have hp : 2 ^ (8 * n) ≤ 2 ^ 64 := Nat.pow_le_pow_right (by decide) (by omega)
    have hv : (wd (v % 2 ^ (8 * n))).toNat = v % 2 ^ (8 * n) := by
      rw [BitVec.toNat_ofNat, Nat.mod_eq_of_lt (Nat.lt_of_lt_of_le (Nat.mod_lt _ (Nat.two_pow_pos _)) hp)]
    simp only [e, hv, fieldOf, Nat.pow_zero, Nat.div_one, Nat.mod_mod]

/-! ### Atomics -/

/-- An atomic whose access succeeds writes the old value to rd. -/
theorem completes_of_atomic {c : Instr} {s u t : State} {code : Nat} {rd ra rb : RegIx} {wide : Bool} {ord : BitVec 2}
    {f : Nat → Nat → Nat → Nat → Nat} {v : Nat} (h : Issues s u) (hc : exec c s = atomicOp code rd ra rb wide ord 0 f s)
    (ha : u.atomic code (u.baseReg ra) (atomicBytes wide) (fun old => f (atomicBytes wide) old
      ((u.readG rb).toNat % 2 ^ (8 * atomicBytes wide)) ((u.readG rd).toNat % 2 ^ (8 * atomicBytes wide))) = .ok t v) :
    Completes c s (t.writeG rd (wd v)) :=
  completes_of_done h hc (by simp only [beq_self_eq_true, guardRsv_true, ha])

/-- Settles O15: every form is `atomicOp` with its own function of the old value. -/
theorem atomicResults : Obligations.AtomicResults := by
  intro s u rd ra rb wide ord h n b d base gives
  exact ⟨fun _ _ => completes_of_atomic (f := fun n old b _ => (old + b) % 2 ^ (8 * n)) h rfl,
    fun _ _ => completes_of_atomic (f := fun _ _ b _ => b) h rfl,
    fun _ _ => completes_of_atomic (f := fun _ old b d => if old = d then b else old) h rfl,
    fun _ _ => completes_of_atomic (f := fun n old b _ => if signedBytes b n < signedBytes old n then b else old) h rfl,
    fun _ _ => completes_of_atomic (f := fun n old b _ => if signedBytes old n < signedBytes b n then b else old) h rfl,
    fun _ _ => completes_of_atomic (f := fun _ old b _ => if b < old then b else old) h rfl,
    fun _ _ => completes_of_atomic (f := fun _ old b _ => if old < b then b else old) h rfl⟩

end Sys2Proof.Machine
end

section
/-! ## Transfers of control, TRAP, BKPT and ERET (02 R42 to R47, R54, 05 R128) -/

namespace Sys2Proof.Machine

/-! ### CALL, RET and the hardware loop -/

section
variable {u t : State} {target : Word}

/-- A push that is stored moves SP and transfers control. -/
theorem pushAndJump_of_ok (ha : u.bank.sp.toNat % 8 = 0) (hs : u.store (u.bank.sp - 8) 8 (u.bank.pc + 4) false = .ok t) :
    u.pushAndJump target = .jump (t.setSp (u.bank.sp - 8)) target := by
  simp only [State.pushAndJump, ha, hs, ne_eq, not_true, if_false]

theorem returnTo_aligned (h : target.toNat % 4 = 0) : u.returnTo target = .jump (u.setSp (u.bank.sp + 8)) target := by
  simp only [State.returnTo, h, ne_eq, not_true, if_false]

theorem armLoop_of_zero {n : Word} (len : BitVec 16) (hn : n = 0) :
    u.armLoop n len = .jump u (u.bank.pc + 4 * ((len.setWidth 64 : Word) + 1)) := by
  simp only [State.armLoop, hn, if_true]

theorem armLoop_of_ne_zero {n : Word} (len : BitVec 16) (hn : n ≠ 0) :
    u.armLoop n len = .done (u.setBank { u.bank with lc := n, lb := u.bank.pc + 4, le := u.bank.pc + 4 * (len.setWidth 64 : Word) }) := by
  simp only [State.armLoop, hn, if_false]

end

/-- LOOP's own length, not 0, is not reserved. -/
theorem bne_zero_of_ne {w : Nat} {len : BitVec w} (h : len ≠ 0) : (len != 0) = true := bne_iff_ne.2 h

/-- A loop count is zero as a word where it is as a field. -/
theorem loopCount_eq_zero_iff (count : BitVec 10) : (count.setWidth 64 : Word) = 0 ↔ count = 0 := by
  constructor <;> intro h
  · bv_omega
  · rw [h]; rfl

/-! ### ERET (05 R128) -/

section
variable {s : State}

/-- A bank after a return within its level: at EPC with PPRIV's privilege, no exception in progress. -/
def Bank.returned (b : Bank) : Bank := { b with pc := b.epc, priv := b.ppriv, excm := false }

theorem eret_within (hx : s.bank.excm = true) (hl : s.lvl ≠ 7) (ha : s.bank.epc.toNat % 4 = 0) :
    s.eret = .moved (s.setBank s.bank.returned) := by
  simp [State.eret, State.eretTarget, Bank.returned, hx, hl, ha]

theorem eret_outside_exception (hx : s.bank.excm = false) (hl : s.lvl = 0) : s.eret = .exc s { cause := 1, eaddr := encJ 0x2D 1 } := by
  simp [State.eret, hx, hl]

theorem eret_misaligned (hx : s.bank.excm = true) (hl : s.lvl ≠ 7) (ha : s.bank.epc.toNat % 4 ≠ 0) :
    s.eret = .exc s { cause := 3, eaddr := s.bank.epc } := by
  simp [State.eret, State.eretTarget, hx, hl, ha]

theorem countConsumed_lvl (cause : Nat) : (s.countConsumed cause).lvl = s.lvl := by
  unfold State.countConsumed
  split <;> rfl

/-- The last of an instruction's end: cause 26 where its level is single-stepped (17 R398). -/
def State.singleStepped (s : State) : State :=
  if s.core.dbgStep.getLsbD s.lvl.val && !s.bank.excm then s.takeException { cause := 26, eaddr := s.bank.pc } else s

/-- An instruction's end is its count and the debug step, then the single step. -/
theorem retire_eq_singleStepped (s : State) :
    ∃ r : State, s.retire = r.singleStepped ∧ r.lvl = s.lvl ∧ r.bank = s.bank ∧ r.core.dbgStep = s.core.dbgStep := by
  by_cases hg : s.counted.core.stepGrant = true
  · exact ⟨s.counted.halted, by simp only [State.retire, hg, if_true]; rfl, rfl, rfl, rfl⟩
  · exact ⟨s.counted, by simp only [State.retire, hg]; rfl, rfl, rfl, rfl⟩

/-- The end of an instruction outside an exception keeps the level: a single step is taken at it. -/
theorem retire_lvl (hx : s.bank.excm = false) (hl : s.lvl ≠ 7) : s.retire.lvl = s.lvl := by
  obtain ⟨r, hr, hrl, hrb, -⟩ := retire_eq_singleStepped s
  rw [hr, State.singleStepped]
  split
  · rw [takeException_own (hrl ▸ hl) (hrb ▸ hx), State.setBank_lvl, countConsumed_lvl]
    exact hrl
  · exact hrl

/-- Without single step the end of an instruction keeps the bank. -/
theorem retire_bank (hd : s.core.dbgStep = 0) : s.retire.bank = s.bank := by
  obtain ⟨r, hr, -, hrb, hrd⟩ := retire_eq_singleStepped s
  have hz : r.core.dbgStep.getLsbD r.lvl.val = false := by rw [hrd, hd]; exact BitVec.getLsbD_zero
  rw [hr, State.singleStepped, hz, Bool.false_and, if_neg Bool.false_ne_true, hrb]

/-- An ERET within its level keeps the level and, without single step, leaves the bank returned. -/
theorem retireEret_within (hl : s.lvl ≠ 7) (ha : s.core.active[s.lvl] = true) :
    ((s.setBank s.bank.returned).retireEret s.lvl).lvl = s.lvl
      ∧ (s.core.dbgStep = 0 → ((s.setBank s.bank.returned).retireEret s.lvl).bank = s.bank.returned) := by
  have hr : ((s.setBank s.bank.returned).retireEret s.lvl).lvl = (s.setBank s.bank.returned).retire.lvl
      ∧ ((s.setBank s.bank.returned).retireEret s.lvl).bank = (s.setBank s.bank.returned).retire.bank := by
    simp only [State.retireEret, State.setBank_lvl, State.setBank_core_active, ha, decide_true, Bool.and_self, if_true]
    exact ⟨rfl, rfl⟩
  refine ⟨hr.1.trans (retire_lvl (by rw [State.bank_setBank]; rfl) hl), fun hd => ?_⟩
  rw [hr.2, retire_bank (by rwa [State.setBank_core_dbgStep]), State.bank_setBank]

end

/-- Settles O17, clause by clause: each body reduces to its own lemma. -/
theorem transfersTrapsAndReturn : Obligations.TransfersTrapsAndReturn := by
  refine ⟨?_, ?_⟩
  · intro s u t cond o22 o26 ra len count v h pc sp g armed
    refine ⟨fun hc => jumps_of_jump h rfl (if_pos hc), fun hc => completes_of_done h rfl (if_neg (by simp [hc])),
      jumps_of_jump h rfl rfl, fun hg => jumps_of_jump h rfl (if_neg (not_not.2 hg)),
      fun hg => ⟨traps_of_exc h rfl (if_pos hg), traps_of_exc h rfl (if_pos hg)⟩, fun ha hs => ⟨?_, fun hg => ?_⟩, fun ha hl hv => ?_,
      fun hlen hg => ?_, fun hlen hc => ?_, fun hlen hg => ?_, fun hlen hc => ?_⟩
    · exact jumps_of_jump h rfl (pushAndJump_of_ok ha hs)
    · exact jumps_of_jump h rfl ((if_neg (not_not.2 hg)).trans (pushAndJump_of_ok ha hs))
    · refine jumps_of_jump h rfl ?_
      have hw : (wd v).toNat % 4 = 0 := by rw [BitVec.toNat_ofNat]; omega
      simp only [beq_self_eq_true, guardRsv_true, show u.bank.sp.toNat % 8 = 0 from ha, show u.load u.bank.sp 8 = .ok t v from hl,
        ne_eq, not_true, if_false, returnTo_aligned hw]
    · exact completes_of_done h rfl (by
        simp only [bne_zero_of_ne hlen, beq_self_eq_true, Bool.and_self, guardRsv_true]; exact armLoop_of_ne_zero len hg)
    · exact completes_of_done h rfl (by
        simp only [bne_zero_of_ne hlen, guardRsv_true]
        exact armLoop_of_ne_zero len (mt (loopCount_eq_zero_iff count).1 hc))
    · exact jumps_of_jump h rfl (by
        simp only [bne_zero_of_ne hlen, beq_self_eq_true, Bool.and_self, guardRsv_true]; exact armLoop_of_zero len hg)
    · exact jumps_of_jump h rfl (by
        simp only [bne_zero_of_ne hlen, guardRsv_true]
        exact armLoop_of_zero len ((loopCount_eq_zero_iff count).2 hc))
  · intro s u code h b
    refine ⟨traps_of_exc h rfl rfl, traps_of_exc h rfl rfl, fun hp hx hl hact ha => ?_, fun hp hx hl => ?_, fun hp hx hl ha => ?_,
      fun hp => traps_of_exc h rfl (guardPriv_user hp _ _)⟩
    · have hy := yields_of_issue (c := .eret 0) h rfl
      simp only [beq_self_eq_true, guardRsv_true, guardPriv_super hp, eret_within hx hl ha, IRes.finish] at hy
      refine ⟨_, hy, ?_⟩
      rw [hardwire_lvl, hardwire_bank]
      exact retireEret_within hl hact
    · exact traps_of_exc h rfl (by
        simp only [beq_self_eq_true, guardRsv_true, guardPriv_super hp, eret_outside_exception hx hl]; rfl)
    · exact traps_of_exc h rfl (by
        simp only [beq_self_eq_true, guardRsv_true, guardPriv_super hp, eret_misaligned hx hl ha]; rfl)

end Sys2Proof.Machine
end

section
/-! ## String instructions on zero and one element (02 R49 to R53) -/

namespace Sys2Proof.Machine

/-! ### Chunks -/

section
variable {elem : State → Elem} {dev : State → Bool} {size : State → Nat} {finish : State → State} {s t : State}

/-- With the count at 0 nothing is done. -/
theorem stringOp_of_zero (hc : s.readG regCount = 0) : stringOp none elem dev size finish s = .done (finish s) := by
  simp only [stringOp, Option.getD_none, runChunks, hc, if_true]

/-- A chunk whose first element brings the count to 0 ends with it, on a side-effect page or not. -/
theorem runChunk_of_last {k : Nat} (hk : 0 < k) (hc : s.readG regCount ≠ 0) (he : elem s = .next t) (ht : t.readG regCount = 0) :
    runChunk elem dev k true s = .next t := by
  obtain ⟨k, rfl⟩ := Nat.exists_eq_succ_of_ne_zero (Nat.ne_of_gt hk)
  rw [Nat.succ_eq_add_one, runChunk, if_neg hc, if_pos rfl, he]
  split
  · rfl
  · cases k with
    | zero => rfl
    | succ k => dsimp only; rw [runChunk, if_pos ht]

/-- A chunk whose first element meets the stop condition ends with it. -/
theorem runChunk_of_stop {k : Nat} (hk : 0 < k) (hc : s.readG regCount ≠ 0) (he : elem s = .stop t) :
    runChunk elem dev k true s = .stop t := by
  obtain ⟨k, rfl⟩ := Nat.exists_eq_succ_of_ne_zero (Nat.ne_of_gt hk)
  rw [Nat.succ_eq_add_one, runChunk, if_neg hc, if_pos rfl, he, ite_self]

/-- The element that brings the count to 0 is the last. -/
theorem stringOp_of_last (hs : 0 < size s) (hc : s.readG regCount ≠ 0) (he : elem s = .next t) (ht : t.readG regCount = 0) :
    stringOp none elem dev size finish s = .done (finish t) := by
  simp only [stringOp, Option.getD_none, runChunks, if_neg hc, runChunk_of_last hs hc he ht, if_pos ht]

/-- The stop condition ends the instruction. -/
theorem stringOp_of_stop (hs : 0 < size s) (hc : s.readG regCount ≠ 0) (he : elem s = .stop t) :
    stringOp none elem dev size finish s = .done t := by
  simp only [stringOp, Option.getD_none, runChunks, if_neg hc, runChunk_of_stop hs hc he]

end

/-- A chunk has an element. -/
theorem chunkElems_pos (addr : Word) (size : BitVec 2) : 0 < chunkElems addr (2 ^ size.toNat) := by
  unfold chunkElems
  dsimp only
  split
  · next h => exact Nat.div_pos h (Nat.two_pow_pos _)
  · exact Nat.one_pos

/-! ### Elements -/

@[simp] theorem consumeData_readG (s : State) (r : RegIx) : s.consumeData.readG r = s.readG r := rfl

/-- An element takes one from the count, whatever addresses it moves. -/
theorem advanceElem_count (s : State) (n : Nat) (src dst : Bool) : (s.advanceElem n src dst).readG regCount = s.readG regCount - 1 := by
  have h29 : regCount ≠ regSrc := by decide
  have h30 : regCount ≠ regDst := by decide
  have h0 : regCount ≠ 0 := by decide
  cases src <;> cases dst <;>
    simp [State.advanceElem, State.readG_writeG_ne _ _ h29, State.readG_writeG_ne _ _ h30, State.readG_writeG_self _ _ h0]

/-- The last element of a count of 1. -/
theorem advanceElem_last {t : State} (h : t.readG regCount = 1) (n : Nat) (src dst : Bool) :
    (t.consumeData.advanceElem n src dst).readG regCount = 0 := by
  rw [advanceElem_count, consumeData_readG, h]
  rfl

section
variable {u w t : State} {va : Word} {n v : Nat}

theorem storeElem_of_ok {src dst : Bool} (h : u.store va n (wd v) false = .ok t) :
    u.storeElem va n v src dst = .next (t.consumeData.advanceElem n src dst) := by
  simp only [State.storeElem, h]

theorem loadElem_of_ok {other : State → Parts} (h : u.load va n = .ok t v) : u.loadElem va n other = .ok t v := by
  simp only [State.loadElem, h]

theorem elemFill_of_ok {rv : RegIx} (h : u.store (u.readG 30) n (wd ((u.readG rv).toNat % 2 ^ (8 * n))) false = .ok t) :
    elemFill rv n u = .next (t.consumeData.advanceElem n false true) := storeElem_of_ok h

theorem elemMov_of_ok (hl : u.load (u.readG 29) n = .ok w v) (hs : w.store (w.readG 30) n (wd v) false = .ok t) :
    elemMov n u = .next (t.consumeData.advanceElem n true true) := by
  have hl' : u.load (u.readG regSrc) n = .ok w v := hl
  simp only [elemMov, loadElem_of_ok hl', storeElem_of_ok (src := true) (dst := true) (show w.store (w.readG regDst) n (wd v) false = .ok t from hs)]

theorem elemCmp_of_ok {x : Nat} (stop : Bool) (hl : u.load (u.readG 29) n = .ok w v) (hx : w.load (w.readG 30) n = .ok t x) :
    elemCmp stop n u = (if stopMet stop v x then .stop (t.consumeData.setFl (stopFlags v x n))
      else .next (t.consumeData.advanceElem n true true)) := by
  have hl' : u.load (u.readG regSrc) n = .ok w v := hl
  have hx' : w.load (w.readG regDst) n = .ok t x := hx
  simp only [elemCmp, loadElem_of_ok hl', loadElem_of_ok hx']

theorem elemScan_of_ok (stop : Bool) (rv : RegIx) (hl : u.load (u.readG 29) n = .ok t v) :
    let x := (u.readG rv).toNat % 2 ^ (8 * n)
    elemScan stop rv n u = (if stopMet stop v x then .stop (t.consumeData.setFl (stopFlags v x n))
      else .next (t.consumeData.advanceElem n true false)) := by
  have hl' : u.load (u.readG regSrc) n = .ok t v := hl
  simp only [elemScan, loadElem_of_ok hl']

end

/-- One element that is performed ends the instruction. -/
theorem stringOp_of_performed {elem : State → Elem} {dev : State → Bool} {size : State → Nat} {finish : State → State} {u t : State}
    {src dst : Bool} {n : Nat} (hs : 0 < size u) (hc : u.readG regCount = 1) (ht : t.readG regCount = 1)
    (he : elem u = .next (t.consumeData.advanceElem n src dst)) :
    stringOp none elem dev size finish u = .done (finish (t.consumeData.advanceElem n src dst)) :=
  stringOp_of_last hs (by rw [hc]; decide) he (advanceElem_last ht n src dst)

/-- A comparison of one element: its flags where the stop condition is met, else the count run out and FL clear. -/
theorem stringOp_of_compared {elem : State → Elem} {dev : State → Bool} {size : State → Nat} {u t : State} {stop src dst : Bool}
    {a b n : Nat} (hs : 0 < size u) (hc : u.readG regCount = 1) (ht : t.readG regCount = 1)
    (he : elem u = (if stopMet stop a b then .stop (t.consumeData.setFl (stopFlags a b n))
      else .next (t.consumeData.advanceElem n src dst))) :
    stringOp none elem dev size State.clearFl u = .done (if decide (a = b) = stop then t.consumeData.setFl (stopFlags a b n)
      else (t.consumeData.advanceElem n src dst).clearFl) := by
  by_cases h : decide (a = b) = stop
  · rw [if_pos (by simpa [stopMet] using h)] at he
    rw [stringOp_of_stop hs (by rw [hc]; decide) he, if_pos h]
  · rw [if_neg (by simpa [stopMet] using h)] at he
    rw [stringOp_of_performed hs hc ht he, if_neg h]

/-- A string instruction completes as its chunks do. -/
theorem completes_of_string {c : Instr} {s u r : State} {body : State → IRes} {elem : State → Elem} {dev : State → Bool}
    {size : State → Nat} {finish : State → State} (h : Issues s u) (hc : exec c s = s.issue body)
    (hb : body u = stringOp none elem dev size finish u) (hr : stringOp none elem dev size finish u = .done r) : Completes c s r :=
  completes_of_done h hc (hb.trans hr)

/-- Settles O18: no element by `stringOp_of_zero`, one by what its accesses answer. -/
theorem stringResults : Obligations.StringResults := by
  intro s u t size stop rv h n clear next
  refine ⟨fun hz => ⟨completes_of_string h rfl (guardRsv_true ..) (stringOp_of_zero hz),
      completes_of_string h rfl (guardRsv_true ..) (stringOp_of_zero hz),
      completes_of_string h rfl (guardRsv_true ..) (stringOp_of_zero (finish := State.clearFl) hz),
      completes_of_string h rfl (guardRsv_true ..) (stringOp_of_zero (finish := State.clearFl) hz)⟩,
    fun hc hs ht => ?_, fun w v hc hl hs ht => ?_, fun w v hc hl x hx ht => ?_, fun v hc hl ht => ?_⟩
  · exact completes_of_string h rfl (guardRsv_true ..) (stringOp_of_performed (finish := id) (chunkElems_pos _ size) hc ht (elemFill_of_ok hs))
  · exact completes_of_string h rfl (guardRsv_true ..) (stringOp_of_performed (finish := id) (chunkElems_pos _ size) hc ht (elemMov_of_ok hl hs))
  · exact completes_of_string h rfl (guardRsv_true ..) (stringOp_of_compared (chunkElems_pos _ size) hc ht (elemCmp_of_ok stop hl hx))
  · exact completes_of_string h rfl (guardRsv_true ..) (stringOp_of_compared (chunkElems_pos _ size) hc ht (elemScan_of_ok stop rv hl))

end Sys2Proof.Machine
end

section
/-! ## Fences, TLB invalidation and cache maintenance (02 R54, 03 R70, R83, 04 R105) -/

namespace Sys2Proof.Machine

/-! ### TLB invalidation -/

section
variable {u : State}

/-- While a tile instruction before it cannot start, an invalidation waits. -/
theorem tlbinv_of_stuck (h : u.drainStores.tileStuck = true) (p : TlbSlot → Bool) : u.tlbinv p = .wait u.drainStores := by
  simp only [State.tlbinv, State.afterTile, h, if_true]

/-- The slots that stay are those the invalidation does not name, and of the table-entry cache the stage-2 entries. -/
theorem tlbinv_of_free (h : u.drainStores.tileStuck = false) {p keep : TlbSlot → Bool} (hk : ∀ e, keep e = !p e) :
    u.tlbinv p = .done { u.performAll with xl := { u.performAll.xl with
      itlb := u.performAll.xl.itlb.filter keep, dtlb := u.performAll.xl.dtlb.filter keep, tlb := u.performAll.xl.tlb.filter keep,
      tec := u.performAll.xl.tec.filter (·.stage2) } } := by
  obtain rfl : keep = fun e => !p e := funext hk
  simp only [State.tlbinv, State.afterTile, State.performAll, h, Bool.false_eq_true, if_false, Xlat.keepSlots]

end

/-! ### Cache maintenance -/

/-- A cache operation whose address translates acts once earlier stores are performed. -/
theorem cacheOp_of_ok {u t : State} {ra : RegIx} {kind : AccKind} {loc : Loc}
    (h : u.translate { kind := kind, va := u.readG ra, eaddr := u.readG ra, priv := u.super } = .ok t loc) (f : State → Loc → IRes) :
    u.cacheOp ra kind f = f t.drainStores loc := by
  simp only [State.cacheOp, h]

/-- An address outside the scratch window waits for no zero-fill. -/
theorem waitsForFill_of_not_inScratch (s : State) {pa : Nat} (h : inScratch pa = false) : s.waitsForFill pa = false := by
  simp [State.waitsForFill, h]

/-- An address outside the scratch window is never an unbacked one. -/
theorem unbacked_of_not_inScratch (s : State) {pa : Nat} (h : inScratch pa = false) : s.unbacked pa = false := by
  simp [State.unbacked, h]

/-- Settles O19: the TLB by what an invalidation keeps, the caches by `cacheOp_of_ok`. -/
theorem fencesTlbAndCacheMaintenance : Obligations.FencesTlbAndCacheMaintenance := by
  refine ⟨?_, ?_⟩
  · intro s u mask ra rb h p kept
    refine ⟨fun hm => ?_, traps_of_exc h rfl rfl, fun hp hs => ?_, fun hp hs => ⟨?_, ?_, ?_⟩, fun hp => ?_⟩
    · have hg : (mask != 0) = true := bne_iff_ne.2 hm
      exact completes_of_done h rfl (by rw [hg]; rfl)
    · exact yields_of_wait h rfl ((guardRsv_true ..).trans ((guardPriv_super hp ..).trans (tlbinv_of_stuck hs _)))
    · exact completes_of_done h rfl ((guardRsv_true ..).trans ((guardPriv_super hp ..).trans (tlbinv_of_free hs fun _ => rfl)))
    · exact completes_of_done h rfl ((guardRsv_true ..).trans ((guardPriv_super hp ..).trans (tlbinv_of_free hs fun e => by
        rw [Bool.not_and, Bool.not_not]; rfl)))
    · exact completes_of_done h rfl ((guardRsv_true ..).trans ((guardPriv_super hp ..).trans (tlbinv_of_free hs fun _ => rfl)))
    · exact traps_of_exc h rfl ((guardRsv_true ..).trans (guardPriv_user hp ..))
  · intro s u t ra pa h va maps m g hs
    refine ⟨fun hm => ⟨?_, ?_, ?_⟩, fun hp hm => ?_, fun hp => ?_, fun hm => ?_⟩
    · exact completes_of_done h rfl ((guardRsv_true ..).trans (cacheOp_of_ok hm _))
    · exact completes_of_done h rfl ((guardRsv_true ..).trans (cacheOp_of_ok hm _))
    · exact completes_of_done h rfl ((guardRsv_true ..).trans (cacheOp_of_ok hm _))
    · exact completes_of_done h rfl ((guardRsv_true ..).trans ((guardPriv_super hp ..).trans (cacheOp_of_ok hm _)))
    · exact ⟨_, traps_of_exc h rfl ((guardRsv_true ..).trans (guardPriv_user hp ..)), rfl⟩
    · refine completes_of_done h rfl ((guardRsv_true ..).trans ((cacheOp_of_ok hm _).trans ?_))
      simp only [waitsForFill_of_not_inScratch _ hs, unbacked_of_not_inScratch _ hs, Bool.false_eq_true, if_false]
      rfl

end Sys2Proof.Machine
end

section
/-! ## CSR access by the core and register writes from outside (02 R55, 00 R8, 14 R305) -/

namespace Sys2Proof.Machine

/-! ### ESAVE as a CSR (05 R140) -/

theorem csrGet_esave (s : State) : s.csrGet 0x106 = (s, s.bank.esave) := by
  have : wd s.bank.esave.toNat = s.bank.esave := BitVec.ofNat_toNat 64 _ |>.trans (BitVec.setWidth_eq _)
  exact Prod.ext rfl this

theorem csrPut_esave (s : State) (v one : Word) (secure : Bool) :
    s.csrPut 0x106 v one secure = .ok (s.setBank { s.bank with esave := v }) := rfl

/-- ESAVE is read and written by the Supervisor, and is none of the customer logic's. -/
theorem csrRights_esave : csrRights 0x106 = some ⟨0x101, 0x106, .super, .super⟩ := by decide

section
variable {u : State}

/-- A CSR instruction on ESAVE at Supervisor privilege: the old value to rd and, for a write form, its value to ESAVE. -/
theorem csrInstr_esave (hp : u.super = true) (cop : Nat) (rd ra : RegIx) (pe : Bool) (x : Word) (put : Option CsrForm) :
    u.csrInstr cop rd ra 0x106 pe x put = .done (match put with
      | none => u.writeG rd u.bank.esave
      | some f => (u.setBank { u.bank with esave := f.value u.bank.esave x }).writeG rd u.bank.esave) := by
  have hw : csrOfWinze 0x106 = false := rfl
  have hn : (0x106 : BitVec 12).toNat = 0x106 := rfl
  simp only [State.csrInstr, hn, hw, csrRights_esave, CsrRight.allows, hp, Bool.or_true, Bool.and_self, Bool.false_and, if_true,
    Bool.false_eq_true, if_false]
  cases put with
  | none => simp [State.csrAccess, csrGet_esave, csrAfterTile]
  | some f => simp [State.csrAccess, csrGet_esave, csrPut_esave, csrAfterTile]

end

/-! ### Data SRAM written from outside -/

/-- `d'` is `d` with the `n` low bytes of `v` in data SRAM from `a` on, in canonical form. -/
structure SramWritten (d d' : Deputy) (a n v : Nat) : Prop where
  bytes : ∀ k < n, smGet 0#8 (a + k) d'.data = BitVec.ofNat 8 (v / 256 ^ k)
  rest : ∀ k, k < a ∨ a + n ≤ k → smGet 0#8 k d'.data = smGet 0#8 k d.data
  prog : d'.prog = d.prog
  wf : smWf 0#8 0 d'.data = true

/-- Bytes written one after another. -/
theorem setSramNat_written {d : Deputy} (h : smWf 0#8 0 d.data = true) (a v n : Nat) (bad : Bool) :
    SramWritten d (d.setSramNat a v n bad) a n v := by
  induction n with
  | zero => exact ⟨fun k hk => absurd hk (Nat.not_lt_zero k), fun _ _ => rfl, rfl, h⟩
  | succ n ih =>
    have hs : d.setSramNat a v (n + 1) bad = (d.setSramNat a v n bad).setSram (a + n) (BitVec.ofNat 8 (v / 256 ^ n)) bad := by
      simp [Deputy.setSramNat, List.range_succ]
    rw [hs]
    refine ⟨fun k hk => ?_, fun k hk => ?_, ih.prog, smWf_smSet _ ih.wf (Nat.zero_le _)⟩
    · rcases Nat.lt_succ_iff_lt_or_eq.1 hk with hk | rfl
      · exact (smGet_smSet_ne _ _ _ (by omega)).trans (ih.bytes k hk)
      · exact smGet_smSet_self _ _ ih.wf
    · exact (smGet_smSet_ne _ _ _ (by omega)).trans (ih.rest k (by omega))

/-- Two adjacent pieces are one. -/
theorem SramWritten.append {d e f : Deputy} {a k n v : Nat} (hk : k ≤ n) (h1 : SramWritten d e a k v)
    (h2 : SramWritten e f (a + k) (n - k) (v / 2 ^ (8 * k))) : SramWritten d f a n v := by
  refine ⟨fun j hj => ?_, fun j hj => ?_, h2.prog.trans h1.prog, h2.wf⟩
  · by_cases hjk : j < k
    · exact (h2.rest (a + j) (by omega)).trans (h1.bytes j hjk)
    · have hv : v / 2 ^ (8 * k) / 256 ^ (j - k) = v / 256 ^ j := by
        rw [Nat.div_div_eq_div_mul, Nat.pow_mul, ← Nat.pow_add, Nat.add_sub_cancel' (Nat.le_of_not_lt hjk)]
      rw [← hv, ← h2.bytes (j - k) (by omega)]
      congr 1
      omega
  · exact (h2.rest j (by omega)).trans (h1.rest j (by omega))

/-- A secure write of a data SRAM byte is never refused. -/
theorem byteFault_sram (s : State) {a : Nat} (h : a < 0x8000) : s.byteFault false true a = none := by
  have h1 : inCoreWindow a = false := decide_eq_false (by omega)
  have h2 : ¬ 0x8000 ≤ a := by omega
  simp [State.byteFault, h1, h2]

/-- The pieces that a write of data SRAM is made in leave its bytes. -/
theorem writeBytes_written {fuel : Nat} {s : State} {a n v : Nat} (hf : n ≤ fuel) (ha : a + n ≤ 0x8000)
    (h : smWf 0#8 0 s.dep.data = true) : SramWritten s.dep (s.writeBytes true a n v fuel).dep a n v := by
  induction fuel generalizing s a n v with
  | zero =>
    obtain rfl : n = 0 := by omega
    exact setSramNat_written h a v 0 false
  | succ fuel ih =>
    rw [State.writeBytes]
    by_cases hn : n = 0
    · subst hn
      exact setSramNat_written h a v 0 false
    · obtain ⟨k, hk, hk1, hkn⟩ : ∃ k, (if a % 2 = 0 ∧ 2 ≤ n then 2 else 1) = k ∧ 1 ≤ k ∧ k ≤ n := by
        split
        · next hc => exact ⟨2, rfl, by decide, hc.2⟩
        · exact ⟨1, rfl, by decide, by omega⟩
      simp only [if_neg hn, hk, Bool.not_true, byteFault_sram s (show a < 0x8000 by omega), Option.isSome_none, Bool.false_eq_true,
        if_false, if_pos (show a < 0x8000 by omega)]
      have h1 := setSramNat_written h a v k false
      exact h1.append hkn (ih (s := { s with dep := s.dep.setSramNat a v k false }) (by omega) (by omega) h1.wf)

/-- Settles O20: ESAVE by `csrInstr_esave`, data SRAM by `writeBytes_written`. -/
theorem csrAccessAndRegisterWrites : Obligations.CsrAccessAndRegisterWrites := by
  refine ⟨?_, ?_⟩
  · intro s u rd ra imm pe h hp old x i put
    exact ⟨completes_of_done h rfl ((guardRsv_true ..).trans (csrInstr_esave hp 0 rd 0 pe 0 none)),
      completes_of_done h rfl (csrInstr_esave hp 1 rd ra pe x (some .write)),
      completes_of_done h rfl (csrInstr_esave hp 2 rd ra pe x (some .set)),
      completes_of_done h rfl (csrInstr_esave hp 3 rd ra pe x (some .clear)),
      completes_of_done h rfl (csrInstr_esave hp 5 rd imm pe i (some .write)),
      completes_of_done h rfl (csrInstr_esave hp 6 rd imm pe i (some .set)),
      completes_of_done h rfl (csrInstr_esave hp 7 rd imm pe i (some .clear))⟩
  · intro s a n v csr secure
    refine ⟨fun hw => if_neg (by rw [hw]; decide), fun h1 h8 ha hd => ?_, fun hc => ?_, fun hc => ?_⟩
    · have hw : windowAccess a n = true := by
        simp only [windowAccess, h1, h8, decide_true, Bool.and_self, Bool.true_and, decide_eq_true_eq]
        omega
      have hs := writeBytes_written (v := v.toNat) h8 ha hd
      exact ⟨_, if_pos hw, hs.bytes, hs.rest, hs.prog⟩
    · exact congrArg (answer s) (if_pos hc)
    · exact congrArg (answer s) (if_neg (not_not.2 hc))

end Sys2Proof.Machine
end

section
/-! ## The winze port (02 R56 to R60) -/

namespace Sys2Proof.Machine

/-! ### Requests -/

section
variable {u : State}

/-- Without speculative requests there is nothing to cancel. -/
theorem cancelEarly_wz_of_none {w : Winze} (h : w.early = []) : w.cancelEarly = w := by
  simp only [Winze.cancelEarly, h, List.filter_nil, List.map_nil, List.reverse_nil, List.nil_append]
  rw [← h]

theorem cancelEarly_of_none (h : u.wz.early = []) : u.cancelEarly = u := by
  rw [State.cancelEarly, cancelEarly_wz_of_none h]

theorem askWinze_of_none (h : u.wz.early = []) (q : WzAsk) (pe : Bool) : u.askWinze q pe = u.offerWinze q pe := by
  simp only [State.askWinze, h, List.findIdx?_nil, cancelEarly_of_none h]

theorem offerWinze_of_parityError (q : WzAsk) : u.offerWinze q true = .exc u { cause := 20, einfo := 8 } := rfl

theorem offerWinze_of_tag (q : WzAsk) {tag : BitVec 4} (h : u.wz.pickTag = some tag) :
    u.offerWinze q false = .wait { u with wz := { u.wz.takeTag tag with req := some (u.wzRequest q tag false u.bank.pc) } } := by
  simp only [State.offerWinze, h, Bool.false_eq_true, if_false]

/-- The instruction finds its answer with the one speculative request, which was made for it. -/
theorem askWinze_of_answered {r : WzReq} {q : WzAsk} {x : WzAnswer} (he : u.wz.early = [r]) (hr : r.isFor u q = true)
    (hx : r.answer = some x) (pe : Bool) :
    u.askWinze q pe = ({ u with wz := { u.wz with early := [] } } : State).wzOutcome r x := by
  have hf : u.wz.early.findIdx? (fun r => r.isFor u q) = some 0 := by simp [he, List.findIdx?_cons, hr]
  have h0 : u.wz.early[0]? = some r := by rw [he, List.getElem?_cons_zero]
  have hd : u.wz.early.drop 1 = [] := by rw [he, List.drop_succ_cons, List.drop_zero]
  have hc : ({ u.wz with early := u.wz.early.take 0 } : Winze).cancelEarly = { u.wz with early := [] } := rfl
  unfold State.askWinze
  rw [hf]
  simp only [h0, hx, Nat.zero_add]
  rw [hd, hc]

theorem speculate_of_refused (q : WzAsk) (pc : Word) {pe : Bool} (h : u.wz.specsafe = false ∨ pe = true) : u.speculate q pc pe = u := by
  unfold State.speculate
  rw [if_pos]
  rcases h with h | h <;> simp [h]

theorem speculate_of_tag (q : WzAsk) (pc : Word) {tag : BitVec 4} (hr : u.coreRuns = true) (hb : u.build.winze = true)
    (hs : u.wz.specsafe = true) (ht : u.wz.pickTag = some tag) :
    u.speculate q pc false = { u with wz := { u.wz.takeTag tag with early := u.wz.early ++ [u.wzRequest q tag true pc] } } := by
  simp only [State.speculate, hr, hb, hs, ht, Bool.not_true, Bool.or_self, Bool.false_eq_true, if_false]

end

/-! ### Responses -/

theorem wzAnswerOf_good (data : Word) : wzAnswerOf data (byteParity data) 0 = .ok data := by simp [wzAnswerOf]
theorem wzAnswerOf_undefined (data : Word) : wzAnswerOf data (byteParity data) 1 = .undefined := by simp [wzAnswerOf]
theorem wzAnswerOf_error (data : Word) : wzAnswerOf data (byteParity data) 2 = .error data 0 := by simp [wzAnswerOf]

/-- A clean response ends the request that awaits it, or is ignored. -/
theorem execWzRsp_clean (tag : BitVec 4) (data : Word) (status : BitVec 2) (s : State) :
    execWzRsp tag data (byteParity data) status s = answer s ((s.answerWinze tag (wzAnswerOf data (byteParity data) status)).getD
      { s with wz := { s.wz with ignored := s.wz.ignored.erase tag } }) := by
  simp [execWzRsp]

section
variable {s : State} {r : WzReq}

/-- The outcome of the request that the oldest instruction waits for. -/
theorem answerWinze_of_req (hr : s.wz.req = some r) (ht : r.transferred = true) (x : WzAnswer) :
    s.answerWinze r.tag x = some (({ s with wz := { s.wz with req := none } } : State).endWinze r x) := by
  simp only [State.answerWinze, hr, ht, and_self, if_true]

/-- The outcome of a speculative request is kept with it. -/
theorem answerWinze_of_early (hr : s.wz.req = none) (he : s.wz.early = [r]) (ht : r.transferred = true) (ha : r.answer = none)
    (x : WzAnswer) : s.answerWinze r.tag x = some { s with wz := { s.wz with early := [{ r with answer := some x }] } } := by
  simp [State.answerWinze, hr, he, ht, ha]

/-- A response with another tag is none's. -/
theorem answerWinze_of_other {tag : BitVec 4} (hr : s.wz.req = some r) (he : s.wz.early = []) (ht : tag ≠ r.tag) (x : WzAnswer) :
    s.answerWinze tag x = none := by
  simp [State.answerWinze, hr, he, Ne.symm ht]

theorem failWinze_of_no_entry (hw : s.core.entryWaits = false) (undef : Bool) (eaddr : Word) (info : Nat) :
    s.failWinze undef eaddr info
      = s.takeException { cause := if undef then 1 else 20, eaddr := eaddr, einfo := wd (if undef then 1 else info) } := by
  simp only [State.failWinze, hw, Bool.false_eq_true, if_false]

theorem endWinze_error_of_no_entry (hw : s.core.entryWaits = false) (eaddr : Word) (info : Nat) :
    s.endWinze r (.error eaddr info) = s.takeException { cause := 20, eaddr := eaddr, einfo := wd info } :=
  failWinze_of_no_entry hw false eaddr info

theorem endWinze_undefined_of_no_entry (hw : s.core.entryWaits = false) :
    s.endWinze r .undefined = s.takeException { cause := 1, eaddr := r.word, einfo := 1 } :=
  failWinze_of_no_entry hw true r.word 0

theorem endWinze_ok_of_no_entry (hw : s.core.entryWaits = false) (r : WzReq) (data : Word) :
    s.endWinze r (.ok data) = (s.writeG r.rd data).advancePc.retire := by
  have : ({ s with core := { s.core with entryWaits := false } } : State) = s := by rw [← hw]
  rw [State.endWinze, this]
  rfl

end

/-! ### Exceptions and the port -/

theorem countConsumed_wz (s : State) (cause : Nat) : (s.countConsumed cause).wz = s.wz := by
  unfold State.countConsumed
  split <;> rfl

theorem setEvent_wz (s : State) (n : Nat) : (s.setEvent n).wz = s.wz := by
  unfold State.setEvent
  split <;> rfl

theorem lazyReserve_wz (s : State) (l : Fin 8) : (s.lazyReserve l).wz = s.wz := by
  unfold State.lazyReserve
  split
  · dsimp only
    split <;> rfl
  · rfl

theorem enterSeven_wz (s : State) (n : Nat) (epc einfo : Word) (eaddr : Option Word) : (s.enterSeven n epc einfo eaddr).wz = s.wz :=
  lazyReserve_wz _ 7

theorem countEntry_wz (s : State) : (s.countEntry false).wz = s.wz := rfl

theorem logEvent_wz (s : State) (kind cls unit addr info : Nat) : (s.logEvent kind cls unit addr info).wz = s.wz := rfl

theorem escalate_wz (s : State) (cause : Nat) (eaddr einfo epc : Word) : (s.escalate cause eaddr einfo epc).wz = s.wz.cancelEarly := by
  unfold State.escalate
  dsimp only
  split
  · exact countConsumed_wz _ cause
  · rw [logEvent_wz, countEntry_wz, State.tallyInc_wz, setEvent_wz, enterSeven_wz, countConsumed_wz]
    rfl

/-- Taking an exception cancels the speculative requests and leaves the rest of the port. -/
theorem takeException_wz (s : State) (e : Exc) : (s.takeException e).wz = s.wz.cancelEarly := by
  by_cases hl : s.lvl = 7
  · rw [takeException_seven hl]
    exact countConsumed_wz _ e.cause
  · cases hx : s.bank.excm
    · rw [takeException_own hl hx]
      exact countConsumed_wz _ e.cause
    · rw [takeException_escalates hl hx]
      exact escalate_wz ..

/-! ### The commands of the port -/

/-- The request of a winze instruction, as it asks the port. -/
def State.winzeAsk (s : State) (rd ra rb : RegIx) (op : BitVec 3) (func : BitVec 11) : WzAsk :=
  { op := op.setWidth 2, func := func, a := s.readG ra, b := s.readG rb, csr := false, rd := rd,
    word := encR (0x38 + op.toNat) rd ra rb func.toNat }

/-- A winze instruction that issues asks the port where this build has one and its opcode is one of the port's. -/
theorem winzeRequest_yields {s u : State} (h : Issues s u) (rd ra rb : RegIx) (op : BitVec 3) (func : BitVec 11) (p : Bool)
    (hb : u.build.winze = true) (ho : op.toNat < 4) :
    Yields (.winzeRequest rd ra rb op func p none) s (u.askWinze (u.winzeAsk rd ra rb op func) p).finish := by
  have hn : (!u.build.winze || decide (4 ≤ op.toNat)) = false := by simp [hb, ho]
  have := yields_of_issue h (c := .winzeRequest rd ra rb op func p none) rfl
  rw [hn] at this
  exact this

/-- Without the port, or with an opcode none of the port's, it is undefined. -/
theorem winzeRequest_undefined {s u : State} (h : Issues s u) (rd ra rb : RegIx) (op : BitVec 3) (func : BitVec 11) (p : Bool)
    (hu : u.build.winze = false ∨ 4 ≤ op.toNat) :
    Traps (.winzeRequest rd ra rb op func p none) s u { cause := 1, eaddr := encR (0x38 + op.toNat) rd ra rb func.toNat } := by
  have hn : (!u.build.winze || decide (4 ≤ op.toNat)) = true := by
    rcases hu with hu | hu <;> simp [hu]
  exact traps_of_exc h (c := .winzeRequest rd ra rb op func p none) rfl (if_pos hn)

/-- A speculative request, offered where the opcode is one of the port's. -/
theorem winzeRequest_early (s : State) (rd ra rb : RegIx) (op : BitVec 3) (func : BitVec 11) (pc : Word) (p : Bool) :
    Yields (.winzeRequest rd ra rb op func p (some pc)) s
      (if 4 ≤ op.toNat then s else s.speculate (s.winzeAsk rd ra rb op func) pc p) := rfl

/-- The request of a speculation that asks for the same, at the same place, is the instruction's. -/
theorem isFor_of_eq {r : WzReq} {u : State} {ra rb : RegIx} (hcsr : r.csr = false) (hspec : r.spec = true) (hpriv : r.priv = u.super)
    (hlvl : r.lvl = u.lvl) (hpc : r.pc = u.bank.pc) (ha : r.a = u.readG ra) (hb : r.b = u.readG rb) (hap : r.apar = byteParity r.a)
    (hbp : r.bpar = byteParity r.b) (hw : r.word = encR (0x38 + r.op.toNat) r.rd ra rb r.func.toNat) :
    r.isFor u (u.winzeAsk r.rd ra rb (r.op.setWidth 3) r.func) = true := by
  have ho : (r.op.setWidth 3).setWidth 2 = r.op := by simp
  have hn : (r.op.setWidth 3).toNat = r.op.toNat := by simp; omega
  obtain ⟨tag, op, func, a, b, priv, lvl, csr, rd, word, spec, apar, bpar, pc, transferred, answer⟩ := r
  simp only at *
  subst hcsr hspec hpriv hlvl hpc ha hb hap hbp hw
  simp only [WzReq.isFor, State.wzRequest, State.winzeAsk, ho, hn, beq_self_eq_true]

/-- The transfer of the one request that waits. -/
theorem wzReqTransfer_oldest {s : State} {r : WzReq} (hr : s.wz.req = some r) (ht : r.transferred = false) :
    Yields .wzReqTransfer s { s with wz := { s.wz with req := some { r with transferred := true } } } := by
  show execWzReqTransfer s = _
  simp only [execWzReqTransfer, hr, ht, Bool.false_eq_true, if_false]
  rfl

theorem wzReqTransfer_early {s : State} {r : WzReq} {q : List WzReq} (hr : s.wz.req = none) (he : s.wz.early = r :: q)
    (ht : r.transferred = false) : Yields .wzReqTransfer s { s with wz := { s.wz with early := { r with transferred := true } :: q } } := by
  show execWzReqTransfer s = _
  simp only [execWzReqTransfer, hr, he, transferFirst, ht, Bool.false_eq_true, if_false]
  rfl

/-- A clean response to a request that is ended leaves what its outcome does. -/
theorem wzRsp_yields {s t : State} {tag : BitVec 4} {data : Word} {status : BitVec 2} {x : WzAnswer}
    (hx : wzAnswerOf data (byteParity data) status = x) (h : s.answerWinze tag x = some t) :
    Yields (.wzRsp tag data (byteParity data) status) s t := by
  refine (execWzRsp_clean tag data status s).trans ?_
  rw [hx, h]
  rfl

/-- The state with a request's timeout counted and its tag ignored. -/
def State.countTimeout (s : State) (tag : BitVec 4) : State :=
  ({ s with wz := { s.wz with ignored := tag :: s.wz.ignored, timeouts := satInc s.wz.timeouts } } : State).tallyInc 0x49

theorem execWzTimeout_eq (s : State) (tag : BitVec 4) :
    execWzTimeout s tag = answer s (((s.countTimeout tag).answerWinze tag (.error 0 2)).getD s) := rfl

/-- The state once the request is ended too. -/
def State.timedOut (s : State) (tag : BitVec 4) : State :=
  { s.countTimeout tag with wz := { (s.countTimeout tag).wz with req := none } }

/-- A clean response ends the request of the oldest instruction as its outcome says. -/
theorem wzRsp_oldest {s t : State} {r : WzReq} {data : Word} {status : BitVec 2} {x : WzAnswer} (hr : s.wz.req = some r)
    (ht : r.transferred = true) (hx : wzAnswerOf data (byteParity data) status = x)
    (h : ({ s with wz := { s.wz with req := none } } : State).endWinze r x = t) :
    Yields (.wzRsp r.tag data (byteParity data) status) s t :=
  wzRsp_yields hx ((answerWinze_of_req hr ht x).trans (congrArg some h))

/-- A timeout ends its request with an error, and counts; its tag is ignored from then on. -/
theorem wzTimeout_yields {s : State} {r : WzReq} (hr : s.wz.req = some r) (ht : r.transferred = true) (hw : s.core.entryWaits = false) :
    Yields (.wzTimeout r.tag) s ((s.timedOut r.tag).takeException { cause := 20, einfo := 2 }) := by
  refine (execWzTimeout_eq s r.tag).trans ?_
  rw [answerWinze_of_req (s := s.countTimeout r.tag) hr ht, Option.getD_some]
  exact congrArg (answer s) (endWinze_error_of_no_entry (s := s.timedOut r.tag) hw 0 2)

/-- The state after the timeout: the port's, and the exception where one is taken at its own level. -/
theorem wzTimeout_next {s : State} {r : WzReq} (hr : s.wz.req = some r) (he : s.wz.early = []) (ht : r.transferred = true)
    (hw : s.core.entryWaits = false) :
    ∃ t, exec (.wzTimeout r.tag) s = .next t ∧ t.wz.req = none ∧ t.wz.timeouts = satInc s.wz.timeouts ∧ t.wz.ignored = r.tag :: s.wz.ignored
      ∧ (s.lvl ≠ 7 → s.bank.excm = false → t.bank.ecause = 20 ∧ t.bank.einfo = 2) := by
  have hp : ((s.timedOut r.tag).takeException { cause := 20, einfo := 2 }).wz = (s.timedOut r.tag).wz :=
    (takeException_wz ..).trans (cancelEarly_wz_of_none he)
  refine ⟨_, wzTimeout_yields hr ht hw, ?_⟩
  rw [hardwire_wz, hp, hardwire_bank]
  refine ⟨rfl, rfl, rfl, fun hl hx => ?_⟩
  rw [takeException_own (s := s.timedOut r.tag) hl hx, State.bank_setBank]
  exact ⟨rfl, rfl⟩

/-- Settles O38: the request offered, in its turn or early, its transfer, its answers and its timeout. -/
theorem winzePort : Obligations.WinzePort := by
  refine ⟨fun s u rd ra rb op func tag h he => ⟨fun hb ho ht => ?_, fun hb ho => ?_,
      fun hu p => winzeRequest_undefined h rd ra rb op func p hu⟩,
    fun s rd ra rb op func pc p tag => ⟨fun hn => ?_, fun hr hb hs ho ht => ?_⟩,
    fun s u r data h hb he hcsr hspec hpriv hlvl hpc hx ra rb ha hbv hap hbp hw p => ?_,
    fun s r q data hr he => ⟨wzReqTransfer_early hr he, fun hq ht hx => ?_⟩,
    fun s r data hr he hw => ⟨wzReqTransfer_oldest hr, fun ht => ⟨?_, ?_, ?_, wzTimeout_next hr he ht hw⟩, fun tag ht => ?_⟩⟩
  · have := winzeRequest_yields h rd ra rb op func false hb ho
    rwa [askWinze_of_none he, offerWinze_of_tag _ ht] at this
  · have := winzeRequest_yields h rd ra rb op func true hb ho
    rwa [askWinze_of_none he, offerWinze_of_parityError] at this
  · have := winzeRequest_early s rd ra rb op func pc p
    split at this
    · exact this
    · next ho => rwa [speculate_of_refused _ _ (by tauto)] at this
  · have := winzeRequest_early s rd ra rb op func pc false
    rwa [if_neg (by omega), speculate_of_tag _ pc hr hb hs ht] at this
  · have hf := isFor_of_eq (rb := rb) hcsr hspec hpriv hlvl hpc ha hbv hap hbp hw
    have := winzeRequest_yields h r.rd ra rb (r.op.setWidth 3) r.func p hb (by simp; omega)
    rwa [askWinze_of_answered he hf hx] at this
  · subst hq
    exact wzRsp_yields (wzAnswerOf_good data) (answerWinze_of_early hr he ht hx _)
  · exact wzRsp_oldest hr ht (wzAnswerOf_good data) (endWinze_ok_of_no_entry (by exact hw) r data)
  · exact wzRsp_oldest hr ht (wzAnswerOf_undefined data) (endWinze_undefined_of_no_entry (by exact hw))
  · exact wzRsp_oldest hr ht (wzAnswerOf_error data) (endWinze_error_of_no_entry (by exact hw) data 0)
  · refine (execWzRsp_clean tag data 0 s).trans ?_
    rw [answerWinze_of_other hr he ht]
    rfl

end Sys2Proof.Machine
end

section
/-! ## Memory beside the store buffer and on-core memory (03 R66, R75) -/

namespace Sys2Proof.Machine

/-- Memory with another store buffer and other on-core bytes. -/
def Mem.aside (m : Mem) (b : List StoreEntry) (o : List Host.Cell) : Mem := { m with sb := b, onCore := o }

section
variable (m : Mem) (b : List StoreEntry) (o : List Host.Cell)

@[simp] theorem aside_sb : (m.aside b o).sb = b := rfl
@[simp] theorem aside_onCore : (m.aside b o).onCore = o := rfl
@[simp] theorem aside_cache : (m.aside b o).cache = m.cache := rfl
@[simp] theorem aside_tsc : (m.aside b o).tsc = m.tsc := rfl
@[simp] theorem aside_tsSets : (m.aside b o).tsSets = m.tsSets := rfl
@[simp] theorem aside_storeWays (n : Nat) : (m.aside b o).storeWays n = m.storeWays n := rfl
@[simp] theorem aside_l2ways : (m.aside b o).l2ways = m.l2ways := rfl
@[simp] theorem aside_l2Set (g : Nat) : (m.aside b o).l2Set g = m.l2Set g := rfl
@[simp] theorem aside_l1Set (g : Nat) : (m.aside b o).l1Set g = m.l1Set g := rfl

theorem aside_setBackNat (pa v n : Nat) : (m.aside b o).setBackNat pa v n = (m.setBackNat pa v n).aside b o := by
  induction n generalizing m pa v with
  | zero => rfl
  | succ n ih => exact ih (m.setBack pa (BitVec.ofNat 8 v)) (pa + 1) (v / 256)

theorem aside_portWrite (src : BitVec 3) (pa n v : Nat) : (m.aside b o).portWrite src pa n v = (m.portWrite src pa n v).aside b o := by
  unfold Mem.portWrite
  rw [aside_setBackNat]
  rfl

theorem aside_setBackLine (l : CacheLine) : (m.aside b o).setBackLine l = (m.setBackLine l).aside b o := by
  unfold Mem.setBackLine
  rw [aside_setBackNat]
  generalize m.setBackNat (64 * l.granule) l.data.toNat 64 = x
  dsimp only
  split <;> rfl

theorem aside_evictStore (n : Nat) : (m.aside b o).evictStore n = (m.evictStore n).aside b o := by
  unfold Mem.evictStore
  have h : ((m.tsc.filter (fun l => l.granule / 2 == n)).foldl Mem.setBackLine (m.aside b o))
      = (((m.tsc.filter (fun l => l.granule / 2 == n)).foldl Mem.setBackLine m)).aside b o :=
    List.foldl_hom (fun m : Mem => m.aside b o) (fun x l => aside_setBackLine x b o l)
  rw [aside_tsc, h]
  rfl

theorem aside_toStore (l : CacheLine) : (m.aside b o).toStore l = (m.toStore l).aside b o := by
  unfold Mem.toStore
  simp only [aside_tsSets, aside_setBackLine, aside_storeWays, aside_evictStore, aside_tsc]
  split
  · rfl
  · split <;> rfl

theorem aside_evictL2 (g : Nat) : (m.aside b o).evictL2 g = (m.evictL2 g).aside b o := by
  unfold Mem.evictL2
  rw [aside_cache]
  split
  · rfl
  · exact aside_toStore { m with cache := lineErase g m.cache } b o _

theorem aside_room (g : Nat) (l1 : Bool) : (m.aside b o).room g l1 = (m.room g l1).aside b o := by
  have h (x : Mem) : (if l1 && decide (8 ≤ (x.l1Set g).length) then (x.aside b o).evictL1 (victimOf (x.l1Set g)) else x.aside b o)
      = (if l1 && decide (8 ≤ (x.l1Set g).length) then x.evictL1 (victimOf (x.l1Set g)) else x).aside b o := by
    split <;> rfl
  unfold Mem.room
  simp only [aside_l2ways, aside_l2Set, aside_evictL2]
  by_cases hw : m.l2ways ≤ (m.l2Set g).length
  · simp only [if_pos hw, aside_l1Set, h]
  · simp only [if_neg hw, aside_l1Set, h]

theorem aside_putLine (l : CacheLine) : (m.aside b o).putLine l = (m.putLine l).aside b o := by
  unfold Mem.putLine
  rw [aside_room]
  rfl

theorem aside_putEngine (l : CacheLine) : (m.aside b o).putEngine l = (m.putEngine l).aside b o := by
  unfold Mem.putEngine
  rw [aside_cache]
  split
  · exact aside_putLine m b o _
  · rw [aside_toStore]
    rfl

theorem aside_fetchLine (g : Nat) : (m.aside b o).fetchLine g = m.fetchLine g := by
  have h (n pa : Nat) : (m.aside b o).backNat pa n = m.backNat pa n := by
    induction n generalizing pa with
    | zero => rfl
    | succ n ih => exact congrArg (fun x => (m.backByte pa).toNat + 256 * x) (ih (pa + 1))
  unfold Mem.fetchLine
  rw [h]
  rfl

theorem aside_setByte (pa : Nat) (v : Byte) : (m.aside b o).setByte pa v = (m.setByte pa v).aside b o := by
  unfold Mem.setByte
  rw [aside_fetchLine, aside_putLine]

theorem aside_writeNat (pa v n : Nat) : (m.aside b o).writeNat pa v n = (m.writeNat pa v n).aside b o := by
  induction n generalizing m pa v with
  | zero => rfl
  | succ n ih =>
    simp only [Mem.writeNat, aside_setByte]
    exact ih ..

theorem aside_writeTy (ty : MemType) (pa n v : Nat) : (m.aside b o).writeTy ty pa n v = (m.writeTy ty pa n v).aside b o := by
  cases ty with
  | cached | scratch => exact aside_writeNat ..
  | uncached => exact aside_portWrite ..
  | device => rfl

theorem aside_poisonGranule (g : Nat) : (m.aside b o).poisonGranule g = (m.poisonGranule g).aside b o := by
  unfold Mem.poisonGranule
  rw [aside_fetchLine, aside_putEngine]

/-- A buffered store is performed alike, whatever else is buffered. -/
theorem aside_performStore (e : StoreEntry) : (m.aside b o).performStore e = (m.performStore e).aside b o := by
  unfold Mem.performStore
  rw [aside_writeTy]
  dsimp only
  split
  · exact aside_poisonGranule ..
  · rfl

/-- So is a list of them. -/
theorem aside_foldl (l : List StoreEntry) : l.foldl Mem.performStore (m.aside b o) = (l.foldl Mem.performStore m).aside b o :=
  List.foldl_hom (fun m : Mem => m.aside b o) (fun x e => aside_performStore x b o e)

theorem byte_aside (a : Nat) : (m.aside b o).byte a = m.byte a := rfl

/-- What the agents see once the buffer has drained is what the buffered stores leave. -/
theorem byte_drain (a : Nat) : m.drain.byte a = (m.sb.foldl Mem.performStore m).byte a := rfl

/-- A store pushed is the last that the buffer performs. -/
theorem byte_drain_pushStore (e : StoreEntry) (a : Nat) : (m.pushStore e).drain.byte a = (m.drain.performStore e).byte a := by
  have hd : (m.drain.performStore e).byte a = ((m.sb.foldl Mem.performStore m).performStore e).byte a := by
    have : m.drain = (m.sb.foldl Mem.performStore m).aside [] (m.sb.foldl Mem.performStore m).onCore := rfl
    rw [this, aside_performStore, byte_aside]
  have hp (x : Mem) (l : List StoreEntry) (hx : l.foldl Mem.performStore x = m.sb.foldl Mem.performStore m) :
      (x.aside (l ++ [e]) x.onCore).drain.byte a = ((m.sb.foldl Mem.performStore m).performStore e).byte a := by
    rw [byte_drain]
    show ((l ++ [e]).foldl Mem.performStore _).byte a = _
    rw [List.foldl_append, aside_foldl, hx]
    show (((m.sb.foldl Mem.performStore m).aside _ _).performStore e).byte a = _
    rw [aside_performStore, byte_aside]
  rw [hd]
  unfold Mem.pushStore
  split
  · next o t hs =>
    split
    · exact hp (m.performStore o) t (by rw [hs]; rfl)
    · exact hp m m.sb rfl
  · next hs => exact hp m [] (by rw [hs])

/-- A write of on-core memory changes on-core bytes only. -/
theorem setOnCoreNat_eq_aside (off v n : Nat) : ∃ c, m.setOnCoreNat off v n = m.aside m.sb c
    ∧ ∀ x, ¬(off ≤ x ∧ x < off + n) → smGet 0 x c = smGet 0 x m.onCore := by
  induction n generalizing m off v with
  | zero => exact ⟨m.onCore, rfl, fun _ _ => rfl⟩
  | succ n ih =>
    obtain ⟨c, hc, hk⟩ := ih { m with onCore := smSet 0#8 off (BitVec.ofNat 8 v) m.onCore } (off + 1) (v / 256)
    refine ⟨c, hc, fun x hx => ?_⟩
    rw [hk x (by omega)]
    exact smGet_smSet_ne 0#8 _ _ (by omega)

/-- A push to a buffer that has a place changes the buffer only. -/
theorem pushStore_of_place (e : StoreEntry) (h : m.sb.length < 64) : m.pushStore e = m.aside (m.sb ++ [e]) m.onCore := by
  unfold Mem.pushStore
  split
  · rw [if_neg (by omega)]
    rfl
  · next hs =>
    rw [hs]
    rfl

/-- A push leaves on-core memory. -/
theorem pushStore_onCore (e : StoreEntry) : (m.pushStore e).onCore = m.onCore := by
  have h (e : StoreEntry) : ((m.aside m.sb m.onCore).performStore e).onCore = m.onCore := by
    rw [aside_performStore, aside_onCore]
  unfold Mem.pushStore
  split
  · split
    · exact h _
    · rfl
  · rfl

end

end Sys2Proof.Machine
end

section
/-! ## A store changes no byte but its own, as the coherent agents see it (03 R66, R75) -/

namespace Sys2Proof.Machine

/-! ### Bytes behind the caches -/

theorem backByte_setBackNat_ne (m : Mem) {pa v n a : Nat} (h : ¬(pa ≤ a ∧ a < pa + n)) :
    (m.setBackNat pa v n).backByte a = m.backByte a := by
  induction n generalizing m pa v with
  | zero => rfl
  | succ n ih =>
    simp only [Mem.setBackNat]
    rw [ih _ (by omega), Mem.backByte_setBack_ne _ _ (by omega)]

theorem backByte_setBackNat {m : Mem} (h : Memory.wf m = true) (pa v : Nat) {n i : Nat} (hi : i < n) :
    (m.setBackNat pa v n).backByte (pa + i) = BitVec.ofNat 8 (v / 256 ^ i) := by
  induction n generalizing m pa v i with
  | zero => omega
  | succ n ih =>
    simp only [Mem.setBackNat]
    cases i with
    | zero =>
      rw [backByte_setBackNat_ne _ (by omega), Nat.add_zero, Mem.backByte_setBack_self _ _ h, Nat.pow_zero, Nat.div_one]
    | succ i =>
      rw [show pa + (i + 1) = pa + 1 + i by omega, ih (Memory.wf_setBack _ _ h) _ _ (by omega), Nat.div_div_eq_div_mul, Nat.pow_succ']

theorem backNat_toNat (m : Mem) (pa n : Nat) : (BitVec.ofNat (8 * n) (m.backNat pa n)).toNat = m.backNat pa n := by
  rw [BitVec.toNat_ofNat]
  apply Nat.mod_eq_of_lt
  induction n generalizing pa with
  | zero => exact Nat.one_pos
  | succ n ih =>
    have hb := (m.backByte pa).isLt
    have hn := ih (pa + 1)
    rw [show 8 * (n + 1) = 8 * n + 8 by omega, Nat.pow_add]
    simp only [Mem.backNat]
    omega

theorem backNat_byte (m : Mem) (pa : Nat) {n i : Nat} (hi : i < n) : m.backNat pa n / 256 ^ i % 256 = (m.backByte (pa + i)).toNat := by
  induction n generalizing pa i with
  | zero => omega
  | succ n ih =>
    have hb := (m.backByte pa).isLt
    simp only [Mem.backNat]
    cases i with
    | zero =>
      simp only [Nat.pow_zero, Nat.div_one, Nat.add_zero]
      omega
    | succ i =>
      rw [show pa + (i + 1) = pa + 1 + i by omega, ← ih (pa + 1) (show i < n by omega), Nat.pow_succ', ← Nat.div_div_eq_div_mul]
      congr 2
      omega

/-! ### Bytes of a line -/

theorem byte_eq_ofNat (l : CacheLine) (i : Nat) : l.byte i = BitVec.ofNat 8 (l.data.toNat / 256 ^ i) := by
  apply BitVec.eq_of_toNat_eq
  rw [CacheLine.byte, BitVec.extractLsb'_toNat, Nat.shiftRight_eq_div_pow, BitVec.toNat_ofNat, Nat.pow_mul]

/-- A byte of a line that another byte was put into. -/
theorem byte_lineSetByte_ne (l : CacheLine) (v : Byte) {i j : Nat} (h : j ≠ i) : (l.setByte i v).byte j = l.byte j := by
  ext k hk
  have hff (p : Nat) : (0xFF#512).getLsbD p = decide (p < 8) := by
    rw [BitVec.getLsbD_ofNat, show 0xFF = 2 ^ 8 - 1 from rfl, Nat.testBit_two_pow_sub_one]
    simp
    omega
  simp only [CacheLine.byte, CacheLine.setByte, BitVec.getElem_extractLsb', BitVec.getLsbD_or, BitVec.getLsbD_and, BitVec.getLsbD_not,
    BitVec.getLsbD_shiftLeft, BitVec.getLsbD_setWidth, hff]
  by_cases hp : 8 * j + k < 8 * i
  · simp [hp]
    exact fun h => l.data.lt_of_getLsbD h
  · have h8 : ¬(8 * j + k - 8 * i < 8) := by omega
    have hv : BitVec.getLsbD v (8 * j + k - 8 * i) = false := BitVec.getLsbD_of_ge _ _ (by omega)
    simp [h8, hv]
    exact fun h => l.data.lt_of_getLsbD h

/-! ### Lines found -/

theorem lineFind_eq_some {g : Nat} {l : List CacheLine} {x : CacheLine} (h : lineFind g l = some x) : x.granule = g := by
  simpa using List.find?_some h

theorem lineFind_lineErase_self (g : Nat) (l : List CacheLine) : lineFind g (lineErase g l) = none := by
  simp [lineFind, lineErase]

theorem lineFind_filter (p : CacheLine → Bool) {g : Nat} (hp : ∀ x : CacheLine, x.granule = g → p x = true) (l : List CacheLine) :
    lineFind g (l.filter p) = lineFind g l := by
  unfold lineFind
  rw [List.find?_filter]
  congr 1
  funext x
  by_cases hx : x.granule = g
  · simp [hx, hp x hx]
  · simp [hx]

theorem lineFind_lineErase_ne {g k : Nat} (h : g ≠ k) (l : List CacheLine) : lineFind g (lineErase k l) = lineFind g l :=
  lineFind_filter _ (fun x hx => by simpa [hx] using h) l

/-! ### A line filled -/

/-- A line filled from memory holds memory's bytes. -/
theorem byte_fetchLine (m : Mem) (g : Nat) {i : Nat} (hi : i < 64) : (m.fetchLine g).byte i = m.byte (64 * g + i) := by
  have hg : (64 * g + i) / 64 = g := by omega
  have hm : (64 * g + i) % 64 = i := by omega
  unfold Mem.fetchLine Mem.byte
  rw [hg, hm]
  split
  · rfl
  · rw [byte_eq_ofNat]
    apply BitVec.eq_of_toNat_eq
    have hn : (BitVec.ofNat 512 (m.backNat (64 * g) 64)).toNat = m.backNat (64 * g) 64 := backNat_toNat m (64 * g) 64
    rw [BitVec.toNat_ofNat, hn, ← backNat_byte m (64 * g) hi]

theorem granule_fetchLine (m : Mem) (g : Nat) : (m.fetchLine g).granule = g := by
  unfold Mem.fetchLine Mem.dirty
  split
  · next l hl =>
    split at hl
    · next hc =>
      rw [Option.some.inj hl] at hc
      exact (lineFind_eq_some hc :)
    · exact (lineFind_eq_some hl :)
  · rfl

/-- What the agents see of a byte is what the caches hold of its granule, or else the byte behind them. -/
theorem byte_congr {m x : Mem} {a : Nat} (hc : lineFind (a / 64) x.cache = lineFind (a / 64) m.cache)
    (ht : lineFind (a / 64) x.tsc = lineFind (a / 64) m.tsc) (hb : x.backByte a = m.backByte a) : x.byte a = m.byte a := by
  simp only [Mem.byte, Mem.dirty, hc, ht, hb]

/-! ### Write-backs -/

theorem setBackNat_cache (m : Mem) (pa v n : Nat) : (m.setBackNat pa v n).cache = m.cache := by
  induction n generalizing m pa v with
  | zero => rfl
  | succ n ih => exact ih ..

theorem setBackNat_tsc (m : Mem) (pa v n : Nat) : (m.setBackNat pa v n).tsc = m.tsc := by
  induction n generalizing m pa v with
  | zero => rfl
  | succ n ih => exact ih ..

/-- Memory with other poison marks and another write request. -/
def Mem.marked (m : Mem) (p : List Nat) (w : Option PortReq) : Mem := { m with poison := p, mw := w }

theorem marked_cache (m : Mem) (p : List Nat) (w : Option PortReq) : (m.marked p w).cache = m.cache := rfl
theorem marked_backByte (m : Mem) (p : List Nat) (w : Option PortReq) (a : Nat) : (m.marked p w).backByte a = m.backByte a := rfl

theorem setBackLine_eq (m : Mem) (l : CacheLine) : ∃ p w, m.setBackLine l = (m.setBackNat (64 * l.granule) l.data.toNat 64).marked p w := by
  unfold Mem.setBackLine
  generalize m.setBackNat (64 * l.granule) l.data.toNat 64 = x
  dsimp only
  split
  · exact ⟨_, _, rfl⟩
  · exact ⟨_, _, rfl⟩

theorem setBackLine_cache (m : Mem) (l : CacheLine) : (m.setBackLine l).cache = m.cache := by
  obtain ⟨p, w, h⟩ := setBackLine_eq m l
  rw [h, marked_cache, setBackNat_cache]

theorem setBackLine_backByte (m : Mem) (l : CacheLine) (a : Nat) :
    (m.setBackLine l).backByte a = (m.setBackNat (64 * l.granule) l.data.toNat 64).backByte a := by
  obtain ⟨p, w, h⟩ := setBackLine_eq m l
  rw [h, marked_backByte]

/-- The byte behind the caches after a write-back is the line's within its granule. -/
theorem backByte_setBackLine {m : Mem} (h : Memory.wf m = true) (l : CacheLine) (a : Nat) :
    (m.setBackLine l).backByte a = if a / 64 = l.granule then l.byte (a % 64) else m.backByte a := by
  rw [setBackLine_backByte]
  split
  · next hg =>
    rw [show a = 64 * l.granule + a % 64 by omega, backByte_setBackNat h _ _ (by omega), byte_eq_ofNat]
    congr 3
    omega
  · exact backByte_setBackNat_ne _ (by omega)

theorem lineFind_below {lo g : Nat} {l : List CacheLine} (h : linesWf lo l = true) (hg : g < lo) : lineFind g l = none := by
  induction l generalizing lo with
  | nil => rfl
  | cons y t ih =>
    simp only [linesWf, Bool.and_eq_true, decide_eq_true_eq] at h
    have hy : (y.granule == g) = false := by
      rw [beq_eq_false_iff_ne]
      omega
    simp only [lineFind, List.find?_cons, hy]
    exact ih h.2 (by omega)

/-- Lines written back together: each byte behind the caches is that of its granule's line, where one is among them. -/
theorem backByte_foldl_setBackLine {lo : Nat} {l : List CacheLine} (hl : linesWf lo l = true) {m : Mem} (h : Memory.wf m = true) (a : Nat) :
    (l.foldl Mem.setBackLine m).backByte a = match lineFind (a / 64) l with
      | some x => x.byte (a % 64)
      | none => m.backByte a := by
  induction l generalizing lo m with
  | nil => rfl
  | cons y t ih =>
    simp only [linesWf, Bool.and_eq_true, decide_eq_true_eq] at hl
    obtain ⟨-, ht⟩ := hl
    rw [List.foldl_cons, ih ht (Memory.wf_setBackLine y h), backByte_setBackLine h]
    by_cases hy : a / 64 = y.granule
    · have hb : (y.granule == a / 64) = true := by simp [hy]
      have hn : lineFind (a / 64) t = none := lineFind_below ht (by omega)
      have hs : lineFind (a / 64) (y :: t) = some y := List.find?_cons_of_pos hb
      rw [hn, hs, if_pos hy]
    · have hb : ¬(y.granule == a / 64) = true := by simpa using Ne.symm hy
      have hs : lineFind (a / 64) (y :: t) = lineFind (a / 64) t := List.find?_cons_of_neg hb
      rw [hs, if_neg hy]

theorem foldl_setBackLine_cache (l : List CacheLine) (m : Mem) : (l.foldl Mem.setBackLine m).cache = m.cache := by
  induction l generalizing m with
  | nil => rfl
  | cons y t ih => exact (ih _).trans (setBackLine_cache m y)

/-! ### Lines that leave -/

theorem evictStore_cache (m : Mem) (n : Nat) : (m.evictStore n).cache = m.cache := foldl_setBackLine_cache _ m

theorem byte_evictStore {m : Mem} (h : Memory.wf m = true) (n a : Nat) : (m.evictStore n).byte a = m.byte a := by
  have hb : (m.evictStore n).backByte a = _ :=
    backByte_foldl_setBackLine (linesWf_filter (fun l => l.granule / 2 == n) (Memory.wf_lines h).2.2) h a
  have ht : (m.evictStore n).tsc = m.tsc.filter (fun l => l.granule / 2 != n) := rfl
  by_cases hn : a / 64 / 2 = n
  · rw [lineFind_filter _ (fun x hx => by simp [hx, hn])] at hb
    have hk : lineFind (a / 64) (m.evictStore n).tsc = none := by
      rw [ht]
      simp only [lineFind, List.find?_eq_none, List.mem_filter]
      rintro x ⟨-, hx⟩ hg
      simp only [beq_iff_eq] at hg
      simp [hg, hn] at hx
    simp only [Mem.byte, Mem.dirty, evictStore_cache, hk, hb]
    cases lineFind (a / 64) m.cache <;> rfl
  · have hk : lineFind (a / 64) (m.tsc.filter (fun l => l.granule / 2 == n)) = none := by
      simp only [lineFind, List.find?_eq_none, List.mem_filter]
      rintro x ⟨-, hx⟩ hg
      simp only [beq_iff_eq] at hg hx
      exact hn (hg ▸ hx)
    rw [hk] at hb
    refine byte_congr (by rw [evictStore_cache]) ?_ hb
    rw [ht]
    exact lineFind_filter _ (fun x hx => by simpa [hx] using hn) _

/-- A line put among the tile-store cache's, the L2 without it, gives its granule's bytes. -/
theorem byte_tsc_linePut {m : Mem} {l : CacheLine} (hc : lineFind l.granule m.cache = none) (a : Nat) :
    ({ m with tsc := linePut { l with l1 := false } m.tsc } : Mem).byte a = if a / 64 = l.granule then l.byte (a % 64) else m.byte a := by
  split
  · next hg =>
    have hs : lineFind (a / 64) (linePut { l with l1 := false } m.tsc) = some { l with l1 := false } := by
      rw [hg]
      exact lineFind_linePut_self { l with l1 := false } _
    rw [← hg] at hc
    simp only [Mem.byte, Mem.dirty, hc, hs]
    rfl
  · next hg => exact byte_congr rfl (lineFind_linePut_ne _ _ hg) rfl

/-- A line that enters the tile-store cache, scratch or memory, the L2 without it, gives its granule's bytes. -/
theorem byte_toStore {m : Mem} (h : Memory.wf m = true) {l : CacheLine} (hc : lineFind l.granule m.cache = none) (a : Nat) :
    (m.toStore l).byte a = if a / 64 = l.granule then l.byte (a % 64) else m.byte a := by
  unfold Mem.toStore
  split
  · split
    · next hg =>
      rw [← hg] at hc
      have hk : lineFind (a / 64) (lineErase l.granule m.tsc) = none := by
        rw [hg]
        exact lineFind_lineErase_self _ _
      simp only [Mem.byte, Mem.dirty, setBackLine_cache, hc, hk]
      exact (backByte_setBackLine h l a).trans (if_pos hg)
    · next hg =>
      refine byte_congr (by rw [setBackLine_cache]) (lineFind_lineErase_ne hg _) ?_
      exact (backByte_setBackLine h l a).trans (if_neg hg)
  · dsimp only
    split
    · exact (byte_tsc_linePut (by rwa [evictStore_cache]) a).trans (by rw [byte_evictStore h])
    · exact byte_tsc_linePut hc a

theorem byte_evictL2 {m : Mem} (h : Memory.wf m = true) (g a : Nat) : (m.evictL2 g).byte a = m.byte a := by
  unfold Mem.evictL2
  split
  · rfl
  · next l hl =>
    have hg := lineFind_eq_some hl
    have hw : Memory.wf { m with cache := lineErase g m.cache } = true := Memory.wf_cache h (linesWf_filter _ (Memory.wf_lines h).2.1)
    rw [byte_toStore hw (by rw [hg]; exact lineFind_lineErase_self g m.cache)]
    split
    · next ha => simp only [Mem.byte, Mem.dirty, ha, hg, hl]
    · next ha => exact byte_congr (lineFind_lineErase_ne (hg ▸ ha) _) rfl rfl

theorem byte_evictL1 (m : Mem) (g a : Nat) : (m.evictL1 g).byte a = m.byte a := by
  have h : lineFind (a / 64) (m.evictL1 g).cache
      = (lineFind (a / 64) m.cache).map (fun l => if l.granule == g then { l with l1 := false } else l) := by
    unfold lineFind Mem.evictL1
    rw [List.find?_map]
    congr 2
    funext x
    simp only [Function.comp]
    split <;> rfl
  simp only [Mem.byte, Mem.dirty, h]
  cases lineFind (a / 64) m.cache with
  | none => rfl
  | some l =>
    simp only [Option.map_some]
    split <;> rfl

theorem byte_room {m : Mem} (h : Memory.wf m = true) (g : Nat) (l1 : Bool) (a : Nat) : (m.room g l1).byte a = m.byte a := by
  have h1 (x : Mem) (c : Bool) (v : Nat) : (if c then x.evictL1 v else x).byte a = x.byte a := by
    split
    · exact byte_evictL1 ..
    · rfl
  unfold Mem.room
  dsimp only
  rw [h1]
  split
  · exact byte_evictL2 h _ a
  · rfl

/-! ### Stores performed -/

/-- A line put into the L2 gives its granule's bytes. -/
theorem byte_putLine {m : Mem} (h : Memory.wf m = true) (l : CacheLine) (a : Nat) :
    (m.putLine l).byte a = if a / 64 = l.granule then l.byte (a % 64) else m.byte a := by
  have hr := byte_room h l.granule l.l1 a
  unfold Mem.putLine
  split
  · next hg =>
    have hs : lineFind (a / 64) (linePut l (m.room l.granule l.l1).cache) = some l := by
      rw [hg]
      exact lineFind_linePut_self _ _
    simp only [Mem.byte, Mem.dirty, hs]
  · next hg => exact Eq.trans (byte_congr (lineFind_linePut_ne _ _ hg) rfl rfl) hr

theorem byte_setByte_ne {m : Mem} (h : Memory.wf m = true) {pa a : Nat} (v : Byte) (ha : a ≠ pa) : (m.setByte pa v).byte a = m.byte a := by
  unfold Mem.setByte
  have hg : ((m.fetchLine (pa / 64)).setByte (pa % 64) v).granule = pa / 64 := granule_fetchLine ..
  rw [byte_putLine h, hg]
  split
  · next hl =>
    rw [byte_lineSetByte_ne _ _ (show a % 64 ≠ pa % 64 by omega), byte_fetchLine _ _ (by omega)]
    congr 1
    omega
  · rfl

theorem byte_writeNat_ne {m : Mem} (h : Memory.wf m = true) {pa v n a : Nat} (ha : ¬(pa ≤ a ∧ a < pa + n)) :
    (m.writeNat pa v n).byte a = m.byte a := by
  induction n generalizing m pa v with
  | zero => rfl
  | succ n ih =>
    simp only [Mem.writeNat]
    rw [ih (Memory.wf_setByte _ _ h) (by omega), byte_setByte_ne h _ (by omega)]

theorem byte_portWrite_ne (m : Mem) (src : BitVec 3) {pa n v a : Nat} (ha : ¬(pa ≤ a ∧ a < pa + n)) :
    (m.portWrite src pa n v).byte a = m.byte a := by
  have hc : (m.portWrite src pa n v).cache = m.cache := setBackNat_cache m pa v n
  have ht : (m.portWrite src pa n v).tsc = m.tsc := setBackNat_tsc m pa v n
  exact byte_congr (by rw [hc]) (by rw [ht]) (backByte_setBackNat_ne m ha)

/-- A store performed changes no byte but its own. -/
theorem byte_performStore_ne {m : Mem} (h : Memory.wf m = true) {e : StoreEntry} (hp : e.poison = false) {a : Nat}
    (ha : ¬(e.pa ≤ a ∧ a < e.pa + e.size)) : (m.performStore e).byte a = m.byte a := by
  simp only [Mem.performStore, hp, Bool.false_eq_true, if_false]
  cases e.ty with
  | cached | scratch => exact byte_writeNat_ne h ha
  | uncached => exact byte_portWrite_ne m 0 ha
  | device => rfl

end Sys2Proof.Machine
end

section
/-! ## Translation changes nothing of the core (04 R95, R99) -/

namespace Sys2Proof.Machine

/-- The state that a stage-2 walk leaves. -/
def S2.state : S2 → State
  | .ok s _ _ _ | .held s _ | .restart s => s

/-- The state that a stage-1 walk leaves. -/
def S1.state : S1 → State
  | .ok s _ _ | .fault s _ | .held s _ | .restart s => s

/-- The state that a walk of both stages leaves. -/
def Walk.state : Walk → State
  | .ok s _ _ _ _ | .fault s _ | .held s _ | .restart s => s

/-- The state that a translation leaves. -/
def Xl.state : Xl → State
  | .ok s _ | .fault s _ | .hold s => s

/-! ### The parts of a walk -/

theorem countShadows_core (s : State) (h : Fin 32) (l : List (Bool × Bool)) : (s.countShadows h l).core = s.core := by
  unfold State.countShadows
  dsimp only
  split <;> rfl

theorem storeRead_core (s : State) (pa : Nat) : (s.storeRead pa).core = s.core := by
  unfold State.storeRead
  dsimp only
  split
  · rfl
  · exact countShadows_core ..

theorem portRead_core (s : State) (src : BitVec 3) (sec : Bool) (ty : MemType) (pa n : Nat) : (s.portRead src sec ty pa n).core = s.core := by
  have hc (x : State) (hx : x.core = s.core) : (if (lineFind (pa / 64) s.mem.cache).isSome then s
      else if (lineFind (pa / 64) s.mem.tsc).isSome then s.storeRead pa else x).core = s.core := by
    split
    · rfl
    · split
      · exact storeRead_core ..
      · exact hx
  unfold State.portRead
  dsimp only
  split
  · split
    · rfl
    · exact storeRead_core ..
  · cases ty with
    | uncached | device => rfl
    | cached | scratch => exact hc _ rfl

theorem tecLookup_core (s : State) (stage2 : Bool) (addr : Nat) : (s.tecLookup stage2 addr).1.core = s.core := by
  unfold State.tecLookup
  split <;> rfl

theorem updateEntry_core {s t : State} {pa old new : Nat} (h : s.updateEntry pa old new = some t) : t.core = s.core := by
  unfold State.updateEntry at h
  split at h
  · obtain rfl := Option.some.inj h
    rfl
  · split at h
    · obtain rfl := Option.some.inj h
      rfl
    · cases h

theorem holdFault_core (s : State) (f : S2Fault) (va : Word) (req : Nat) (fetch : Bool) (w : HeldWaiter) :
    (s.holdFault f va req fetch w).core = s.core := by
  unfold State.holdFault
  split
  · rfl
  · dsimp only
    split <;> rfl

/-! ### The walks -/

theorem walk2_core (s : State) (ia : Nat) (need : S2Need) (table : Nat) (levels : List Nat) :
    (s.walk2 ia need table levels).state.core = s.core := by
  induction levels generalizing s table with
  | nil => rfl
  | cons lvl rest ih =>
    have hp : (if lvl < 2 then s.tecLookup true (table + 8 * fieldOf ia (36 - 11 * lvl) 11) else (s, none)).1.core = s.core := by
      split
      · exact tecLookup_core ..
      · rfl
    unfold State.walk2
    dsimp only
    split
    · rfl
    · split
      · rfl
      · generalize (if lvl < 2 then s.tecLookup true (table + 8 * fieldOf ia (36 - 11 * lvl) 11) else (s, none)) = p at hp ⊢
        obtain ⟨u, cached⟩ := p
        have hv : (if cached.isNone then u.portRead 2 true .cached (table + 8 * fieldOf ia (36 - 11 * lvl) 11) 8 else u).core = s.core := by
          split
          · exact (portRead_core ..).trans hp
          · exact hp
        dsimp only
        generalize (if cached.isNone then u.portRead 2 true .cached (table + 8 * fieldOf ia (36 - 11 * lvl) 11) 8 else u) = v at hv ⊢
        split
        · exact hv
        · split
          · exact hv
          · split
            · exact (ih _ _).trans hv
            · split
              · exact hv
              · split
                · exact hv
                · next h => exact (updateEntry_core h).trans hv

theorem stage2_core (s : State) (ia : Nat) (need : S2Need) : (s.stage2 ia need).state.core = s.core := by
  unfold State.stage2
  split
  · exact walk2_core ..
  · rfl

theorem updateStage1_core {s : State} (ea pa e e' : Nat) (l2 : Leaf) (entry : Option (Nat × Nat)) {ok : State → S1}
    (hok : ∀ t : State, (ok t).state.core = t.core) : (s.updateStage1 ea pa e e' l2 entry ok).state.core = s.core := by
  unfold State.updateStage1
  split
  · exact hok s
  · split
    · rfl
    · dsimp only
      split
      · rfl
      · next t ht =>
        obtain ⟨u, hu, hv⟩ := Option.bind_eq_some_iff.1 ht
        have hs : u.core = s.core := by
          split at hu
          · obtain rfl := Option.some.inj hu
            rfl
          · exact updateEntry_core hu
        exact (hok t).trans ((updateEntry_core hv).trans hs)

theorem walk1_core (s : State) (a : Access) (n table : Nat) (levels : List Nat) : (s.walk1 a n table levels).state.core = s.core := by
  induction levels generalizing s table with
  | nil => rfl
  | cons lvl rest ih =>
    have hp : (if lvl + 1 < n then s.tecLookup false (table + 8 * s1index a.va.toNat n lvl) else (s, none)).1.core = s.core := by
      split
      · exact tecLookup_core ..
      · rfl
    unfold State.walk1
    dsimp only
    generalize (if lvl + 1 < n then s.tecLookup false (table + 8 * s1index a.va.toNat n lvl) else (s, none)) = p at hp ⊢
    obtain ⟨u, cached⟩ := p
    dsimp only
    split
    · exact (ih _ _).trans hp
    · have h2 := (stage2_core u (table + 8 * s1index a.va.toNat n lvl) { kind := .load, s1walk := true, ad := false }).trans hp
      split
      · next h => rwa [h] at h2
      · next h => rwa [h] at h2
      · next v pa l2 entry h =>
        rw [h] at h2
        have hw : (v.portRead 2 false .cached pa 8).core = s.core := (portRead_core ..).trans h2
        split
        · exact h2
        · generalize v.portRead 2 false .cached pa 8 = w at hw ⊢
          split
          · exact hw
          · split
            · exact hw
            · split
              · exact (ih _ _).trans hw
              · split
                · exact hw
                · exact (updateStage1_core _ _ _ _ _ _ (fun _ => rfl)).trans hw

theorem walkStages_core (s : State) (a : Access) : (s.walkStages a).state.core = s.core := by
  have h1 : (if s.xl.s1en then s.walk1 a s.s1levels (s.xl.s1root.toNat * 2 ^ 14) (List.range s.s1levels)
      else S1.ok s (a.va.toNat % 2 ^ 47) (Leaf.identity (a.va.toNat % 2 ^ 47 / 2 ^ 14))).state.core = s.core := by
    split
    · exact walk1_core ..
    · rfl
  unfold State.walkStages
  dsimp only
  split
  · next h => rwa [h] at h1
  · next h => rwa [h] at h1
  · next h => rwa [h] at h1
  · next t ia l1 h =>
    rw [h] at h1
    have h2 := (stage2_core t ia { kind := a.kind, s1walk := false, ad := false }).trans h1
    split
    · next h => rwa [h] at h2
    · next h => rwa [h] at h2
    · next h => rwa [h] at h2

theorem checkPhys_core (s : State) (a : Access) (pa mt : Nat) : (s.checkPhys a pa mt).state.core = s.core := by
  unfold State.checkPhys
  dsimp only
  split
  · rfl
  · split <;> rfl

theorem heatFill_core (s : State) (ia : Nat) : (s.heatFill ia).core = s.core := by
  unfold State.heatFill
  split <;> rfl

theorem walkBoth_core (s : State) (a : Access) (req : Nat) : (s.walkBoth a req).state.core = s.core := by
  have h1 := walkStages_core s a
  unfold State.walkBoth
  dsimp only
  split
  · next h => rwa [h] at h1
  · next h =>
    rw [h] at h1
    exact (holdFault_core ..).trans h1
  · next h => rwa [h] at h1
  · next t ia pa l1 l2 h =>
    rw [h] at h1
    have h2 := (checkPhys_core t a pa (combineMt t.xl.s1en t.xl.s2en l1.mt l2.mt)).trans h1
    split
    · next h =>
      rw [h] at h2
      exact (heatFill_core ..).trans h2
    · exact h2

/-! ### A translation -/

theorem lookL2_core (s : State) (va : Word) : (s.lookL2 va).1.core = s.core := by
  unfold State.lookL2
  split
  · rfl
  · split <;> rfl

theorem lookTlb_core (s : State) (fetch : Bool) (va : Word) : (s.lookTlb fetch va).1.core = s.core := by
  have hb (u : State) : (match u.lookL2 va with
      | (s, some t) => (if s.build.flatTlb then s else { s.drawn with xl := s.xl.putL1 fetch (Config.tlbVictim s.free) t }, some t)
      | r => r : State × Option TlbSlot).1.core = u.core := by
    have h2 := lookL2_core u va
    split
    · next h =>
      rw [h] at h2
      dsimp only
      split <;> exact h2
    · exact h2
  unfold State.lookTlb
  dsimp only
  split
  · exact hb s
  · split
    · rfl
    · exact hb _

theorem translate_core (s : State) (a : Access) (req : Nat) : (s.translate a req).state.core = s.core := by
  have hl := lookTlb_core s (decide (a.kind = .fetch)) a.va
  unfold State.translate
  split
  · unfold State.checkOnCore
    split
    · rfl
    · split <;> rfl
  · split
    · rfl
    · split
      · next h =>
        rw [h] at hl
        exact (walkBoth_core ..).trans hl
      · next h =>
        rw [h] at hl
        split
        · exact (checkPhys_core ..).trans hl
        · exact (walkBoth_core ..).trans hl

theorem checkPart_core (s : State) (a : Access) (aligned : Bool) : (s.checkPart a aligned).state.core = s.core := by
  have h1 := translate_core s a 0
  unfold State.checkPart
  split
  · next h =>
    rw [h] at h1
    split <;> exact h1
  · exact h1

/-- The parts of an access, checked, leave the core, and are one or two. -/
theorem checkParts_ok {s t : State} {kind : AccKind} {va : Word} {n : Nat} {parts : List (Loc × Nat)}
    (h : s.checkParts kind va n = .ok t parts) : t.core = s.core ∧ ((∃ p, parts = [p]) ∨ ∃ p q, parts = [p, q]) := by
  unfold State.checkParts at h
  dsimp only at h
  split at h
  · next k _ =>
    have h1 := checkPart_core s { kind := kind, va := va, eaddr := va, priv := s.super } (decide (va.toNat % n = 0))
    split at h
    · cases h
    · cases h
    · next e =>
      rw [e] at h1
      cases h
      exact ⟨h1, .inl ⟨_, rfl⟩⟩
  · next k va2 k2 _ =>
    have h1 := checkPart_core s { kind := kind, va := va, eaddr := va, priv := s.super } (decide (va.toNat % n = 0))
    split at h
    · cases h
    · cases h
    · next u loc e =>
      rw [e] at h1
      have h2 := (checkPart_core u { kind := kind, va := va2, eaddr := va2, priv := s.super, part2 := true } false).trans h1
      split at h
      · cases h
      · cases h
      · next e =>
        rw [e] at h2
        cases h
        exact ⟨h2, .inr ⟨_, _, rfl⟩⟩
  · cases h

end Sys2Proof.Machine
end

section
/-! ## What ST leaves unchanged (02 R40, 03 R74, R75) -/

namespace Sys2Proof.Machine

theorem lvl_of_core {s t : State} (h : t.core = s.core) : t.lvl = s.lvl := by
  simp only [State.lvl, h]

theorem bank_of_core {s t : State} (h : t.core = s.core) : t.bank = s.bank := by
  simp only [State.bank, State.bankOf, lvl_of_core h, h]

/-- `w` is `v` with parts of an access stored: the core and the other units as they were, memory changed only within the parts. -/
structure Stored (v w : State) (parts : List (Loc × Nat)) : Prop where
  core : w.core = v.core
  tile : w.tile = v.tile
  dep : w.dep = v.dep
  sy : w.sy = v.sy
  hl : w.hl = v.hl
  xl : w.xl = v.xl
  buffer : v.mem.sb.length + parts.length ≤ 64 → w.mem = v.mem.aside w.mem.sb w.mem.onCore ∧ v.mem.sb <+: w.mem.sb
    ∧ w.mem.sb.length ≤ v.mem.sb.length + parts.length
  wf : Memory.wf v.mem = true → Memory.wf w.mem = true
  bytes : Memory.wf v.mem = true → ∀ a : Nat, (∀ pa ty n, (Loc.phys pa ty, n) ∈ parts → ¬(pa ≤ a ∧ a < pa + n)) →
    w.mem.drain.byte a = v.mem.drain.byte a
  onCore : ∀ o : Nat, (∀ k n, (Loc.onCore k, n) ∈ parts → ¬(k ≤ o ∧ o < k + n)) → smGet 0 o w.mem.onCore = smGet 0 o v.mem.onCore

/-- Where nothing is stored, memory stays. -/
theorem stored_of_mem_eq {v w : State} (parts : List (Loc × Nat)) (hm : w.mem = v.mem) (hc : w.core = v.core) (ht : w.tile = v.tile)
    (hd : w.dep = v.dep) (hs : w.sy = v.sy) (hh : w.hl = v.hl) (hx : w.xl = v.xl) : Stored v w parts where
  core := hc
  tile := ht
  dep := hd
  sy := hs
  hl := hh
  xl := hx
  buffer _ := by
    rw [hm]
    exact ⟨rfl, ⟨[], List.append_nil _⟩, Nat.le_add_right _ _⟩
  wf h := by rwa [hm]
  bytes _ a _ := by rw [hm]
  onCore o _ := by rw [hm]

theorem stored_trans {u v w : State} {p q : List (Loc × Nat)} (h : Stored u v p) (k : Stored v w q) : Stored u w (p ++ q) where
  core := k.core.trans h.core
  tile := k.tile.trans h.tile
  dep := k.dep.trans h.dep
  sy := k.sy.trans h.sy
  hl := k.hl.trans h.hl
  xl := k.xl.trans h.xl
  buffer hn := by
    rw [List.length_append] at hn ⊢
    obtain ⟨hm, hp, hl⟩ := h.buffer (by omega)
    obtain ⟨km, kp, kl⟩ := k.buffer (by omega)
    refine ⟨?_, hp.trans kp, by omega⟩
    rw [hm] at km
    exact km
  wf hw := k.wf (h.wf hw)
  bytes hw a ha := by
    rw [k.bytes (h.wf hw) a (fun pa ty n hn => ha pa ty n (List.mem_append_right _ hn)),
      h.bytes hw a (fun pa ty n hn => ha pa ty n (List.mem_append_left _ hn))]
  onCore o ho := by
    rw [k.onCore o (fun i n hn => ho i n (List.mem_append_right _ hn)), h.onCore o (fun i n hn => ho i n (List.mem_append_left _ hn))]

/-- A part stored on-core. -/
theorem stored_onCore (v : State) (off x n : Nat) : Stored v { v with mem := v.mem.setOnCoreNat off x n } [(.onCore off, n)] := by
  obtain ⟨c, hc, hk⟩ := setOnCoreNat_eq_aside v.mem off x n
  constructor
  case buffer =>
    intro _
    rw [hc]
    exact ⟨rfl, ⟨[], List.append_nil _⟩, Nat.le_add_right _ _⟩
  case wf => exact Memory.wf_setOnCoreNat off x n
  case bytes =>
    intro _ a _
    show (v.mem.setOnCoreNat off x n).drain.byte a = _
    rw [hc, byte_drain, aside_sb, aside_foldl, byte_aside, ← byte_drain]
  case onCore =>
    intro o ho
    show smGet 0 o (v.mem.setOnCoreNat off x n).onCore = _
    rw [hc]
    exact hk o (ho off n (List.mem_singleton_self _))
  all_goals rfl

/-- A part stored into the store buffer. -/
theorem stored_pushStore (v : State) {e : StoreEntry} (he : e.poison = false) (ty : MemType) :
    Stored v { v with mem := v.mem.pushStore e } [(.phys e.pa ty, e.size)] := by
  constructor
  case buffer =>
    intro hn
    rw [List.length_singleton] at hn ⊢
    show v.mem.pushStore e = v.mem.aside (v.mem.pushStore e).sb (v.mem.pushStore e).onCore ∧ v.mem.sb <+: (v.mem.pushStore e).sb
      ∧ (v.mem.pushStore e).sb.length ≤ v.mem.sb.length + 1
    rw [pushStore_of_place v.mem e (by omega)]
    exact ⟨rfl, ⟨[e], rfl⟩, (List.length_append).le⟩
  case wf => exact Memory.wf_pushStore e
  case bytes =>
    intro hw a ha
    exact (byte_drain_pushStore v.mem e a).trans
      (byte_performStore_ne (Memory.wf_drain hw) he (ha e.pa ty e.size (List.mem_singleton_self _)))
  case onCore =>
    intro o _
    exact congrArg (smGet 0 o) (pushStore_onCore v.mem e)
  all_goals rfl

theorem stored_writePart (v : State) (release : Bool) (x : Nat) (p : Loc × Nat) : Stored v (v.writePart release x p) [p] := by
  obtain ⟨loc, n⟩ := p
  cases loc with
  | onCore off => exact stored_onCore v off x n
  | phys pa ty =>
    simp only [State.writePart]
    split
    · exact stored_of_mem_eq _ rfl rfl rfl rfl rfl rfl rfl
    · exact stored_pushStore v rfl ty

/-- A store whose parts are checked waits, or stores them. -/
theorem store_of_checkParts {u v : State} {va : Word} {n : Nat} {parts : List (Loc × Nat)} (h : u.checkParts .store va n = .ok v parts)
    (x : Word) (release : Bool) : u.store va n x release = .wait v ∨ ∃ r, u.store va n x release = .ok r ∧ Stored v r parts := by
  unfold State.store
  rw [h]
  dsimp only
  split
  · exact .inl rfl
  · right
    obtain ⟨-, ⟨p, rfl⟩ | ⟨p, q, rfl⟩⟩ := checkParts_ok h
    · exact ⟨_, rfl, stored_writePart v release _ p⟩
    · exact ⟨_, rfl, stored_trans (stored_writePart v release _ p) (stored_writePart _ release _ q)⟩

/-- An ST whose parts are checked leaves, but for PC and LC, a state with the parts stored. -/
theorem st_stored {s u v t : State} {rt ra : RegIx} {size : BitVec 2} {ord : Bool} {off : BitVec 12} {parts : List (Loc × Nat)}
    (hi : Issues s u) (hg : u.core.stepGrant = false) (hd : u.core.dbgStep = 0)
    (hp : u.checkParts .store (u.eaOffset ra size off) (2 ^ size.toNat) = .ok v parts) (ht : exec (.st rt ra size false ord off) s = .next t) :
    ∃ r, Stored v r parts ∧ CoreOnly r t ∧ t.lvl = r.lvl ∧ (∀ q, t.readG q = r.readG q)
      ∧ ∃ lc pc, t.bank = { r.bank with lc := lc, pc := pc } := by
  obtain ⟨hc, -⟩ := checkParts_ok hp
  rcases store_of_checkParts hp (u.readG rt) ord with hs | ⟨r, hs, hr⟩
  · have hb : u.storeReg rt (u.eaOffset ra size off) size ord = .wait v := by simp only [State.storeReg, sizeBytes, hs]
    obtain rfl := next_of_yields (yields_of_wait hi (c := .st rt ra size false ord off) rfl hb) ht
    exact ⟨v, stored_of_mem_eq parts rfl rfl rfl rfl rfl rfl rfl, coreOnly_hardwire s v, by simp, by simp, _, _, hardwire_bank s v⟩
  · have hk : Completes (.st rt ra size false ord off) s r := completes_of_done hi rfl (storeReg_of_ok hs)
    have hrc : r.core = u.core := hr.core.trans hc
    obtain ⟨lc, pc, rfl⟩ := completes_next hk (by rw [hrc, hg]) (by rw [hrc, hd]) ht
    exact ⟨r, hr, coreOnly_trans (coreOnly_setBank r _) (coreOnly_trans (coreOnly_counted _) (coreOnly_hardwire s _)), by simp, by simp,
      lc, pc, by simp⟩

/-- Settles O16: what ST leaves is the state with its parts stored (`st_stored`), and `Stored` says what that keeps. -/
theorem storeFrame : Obligations.StoreFrame := by
  intro s u v t rt ra size ord off parts hi hg hd hw hp ht
  obtain ⟨r, hr, hco, hlvl, hreg, lc, pc, hb⟩ := st_stored hi hg hd hp ht
  have hbank : r.bank = v.bank := bank_of_core hr.core
  obtain ⟨hmem, hxl, -, -, htile, -, -, hdep, -, -, hhl, hsy, -⟩ := hco
  rw [hbank] at hb
  rw [hmem, hb]
  refine ⟨fun q => ?_, rfl, rfl, rfl, rfl, hlvl.trans (lvl_of_core hr.core), htile.trans hr.tile, hdep.trans hr.dep, hsy.trans hr.sy,
    hhl.trans hr.hl, hxl.trans hr.xl, fun hn => ?_, hr.bytes hw, hr.wf hw, hr.onCore⟩
  · rw [hreg, State.readG, State.readG, hbank]
  · have hl : parts.length ≤ 2 := by
      obtain ⟨-, ⟨p, rfl⟩ | ⟨p, q, rfl⟩⟩ := checkParts_ok hp
      · exact Nat.le_succ 1
      · exact Nat.le_refl 2
    obtain ⟨hm, hq, -⟩ := hr.buffer (by omega)
    exact ⟨hm, hq⟩

end Sys2Proof.Machine
end

section
/-! ## The store buffer's drain and the return of a device load (03 R75, R77, 02 R44) -/

namespace Sys2Proof.Machine

/-! ### STORE_BUFFER_DRAIN (03 R75) -/

theorem mayDrain_iff (sb : List StoreEntry) (i : Nat) (e : StoreEntry) : mayDrain sb i e = true ↔
    (∀ x ∈ sb.take i, overlaps x.pa x.size e.pa e.size = false ∧ ¬(x.ty = .device ∧ e.ty = .device)) ∧ (e.release = true → i = 0) := by
  have hrel : (e.release = false ∨ i = 0) ↔ (e.release = true → i = 0) := by cases e.release <;> simp
  simp only [mayDrain, Bool.and_eq_true, List.all_eq_true, Bool.not_eq_true', Bool.and_eq_false_iff, decide_eq_false_iff_not,
    Bool.or_eq_true, beq_iff_eq, hrel, not_and_or]

section
variable {s : State} {i : Nat} {e : StoreEntry}

theorem storeBufferDrain_leaves (h : s.mem.sb[i]? = some e) (hd : mayDrain s.mem.sb i e = true) :
    Yields (.storeBufferDrain i) s { s with mem := { s.mem.performStore e with sb := s.mem.sb.eraseIdx i } } := by
  show execStoreBufferDrain i s = _
  simp only [execStoreBufferDrain, h, hd, if_true, answer]

theorem storeBufferDrain_stays (h : s.mem.sb[i]? = some e) (hd : ¬mayDrain s.mem.sb i e = true) : Yields (.storeBufferDrain i) s s := by
  show execStoreBufferDrain i s = _
  simp only [execStoreBufferDrain, h, if_neg hd, answer]

theorem storeBufferDrain_absent (h : s.mem.sb[i]? = none) : Yields (.storeBufferDrain i) s s := by
  show execStoreBufferDrain i s = _
  simp only [execStoreBufferDrain, h, answer]

theorem storeBufferDrain_of_overlap (h : s.mem.sb[i]? = some e) (ho : ∃ x ∈ s.mem.sb.take i, overlaps x.pa x.size e.pa e.size = true) :
    Yields (.storeBufferDrain i) s s := by
  obtain ⟨x, hx, hov⟩ := ho
  refine storeBufferDrain_stays h fun hd => ?_
  have hno := (((mayDrain_iff ..).1 hd).1 x hx).1
  exact absurd (hov.symm.trans hno) (by decide)

theorem storeBufferDrain_oldest {q : List StoreEntry} (h : s.mem.sb = e :: q) :
    Yields (.storeBufferDrain 0) s { s with mem := { s.mem.performStore e with sb := q } } := by
  have hd : mayDrain s.mem.sb 0 e = true := (mayDrain_iff ..).2 ⟨by simp, fun _ => rfl⟩
  have hy := storeBufferDrain_leaves (by rw [h]; rfl) hd
  rwa [h] at hy

end

/-! ### DEVICE_LOAD_RETURN (03 R77) -/

/-- The device loads that wait are answered. -/
def State.withoutLoads (s : State) : State := { s with core := { s.core with devLoads := [] } }

section
variable {s : State} {d : DevLoad} {level : BitVec 3}

theorem deviceLoadReturn_yields (h : s.core.devLoads = [d]) (hl : d.level = levelOf level) (data : Word) (poison : Bool) :
    Yields (.deviceLoadReturn level data poison) s (s.answerDevice d data poison) := by
  have hf : s.core.devLoads.find? (fun d => decide (d.level = levelOf level)) = some d := by
    rw [h]
    exact List.find?_cons_of_pos (decide_eq_true hl)
  show execDeviceLoadReturn level data poison s = _
  simp only [execDeviceLoadReturn, hf, answer]

theorem withoutLoads_eq (h : s.core.devLoads = [d]) :
    ({ s with core := { s.core with devLoads := s.core.devLoads.erase d } } : State) = s.withoutLoads := by
  rw [h, List.erase_cons_head]
  rfl

theorem answerDevice_reg {rt : RegIx} {size : BitVec 2} {sx : Bool} (h : s.core.devLoads = [d]) (hb : d.background = false)
    (hd : d.dest = .reg rt size sx) (data : Word) :
    s.answerDevice d data false = (s.withoutLoads.writeG rt (extendBytes data.toNat (2 ^ size.toNat) sx)).advancePc.retire := by
  simp only [State.answerDevice, withoutLoads_eq h, hb, hd, Bool.false_eq_true, if_false]
  rfl

theorem answerDevice_reg_poisoned {rt : RegIx} {size : BitVec 2} {sx : Bool} (h : s.core.devLoads = [d]) (hb : d.background = false)
    (hd : d.dest = .reg rt size sx) (data : Word) :
    s.answerDevice d data true = s.withoutLoads.takeException { cause := 25, eaddr := d.va } := by
  simp only [State.answerDevice, withoutLoads_eq h, hb, hd, Bool.false_eq_true, if_false, if_true]
  rfl

theorem answerDevice_ret (h : s.core.devLoads = [d]) (hb : d.background = false) (hd : d.dest = .ret) {data : Word}
    (ha : data.toNat % 4 = 0) :
    s.answerDevice d data false = ((s.withoutLoads.setSp (s.bank.sp + 8)).setPc data).retire := by
  have hr : s.withoutLoads.returnTo data = .jump (s.withoutLoads.setSp (s.bank.sp + 8)) data := if_neg (not_not_intro ha)
  simp only [State.answerDevice, withoutLoads_eq h, hb, hd, Bool.false_eq_true, if_false, hr]
  rfl

end

end Sys2Proof.Machine
end

section
/-! ## The tile-store reassignment (03 R82) -/

namespace Sys2Proof.Machine

theorem smGet_filter_of_not {α : Type} (d : α) (p : Nat → Bool) {k : Nat} (hk : p k = false) (l : List (Nat × α)) :
    smGet d k (l.filter fun c => p c.1) = d := by
  induction l with
  | nil => rfl
  | cons c t ih =>
    obtain ⟨j, v⟩ := c
    cases hj : p j with
    | false => simp only [List.filter_cons, hj, Bool.false_eq_true, if_false, ih]
    | true =>
      have hne : k ≠ j := by
        rintro rfl
        exact absurd (hk.symm.trans hj) (by decide)
      simp only [List.filter_cons, hj, if_true, smGet, if_neg hne, ih]

theorem backByte_zeroScratch (m : Mem) {lo hi k : Nat} (hlo : lo ≤ k) (hhi : k < hi) :
    (m.zeroScratch lo hi).backByte (scratchBase + k) = 0 :=
  smGet_filter_of_not 0#8 (fun a => !(decide (scratchBase + lo ≤ a) && decide (a < scratchBase + hi))) (by simp [hlo, hhi]) m.cells

section
variable {s : State} {v : BitVec 4}

theorem writeTscfg_busy (h : s.ts.busy = true) : s.writeTscfg v = none := by simp only [State.writeTscfg, h, if_true]

theorem writeTscfg_unchanged (h : s.ts.busy = false) (hv : s.tsSteps < v.toNat ∨ v = s.ts.cache16) : s.writeTscfg v = some s := by
  simp only [State.writeTscfg, h, Bool.false_eq_true, if_false, if_pos hv]

theorem writeTscfg_changed (h : s.ts.busy = false) (hn : v.toNat ≤ s.tsSteps) (hv : v ≠ s.ts.cache16) :
    s.writeTscfg v = some (s.reassign v (s.tsSteps - s.ts.cache16.toNat) (s.tsSteps - v.toNat)) := by
  have hc : ¬(s.tsSteps < v.toNat ∨ v = s.ts.cache16) := not_or.2 ⟨hn.not_gt, hv⟩
  simp only [State.writeTscfg, h, Bool.false_eq_true, if_false, if_neg hc]

end

theorem tscfgWrite_yields (s : State) (v : Word) : Yields (.tscfgWrite v) s ((s.writeTscfg (v.setWidth 4)).getD s) := rfl

theorem reassignmentEnd_yields (s : State) : Yields .reassignmentEnd s s.endReassignment := rfl

theorem endReassignment_busy {s : State} (h : s.ts.busy = true) :
    s.endReassignment = { s with
      mem := { s.mem.zeroScratch (s.ts.kept * 2 ^ 24) ((s.tsSteps - s.ts.cache16.toNat) * 2 ^ 24) with tsSets := s.ts.cache16.toNat * 8192 }
      ts := { s.ts with busy := false, kept := 0 } } := if_pos h

theorem endReassignment_ts_busy (s : State) : s.endReassignment.ts.busy = false := by
  cases h : s.ts.busy with
  | true => rw [endReassignment_busy h]
  | false => rwa [State.endReassignment, h, if_neg Bool.false_ne_true]

end Sys2Proof.Machine
end

section
/-! ## The prefetcher (03 R84) -/

namespace Sys2Proof.Machine

/-! ### How three misses confirm a stream -/

/-- The second miss in a page, at most 32 lines off, gives the stream its stride. -/
theorem after_first {a b : Nat} {d : Int} (hb : (b : Int) = a + d) (hd : d ≠ 0) (hn : d.natAbs ≤ 32) (hp : b / 256 = a / 256) :
    (Tracker.first a).after b = some { last := b, stride := d, misses := 2, ahead := 0 } := by
  have hs : (b : Int) - (a : Int) = d := by omega
  simp [Tracker.after, Tracker.first, pageOfLine, hp, hs, hd, hn]

/-- A miss at the stride is one more, up to three. -/
theorem after_stride {t : Tracker} {c : Nat} (hc : (c : Int) = t.last + t.stride) (hd : t.stride ≠ 0) (hp : c / 256 = t.last / 256) :
    t.after c = some { t with last := c, misses := Nat.min 3 (t.misses + 1), ahead := t.ahead - 1 } := by
  have hs : (c : Int) - (t.last : Int) = t.stride := by omega
  simp [Tracker.after, pageOfLine, hp, hs, hd]

/-! ### Where a stream goes next -/

theorem target_eq_none {t : Tracker} {dist : Nat} (h : t.misses < 3 ∨ dist ≤ t.ahead) : t.target dist = none := if_pos h

theorem target_eq_some {t : Tracker} {dist : Nat} (hm : 3 ≤ t.misses) (hd : t.ahead < dist) :
    t.target dist = some ((t.last : Int) + t.stride * (t.ahead + 1)) := if_neg (by omega)

section
variable {s : State} {tr : BitVec 5} {va : Word} {k : Tracker}

theorem streamPrefetch_off (h : s.pf.en = false ∨ s.pf.trackers.toNat ≤ tr.toNat ∨ s.pf.streams[regFin tr] = none) :
    Yields (.streamPrefetch tr va) s s := by
  show execStreamPrefetch tr va s = _
  unfold execStreamPrefetch answer
  rcases h with h | h | h
  · simp only [h, Bool.not_false, Bool.true_or, if_true]
  · simp only [h, decide_true, Bool.or_true, if_true]
  · simp only [h, ite_self]

/-- A tracker in use goes on to the line of the command exactly where that is the stream's next. -/
theorem streamPrefetch_on (he : s.pf.en = true) (ht : tr.toNat < s.pf.trackers.toNat) (hk : s.pf.streams[regFin tr] = some k) :
    Yields (.streamPrefetch tr va) s
      (if k.target s.pf.dist.toNat = some ((va.toNat / 64 : Nat) : Int) then s.streamOn (regFin tr) k va else s) := by
  show execStreamPrefetch tr va s = _
  simp only [execStreamPrefetch, answer, he, hk, Bool.not_true, Bool.false_or, decide_eq_true_eq, if_neg ht.not_ge]

theorem streamPrefetch_stays (he : s.pf.en = true) (ht : tr.toNat < s.pf.trackers.toNat) (hk : s.pf.streams[regFin tr] = some k)
    (hn : k.misses < 3 ∨ s.pf.dist.toNat ≤ k.ahead) : Yields (.streamPrefetch tr va) s s := by
  have hy := streamPrefetch_on (va := va) he ht hk
  rwa [target_eq_none hn, if_neg nofun] at hy

theorem streamPrefetch_goes (he : s.pf.en = true) (ht : tr.toNat < s.pf.trackers.toNat) (hk : s.pf.streams[regFin tr] = some k)
    (hm : 3 ≤ k.misses) (hd : k.ahead < s.pf.dist.toNat)
    (hl : ((va.toNat / 64 : Nat) : Int) = (k.last : Int) + k.stride * ((k.ahead : Int) + 1)) :
    Yields (.streamPrefetch tr va) s (s.streamOn (regFin tr) k va) := by
  have hy := streamPrefetch_on (va := va) he ht hk
  rwa [target_eq_some hm hd, if_pos (congrArg some hl.symm)] at hy

end

/-! ### What a line of a confirmed stream does -/

/-- The tracker of a stream, one more line ahead and the most recently advanced. -/
def Prefetch.onward (p : Prefetch) (i : Fin 32) (k : Tracker) : Prefetch := p.setTracker i { k with ahead := k.ahead + 1 }

section
variable {s w : State} {i : Fin 32} {k : Tracker} {va : Word}

theorem streamOn_border (h : va.toNat / 64 / 256 ≠ k.last / 256) : s.streamOn i k va = { s with pf := s.pf.freeTracker i } := if_pos h

theorem streamOn_dropped (hp : va.toNat / 64 / 256 = k.last / 256) (hc : va.toNat < onCoreBase) (hl : s.lookTlb false va = (w, none)) :
    s.streamOn i k va = { w with pf := ({ w.pf with dropped := w.pf.dropped + 1 } : Prefetch).onward i k } := by
  simp only [State.streamOn, pageOfLine, hp, ne_eq, not_true, if_false, if_neg hc.not_ge, hl]
  rfl

theorem streamOn_issued {x : State} {slot : TlbSlot} {pa : Nat} (hp : va.toNat / 64 / 256 = k.last / 256) (hc : va.toNat < onCoreBase)
    (hl : s.lookTlb false va = (w, some slot))
    (hs : slot.serves { kind := .load, va := va, eaddr := va, priv := w.super } = true)
    (hx : w.checkPhys { kind := .load, va := va, eaddr := va, priv := w.super } (slot.physical va) slot.mt.toNat
      = .ok x (.phys pa .cached)) :
    let y := x.portRead 0 false .cached pa 64
    s.streamOn i k va
      = { y with pf := ({ y.pf with issued := y.pf.issued + 1, fetched := some (va.toNat / 64, y.pf.l1) } : Prefetch).onward i k } := by
  simp only [State.streamOn, pageOfLine, hp, ne_eq, not_true, if_false, if_neg hc.not_ge, hl, hs, Bool.not_true, Bool.false_eq_true, hx]
  rfl

end

end Sys2Proof.Machine
end

section
/-! ## The store buffer, device loads, TSCFG and the prefetcher (03 R75, R77, R82, R84) -/

namespace Sys2Proof.Machine

/-- Settles O39: a command at a time, by what it does in each case of its state. -/
theorem storeBufferReassignmentPrefetch : Obligations.StoreBufferReassignmentPrefetch := by
  refine ⟨⟨?_, ?_, ?_, ?_, ?_, ?_⟩, ?_, ?_, ?_⟩
  · intro s e q h
    exact storeBufferDrain_oldest h
  · intro s i e h ho
    exact storeBufferDrain_of_overlap h ho
  · intro s i e h
    exact ⟨fun hr hi => storeBufferDrain_stays h fun hd => hi (((mayDrain_iff ..).1 hd).2 hr),
      fun hr hx => storeBufferDrain_leaves h ((mayDrain_iff ..).2 ⟨hx, hr⟩)⟩
  · intro s i h
    exact storeBufferDrain_absent h
  · intro s level data rt size sx pa va k d h ended
    have hy := deviceLoadReturn_yields h rfl data
    exact ⟨answerDevice_reg h rfl rfl data ▸ hy false, answerDevice_reg_poisoned h rfl rfl data ▸ hy true⟩
  · intro s level data pa va k ha h ended
    exact answerDevice_ret h rfl rfl ha ▸ deviceLoadReturn_yields h rfl data false
  · intro s v n
    have hy := tscfgWrite_yields s v
    refine ⟨fun hb => ?_, fun hb hv => ?_, fun hb hn hv => ?_, _, reassignmentEnd_yields s, endReassignment_ts_busy s, fun hb => ?_,
      fun hb k hk hkept => ?_⟩
    · rwa [writeTscfg_busy hb] at hy
    · rwa [writeTscfg_unchanged hb hv] at hy
    · rw [writeTscfg_changed hb hn hv] at hy
      exact ⟨_, hy, rfl, rfl, rfl, rfl, rfl⟩
    · rw [hardwire_mem, endReassignment_busy hb]
    · rw [hardwire_mem, endReassignment_busy hb]
      exact backByte_zeroScratch s.mem hkept hk
  · intro s tr va i line
    refine ⟨streamPrefetch_off, fun k he ht hk => ?_⟩
    refine ⟨streamPrefetch_stays he ht hk, fun hm hd hl => ?_⟩
    have hy := streamPrefetch_goes he ht hk hm hd hl
    refine ⟨fun hp => ?_, fun w hp hc hw => ?_, fun w x slot pa hp hc hw hs hx => ?_⟩
    · rwa [streamOn_border hp] at hy
    · rwa [streamOn_dropped hp hc hw] at hy
    · rwa [streamOn_issued hp hc hw hs hx] at hy
  · intro n d a b c ha hb hc hd hn hab hbc
    have h1 := after_first (a := a) (b := b) (by omega) hd hn hab.symm
    have h2 := after_stride (t := { last := b, stride := d, misses := 2, ahead := 0 }) (c := c) (by simp only; omega) hd hbc.symm
    rw [h1, Option.bind_some, h2]
    exact ⟨_, rfl, rfl, rfl, rfl, rfl⟩

end Sys2Proof.Machine
end

section
/-! ## Held stage-2 faults and S2INV (04 R101 to R103) -/

namespace Sys2Proof.Machine

/-! ### A record that is freed -/

section
variable {s : State} {i : Fin 4}

theorem releaseHeld_valid (s : State) (i : Fin 4) : (s.releaseHeld i).xl.held[i].valid = false := by
  simp [State.releaseHeld]

theorem retryHeld_of_valid (h : s.xl.held[i].valid = true) : s.retryHeld i = s.releaseHeld i := if_pos h

theorem retryHeld_of_not_valid (h : s.xl.held[i].valid = false) : s.retryHeld i = s := if_neg (Bool.not_eq_true _ ▸ h)

theorem declineHeld_of_not_valid (h : s.xl.held[i].valid = false) (timeout : Bool) : s.declineHeld i timeout = s := by
  simp only [State.declineHeld, h, Bool.not_false, if_true]

/-- The state in which the waiters of a declined record are refused: the record is free, and its end is counted as a hold limit's or a
decline's. -/
def State.heldEnded (s : State) (i : Fin 4) (timeout : Bool) : State :=
  let t := s.releaseHeld i
  if timeout then ({ t with xl := { t.xl with cntTimeouts := satInc t.xl.cntTimeouts } } : State).tallyInc 0x4B
  else ({ t with xl := { t.xl with cntDeclined := satInc t.xl.cntDeclined } } : State).tallyInc 0x4A

theorem declineHeld_of_valid (h : s.xl.held[i].valid = true) (timeout : Bool) :
    s.declineHeld i timeout = s.xl.held[i].waiters.foldl (State.declineWaiter timeout) (s.heldEnded i timeout) := by
  simp only [State.declineHeld, h, Bool.not_true, Bool.false_eq_true, if_false]
  rfl

theorem heldEnded_core (s : State) (i : Fin 4) (timeout : Bool) : (s.heldEnded i timeout).core = s.core := by
  cases timeout <;> rfl

theorem heldEnded_lvl (s : State) (i : Fin 4) (timeout : Bool) : (s.heldEnded i timeout).lvl = s.lvl := lvl_of_core (heldEnded_core ..)

theorem heldEnded_bank (s : State) (i : Fin 4) (timeout : Bool) : (s.heldEnded i timeout).bank = s.bank := bank_of_core (heldEnded_core ..)

theorem heldEnded_valid (s : State) (i : Fin 4) (timeout : Bool) : (s.heldEnded i timeout).xl.held[i].valid = false := by
  cases timeout <;> exact releaseHeld_valid s i

theorem heldEnded_cntDeclined (s : State) (i : Fin 4) : (s.heldEnded i false).xl.cntDeclined = satInc s.xl.cntDeclined := rfl

theorem heldEnded_cntTimeouts (s : State) (i : Fin 4) : (s.heldEnded i true).xl.cntTimeouts = satInc s.xl.cntTimeouts := rfl

end

/-! ### The core's instruction refused -/

theorem declineWaiter_core {s : State} (hm : s.core.mode = .run) (timeout : Bool) (cause : Nat) (eaddr einfo : Word) :
    s.declineWaiter timeout (.core cause eaddr einfo)
      = s.takeException { cause := cause, eaddr := eaddr, einfo := if timeout then einfo ||| 0x4000 else einfo } := by
  refine if_neg ?_
  rw [hm]
  decide

theorem countConsumed_xl (s : State) (cause : Nat) : (s.countConsumed cause).xl = s.xl := by
  unfold State.countConsumed
  split <;> rfl

/-- An exception taken at its own level leaves address translation as it is. -/
theorem takeException_own_xl {s : State} {e : Exc} (hl : s.lvl ≠ 7) (hx : s.bank.excm = false) : (s.takeException e).xl = s.xl := by
  rw [takeException_own hl hx]
  exact countConsumed_xl _ e.cause

/-- The exception registers after an exception taken at its own level (05 Table 5.9). -/
theorem takeException_own_registers {s : State} {e : Exc} (hl : s.lvl ≠ 7) (hx : s.bank.excm = false) :
    (s.takeException e).bank.ecause = BitVec.ofNat 6 e.cause ∧ (s.takeException e).bank.eaddr = e.eaddr
      ∧ (s.takeException e).bank.einfo = e.einfo := by
  rw [takeException_own hl hx, State.bank_setBank]
  exact ⟨rfl, rfl, rfl⟩

/-! ### The commands -/

section
variable {s : State} {slot : BitVec 2}

theorem retry_releases (h : s.xl.held[slotOf slot].valid = true) : Yields (.retry slot) s (s.releaseHeld (slotOf slot)) :=
  congrArg (answer s) (retryHeld_of_valid h)

theorem retry_of_not_valid (h : s.xl.held[slotOf slot].valid = false) : Yields (.retry slot) s s :=
  congrArg (answer s) (retryHeld_of_not_valid h)

theorem decline_migrating (h : s.underMigration (s.xl.held[slotOf slot].ia.toNat / 2 ^ 14) = true) : Yields (.decline slot) s s :=
  congrArg (answer s) (if_pos h)

theorem decline_yields (h : s.underMigration (s.xl.held[slotOf slot].ia.toNat / 2 ^ 14) = false) :
    Yields (.decline slot) s (s.declineHeld (slotOf slot) false) :=
  congrArg (answer s) (if_neg (Bool.not_eq_true _ ▸ h))

theorem holdLimit_unlimited (h : s.xl.holdlim = 0) : Yields (.holdLimit slot) s s := congrArg (answer s) (if_pos h)

theorem holdLimit_yields (h : s.xl.holdlim ≠ 0) : Yields (.holdLimit slot) s (s.declineHeld (slotOf slot) true) :=
  congrArg (answer s) (if_neg h)

theorem decline_of_not_valid (h : s.xl.held[slotOf slot].valid = false) : Yields (.decline slot) s s := by
  cases hm : s.underMigration (s.xl.held[slotOf slot].ia.toNat / 2 ^ 14) with
  | true => exact decline_migrating hm
  | false =>
    have hy := decline_yields hm
    rwa [declineHeld_of_not_valid h] at hy

theorem holdLimit_of_not_valid (h : s.xl.held[slotOf slot].valid = false) : Yields (.holdLimit slot) s s := by
  by_cases hz : s.xl.holdlim = 0
  · exact holdLimit_unlimited hz
  · have hy := holdLimit_yields (slot := slot) hz
    rwa [declineHeld_of_not_valid h] at hy

/-- A decline that nobody waits for frees the record and counts. -/
theorem decline_unawaited (hv : s.xl.held[slotOf slot].valid = true)
    (hm : s.underMigration (s.xl.held[slotOf slot].ia.toNat / 2 ^ 14) = false) (hw : s.xl.held[slotOf slot].waiters = []) :
    Yields (.decline slot) s (s.heldEnded (slotOf slot) false) := by
  have hy := decline_yields hm
  rwa [declineHeld_of_valid hv, hw, List.foldl_nil] at hy

/-- The hold limit of a record that the core alone waits for raises the core's exception, EINFO[14] telling the limit. -/
theorem holdLimit_core {cause : Nat} {eaddr einfo : Word} (hv : s.xl.held[slotOf slot].valid = true) (hz : s.xl.holdlim ≠ 0)
    (hw : s.xl.held[slotOf slot].waiters = [.core cause eaddr einfo]) (hr : s.core.mode = .run) :
    Yields (.holdLimit slot) s
      ((s.heldEnded (slotOf slot) true).takeException { cause := cause, eaddr := eaddr, einfo := einfo ||| 0x4000 }) := by
  have hy := holdLimit_yields (slot := slot) hz
  rwa [declineHeld_of_valid hv, hw, List.foldl_cons, List.foldl_nil, declineWaiter_core ((heldEnded_core ..).symm ▸ hr)] at hy

theorem s2inv_yields (s : State) : Yields .s2inv s s.s2go := rfl

theorem s2invComplete_stuck (h : s.tileStuck = true) : Yields .s2invComplete s s := congrArg (answer s) (if_pos h)

theorem s2invComplete_performed (h : s.tileStuck = false) :
    Yields .s2invComplete s { s.performAll with win := { s.performAll.win with s2busy := false } } :=
  congrArg (answer s) (if_neg (Bool.not_eq_true _ ▸ h))

end

/-! ### The statement -/

/-- Settles O40: a command at a time, by whether the record is valid, may be declined, and who waits for it. -/
theorem heldFaults : Obligations.HeldFaults := by
  intro s slot i r freed
  refine ⟨retry_releases, fun hv => ⟨retry_of_not_valid hv, decline_of_not_valid hv, holdLimit_of_not_valid hv⟩,
    fun _ hz => holdLimit_unlimited hz, decline_migrating, fun hv hm hw => ?_, fun c a e hv hz hw hr hl hx _ => ?_, s2inv_yields s,
    s2invComplete_stuck, s2invComplete_performed⟩
  · refine ⟨_, decline_unawaited hv hm hw, heldEnded_valid s i false, heldEnded_cntDeclined s i, ?_⟩
    simp only [hardwire, heldEnded_core]
  · have hl' : (s.heldEnded (slotOf slot) true).lvl ≠ 7 := by rwa [heldEnded_lvl]
    have hx' : (s.heldEnded (slotOf slot) true).bank.excm = false := by rwa [heldEnded_bank]
    refine ⟨_, holdLimit_core hv hz hw hr, ?_⟩
    rw [hardwire_xl, hardwire_bank, takeException_own_xl hl' hx']
    exact ⟨heldEnded_valid s i true, heldEnded_cntTimeouts s i, takeException_own_registers hl' hx'⟩

end Sys2Proof.Machine
end

section
/-! ## What every step keeps of the hard-wired fields (05 R109, R120) -/

namespace Sys2Proof.Machine

/-- A step that answers leaves some state with what the spec hard-wires put right, its build options those of the state it began in:
whether it takes a command from the queue or idles. -/
theorem step_next {s t : State} (h : step s = .next t) : ∃ r u : State, r.build = s.build ∧ t = hardwire r u := by
  unfold step at h
  split at h
  next => exact ⟨s, s.idle, rfl, (Host.Outcome.next.inj h).symm⟩
  next c rest _ =>
    obtain ⟨u, hu⟩ := exec_next h
    exact ⟨{ s with pending := rest }, u, rfl, hu⟩

/-- Settles O2: every answer of a step is hard-wired (`step_next`), and a hard-wired state is `Hardwired`. -/
theorem stepKeepsHardwiredFields : Obligations.StepKeepsHardwiredFields := by
  intro s t h
  obtain ⟨r, u, hb, rfl⟩ := step_next h
  exact ⟨hardwire_hardwired r u, (hardwire_build r u).trans hb⟩

end Sys2Proof.Machine
end

section
/-! SUPPORT. The current level, and the entry to a level (05 R109, R125, R131, R135). -/

namespace Sys2Proof.Machine

/-! ### The current level (05 R109) -/

/-- No active level lies above the current one. -/
theorem le_lvl_of_active {s : State} {k : Fin 8} (h : s.core.active[k] = true) : k ≤ s.lvl := by
  unfold State.lvl
  rw [Fin.getElem_fin] at h
  fin_cases k <;> grind

/-- The current level is active, or it is level 0, which always is. -/
theorem active_lvl {s : State} (h : s.lvl ≠ 0) : s.core.active[s.lvl] = true := by
  unfold State.lvl at h ⊢
  grind

@[simp] theorem active_setActive_self (s : State) (l : Fin 8) (a : Bool) : (s.setActive l a).core.active[l] = a := by
  simp [State.setActive]

theorem active_setActive_ne (s : State) {k l : Fin 8} (a : Bool) (h : k ≠ l) : (s.setActive l a).core.active[k] = s.core.active[k] :=
  Vector.getElem_set_ne l.isLt k.isLt (Fin.val_ne_of_ne h.symm)

/-- A level made active at or above the current one is the current one. -/
theorem lvl_setActive {s : State} {l : Fin 8} (h : s.lvl ≤ l) : (s.setActive l true).lvl = l := by
  refine le_antisymm ?_ (le_lvl_of_active (active_setActive_self s l true))
  by_cases h0 : (s.setActive l true).lvl = 0
  · exact h0 ▸ Fin.zero_le l
  by_cases hk : (s.setActive l true).lvl = l
  · exact hk.le
  have ha := active_lvl h0
  rw [active_setActive_ne s true hk] at ha
  exact (le_lvl_of_active ha).trans h

/-! ### The reservation and the count of an entry (05 R126, R135) -/

/-- A bank with the registers that a reservation sets as given. -/
def Bank.reserved (b : Bank) (sp lzsp : Word) (lzres : Bool) : Bank := { b with sp := sp, lzsp := lzsp, lzres := lzres }

/-- The state with the reservation of level `l` as given: its bank and the owner. -/
def State.reserved (s : State) (l : Fin 8) (sp lzsp : Word) (lzres : Bool) (o : Option TileOwner) : State :=
  ({ s with bm := { s.bm with owner := o } } : State).setBankOf l ((s.bankOf l).reserved sp lzsp lzres)

theorem reserved_bankOf (s : State) (l : Fin 8) (sp lzsp : Word) (lzres : Bool) (o : Option TileOwner) :
    (s.reserved l sp lzsp lzres o).bankOf l = (s.bankOf l).reserved sp lzsp lzres := State.bankOf_setBankOf_self ..

theorem setBankOf_bankOf (s : State) (l : Fin 8) : s.setBankOf l (s.bankOf l) = s := by
  simp [State.setBankOf, State.bankOf]

/-- The reservation at an entry changes of the level's bank SP, LZSP and LZRES, and of the banksman the owner. -/
theorem lazyReserve_eq (s : State) (l : Fin 8) : ∃ sp lzsp lzres o, s.lazyReserve l = s.reserved l sp lzsp lzres o := by
  have stays : s = s.reserved l (s.bankOf l).sp (s.bankOf l).lzsp (s.bankOf l).lzres s.bm.owner := (setBankOf_bankOf s l).symm
  unfold State.lazyReserve
  split
  next o _ =>
    dsimp only
    split
    · exact ⟨lazyArea (s.bankOf l).sp, (s.bankOf l).sp, true, some { o with lsap := lazyArea (s.bankOf l).sp, pend := true }, rfl⟩
    · exact ⟨_, _, _, _, stays⟩
  next => exact ⟨_, _, _, _, stays⟩

/-- The count of an entry changes the tally, its histograms and the draw of free values. -/
theorem countEntry_eq (s : State) (further : Bool) : ∃ tally hist free, s.countEntry further
    = { s with res := { s.res with tally := tally, hist := hist }, free := free } := by
  cases further
  · exact ⟨_, _, s.free, rfl⟩
  · exact ⟨_, _, _, rfl⟩

theorem countEntry_core (s : State) (further : Bool) : (s.countEntry further).core = s.core := by
  obtain ⟨_, _, _, h⟩ := countEntry_eq s further
  rw [h]

theorem countEntry_bm (s : State) (further : Bool) : (s.countEntry further).bm = s.bm := by
  obtain ⟨_, _, _, h⟩ := countEntry_eq s further
  rw [h]

theorem countEntry_bankPoison (s : State) (further : Bool) : (s.countEntry further).res.bankPoison = s.res.bankPoison := by
  obtain ⟨_, _, _, h⟩ := countEntry_eq s further
  rw [h]

/-! ### The entry to a level (05 R125) -/

/-- The core awake, and level `l` the most recently run one. -/
def State.woken (s : State) (l : Fin 8) : State :=
  { s with core := { s.core with sleeping := false, lru := l :: s.core.lru.erase l } }

/-- The entry to level `l` with the bank `b`: active, the core awake, the reservation made, and no access of the core waiting for a held
fault. -/
def State.entered (s : State) (l : Fin 8) (b : Bank) : State := ((((s.setBankOf l b).setActive l true).woken l).lazyReserve l).dropCoreWaiters

/-- The bank of level 7 as an entry to it sets it (05 R125, R131). -/
def Bank.atSeven (b : Bank) (evnum : Nat) (epc einfo : Word) (eaddr : Option Word) : Bank :=
  { b with
    epc := epc, ecause := 31, einfo := einfo, eaddr := eaddr.getD b.eaddr, priv := true, excm := true, evnum := BitVec.ofNat 6 evnum,
    pc := vectorOf 31 }

theorem enterSeven_eq (s : State) (evnum : Nat) (epc einfo : Word) (eaddr : Option Word) :
    s.enterSeven evnum epc einfo eaddr = s.entered 7 ((s.bankOf 7).atSeven evnum epc einfo eaddr) := rfl

/-- An entry but for what it reserves. -/
theorem entered_eq (s : State) (l : Fin 8) (b : Bank) : ∃ sp lzsp lzres o,
    s.entered l b = ((((s.setBankOf l b).setActive l true).woken l).reserved l sp lzsp lzres o).dropCoreWaiters := by
  obtain ⟨sp, lzsp, lzres, o, h⟩ := lazyReserve_eq (((s.setBankOf l b).setActive l true).woken l) l
  exact ⟨sp, lzsp, lzres, o, congrArg State.dropCoreWaiters h⟩

theorem entered_lvl {s : State} {l : Fin 8} (h : s.lvl ≤ l) (b : Bank) : (s.entered l b).lvl = l := by
  obtain ⟨_, _, _, _, he⟩ := entered_eq s l b
  rw [he]
  exact lvl_setActive (s := s.setBankOf l b) h

/-- The bank of a level entered is the one that its entry gives it, but for its reservation. -/
theorem entered_bankOf (s : State) (l : Fin 8) (b : Bank) : ∃ sp lzsp lzres, (s.entered l b).bankOf l = b.reserved sp lzsp lzres := by
  obtain ⟨sp, lzsp, lzres, o, he⟩ := entered_eq s l b
  have hb : (((s.setBankOf l b).setActive l true).woken l).bankOf l = b := State.bankOf_setBankOf_self s l b
  refine ⟨sp, lzsp, lzres, ?_⟩
  rw [he]
  exact (reserved_bankOf ..).trans (congrArg (Bank.reserved · sp lzsp lzres) hb)

theorem entered_awake (s : State) (l : Fin 8) (b : Bank) : (s.entered l b).core.sleeping = false := by
  obtain ⟨_, _, _, _, he⟩ := entered_eq s l b
  rw [he]
  rfl

theorem entered_res (s : State) (l : Fin 8) (b : Bank) : (s.entered l b).res = s.res := by
  obtain ⟨_, _, _, _, he⟩ := entered_eq s l b
  rw [he]
  rfl

theorem entered_pwr (s : State) (l : Fin 8) (b : Bank) : (s.entered l b).pwr = s.pwr := by
  obtain ⟨_, _, _, _, he⟩ := entered_eq s l b
  rw [he]
  rfl

end Sys2Proof.Machine
end

section
/-! ## Exceptions: entry, escalation and the stop at level 7 (05 R130 to R132) -/

namespace Sys2Proof.Machine

theorem vectorOf_eq (cause : Nat) : vectorOf cause = 0xFFFFFFFFFFFFF800 + 32 * wd cause := by
  unfold vectorOf vectorBase wd
  rw [BitVec.ofNat_mul]
  rfl

/-! ### An exception taken at its own level (05 R130) -/

/-- Counting consumed poison is the core's own affair and the tally's. -/
theorem countConsumed_eq (s : State) (cause : Nat) :
    s.countConsumed cause = { s with res := (if cause = 25 then s.tallyInc 0x30 else s).res } := by
  unfold State.countConsumed
  split <;> rfl

/-- An exception taken at its own level, field by field: the level's bank, the winze requests and the tally. -/
theorem takeException_own_eq {s : State} {e : Exc} (hl : s.lvl ≠ 7) (hx : s.bank.excm = false) : s.takeException e = ({ s with
    wz := s.wz.cancelEarly, res := (if e.cause = 25 then s.tallyInc 0x30 else s).res } : State).setBank { s.bank with
      epc := e.epc.getD s.bank.pc, ecause := BitVec.ofNat 6 e.cause, eaddr := e.eaddr, einfo := e.einfo, ppriv := s.bank.priv, priv := true,
      excm := true, pc := vectorOf e.cause } := by
  rw [takeException_own hl hx, countConsumed_eq]
  split <;> rfl

/-! ### Escalation (05 R131) -/

theorem setEvent_core (s : State) (n : Nat) : (s.setEvent n).core = s.core := by
  unfold State.setEvent
  split <;> rfl

theorem setEvent_pending {s : State} (h : s.pwr.latching = false) {n : Nat} (hn : n < 64) :
    (s.setEvent n).bm.evpend.getLsbD n = true := by
  simp [State.setEvent, h, hn]

theorem logEvent_core (s : State) (kind cls unit addr info : Nat) : (s.logEvent kind cls unit addr info).core = s.core := rfl

theorem logEvent_bm (s : State) (kind cls unit addr info : Nat) : (s.logEvent kind cls unit addr info).bm = s.bm := rfl

/-- EINFO of an escalation: the original cause, level and EINFO[31:0]. -/
def escalationInfo (cause : Nat) (lvl : Fin 8) (einfo : Word) : Word :=
  wd (2 ^ 63 + cause % 64 * 2 ^ 56 + lvl.val * 2 ^ 53 + einfo.toNat % 2 ^ 32)

theorem escalationInfo_toNat {cause : Nat} (h : cause < 32) (lvl : Fin 8) (einfo : Word) :
    (escalationInfo cause lvl einfo).toNat = 2 ^ 63 + cause * 2 ^ 56 + lvl.val * 2 ^ 53 + einfo.toNat % 2 ^ 32 := by
  unfold escalationInfo
  rw [BitVec.toNat_ofNat]
  omega

/-- The escalation as the banksman sees it: level 7 entered for EV63. -/
def State.escalated (s : State) (cause : Nat) (eaddr einfo epc : Word) : State :=
  (s.cancelEarly.countConsumed cause).entered 7 ((s.bankOf 7).atSeven 63 epc (escalationInfo cause s.lvl einfo) (some eaddr))

/-- An escalation is the entry to level 7 with EV63 pending, counted and logged. -/
theorem escalate_eq {s : State} (h : s.lvl ≠ 7) (cause : Nat) (eaddr einfo epc : Word) : s.escalate cause eaddr einfo epc
    = ((((s.escalated cause eaddr einfo epc).setEvent 63).tallyInc 0x42).countEntry false).logEvent 5 0 s.lvl.val eaddr.toNat
        (escalationInfo cause s.lvl einfo).toNat := by
  have hl : (s.cancelEarly.countConsumed cause).lvl = s.lvl := countConsumed_lvl cause
  have hb : (s.cancelEarly.countConsumed cause).bankOf 7 = s.bankOf 7 := by rw [countConsumed_eq]; rfl
  unfold State.escalate
  dsimp only
  rw [hl, if_neg h, enterSeven_eq, hb]
  rfl

theorem escalated_pwr (s : State) (cause : Nat) (eaddr einfo epc : Word) : (s.escalated cause eaddr einfo epc).pwr = s.pwr := by
  unfold State.escalated
  rw [entered_pwr, countConsumed_eq]
  rfl

section
variable {s : State} (h : s.lvl ≠ 7) (cause : Nat) (eaddr einfo epc : Word)
include h

theorem escalate_core : (s.escalate cause eaddr einfo epc).core = (s.escalated cause eaddr einfo epc).core := by
  rw [escalate_eq h, logEvent_core, countEntry_core, State.tallyInc_core, setEvent_core]

theorem escalate_lvl : (s.escalate cause eaddr einfo epc).lvl = 7 :=
  (lvl_of_core (escalate_core h ..)).trans (entered_lvl (Fin.le_last _) _)

theorem escalate_bank : ∃ sp lzsp lzres, (s.escalate cause eaddr einfo epc).bankOf 7
    = ((s.bankOf 7).atSeven 63 epc (escalationInfo cause s.lvl einfo) (some eaddr)).reserved sp lzsp lzres := by
  unfold State.bankOf
  rw [escalate_core h]
  exact entered_bankOf ..

theorem escalate_pending (hp : s.pwr.latching = false) : (s.escalate cause eaddr einfo epc).bm.evpend.getLsbD 63 = true := by
  rw [escalate_eq h, logEvent_bm, countEntry_bm, State.tallyInc_bm]
  exact setEvent_pending ((congrArg Power.latching (escalated_pwr ..)).trans hp) (by decide)

end

/-! ### The statement -/

/-- Settles O10: an exception at its own level by `takeException_own_eq`, an escalation by what `escalate` leaves, and at level 7 the stop. -/
theorem exceptionEntryAndEscalation : Obligations.ExceptionEntryAndEscalation := by
  refine ⟨fun s e hl hx hc => ?_, fun s e hc => ⟨fun hl hx hp => ?_, fun hl => ?_⟩⟩
  · intro t
    have ht : t = _ := takeException_own_eq hl hx
    rw [vectorOf_eq] at ht
    rw [ht]
    refine ⟨State.bank_setBank .., rfl, fun l h => State.bankOf_setBankOf_ne _ _ h, ?_, rfl, rfl, rfl, cancelEarly_wz_of_none, rfl⟩
    simp [CoreOnly]
  · intro t
    have ht : t = _ := takeException_escalates hl hx
    rw [ht]
    obtain ⟨sp, lzsp, lzres, hb⟩ := escalate_bank hl e.cause e.eaddr e.einfo (e.epc.getD s.bank.pc)
    rw [hb]
    exact ⟨escalate_lvl hl .., rfl, rfl, rfl, rfl, rfl, rfl, escalationInfo_toNat hc s.lvl e.einfo, escalate_pending hl _ _ _ _ hp⟩
  · rw [takeException_seven hl, countConsumed_eq]
    refine ⟨rfl, ?_, rfl⟩
    simp [State.fatalStop, State.raiseVector]

end Sys2Proof.Machine
end

section
/-! ## Events: their sources and their entry (05 R121 to R125, 17 R389) -/

namespace Sys2Proof.Machine

/-! ### Sources -/

/-- An event below the reserved ones stays pending. -/
theorem hardwire_evpend (s t : State) {n : Nat} (h : n < 56) : (hardwire s t).bm.evpend.getLsbD n = t.bm.evpend.getLsbD n := by
  have hm : ∀ n < 56, (0x80FFFFFFFFFFFFFF#64).getLsbD n = true := by decide
  simp [hardwire, hm n h]

theorem wakeCore_core (s : State) : s.wakeCore.core = s.core := rfl

theorem wakeCore_bm (s : State) : s.wakeCore.bm = s.bm := rfl

theorem wakeCore_irq (s : State) : s.wakeCore.pwr.irq = s.pwr.irq := by
  unfold State.wakeCore
  dsimp only
  split <;> rfl

/-- A wake source asks for PD_CORE. -/
theorem wakeCore_target (s : State) : s.wakeCore.pwr.targets.getLsbD 0 = true := by
  unfold State.wakeCore
  dsimp only
  split <;> simp

/-- The lines once one of them is at the level given. -/
def irqLines (irq : BitVec 32) (line : BitVec 5) (level : Bool) : BitVec 32 :=
  if level then irq ||| (1#32 <<< line.toNat) else irq &&& ~~~(1#32 <<< line.toNat)

theorem irqLines_line (irq : BitVec 32) (line : BitVec 5) (level : Bool) : (irqLines irq line level).getLsbD line.toNat = level := by
  have := line.isLt
  cases level <;> simp [irqLines]
  omega

theorem showIrq_evpend (s : State) {n : Nat} (h : n < 32) : s.showIrq.bm.evpend.getLsbD n = s.pwr.irq.getLsbD n := by
  have hm : ∀ n < 32, (0xFFFFFFFF00000000#64).getLsbD n = false := by decide
  simp [State.showIrq, hm n h]
  omega

/-- The state with a line at the level given. -/
def State.lineAt (s : State) (line : BitVec 5) (level : Bool) : State := { s with pwr := { s.pwr with irq := irqLines s.pwr.irq line level } }

/-- A line that changes outside the wake latch's time shows in EVPEND, and wakes the core's domain where it may. -/
theorem irq_yields {s : State} (h : s.pwr.latching = false) (line : BitVec 5) (level : Bool) : Yields (.irq line level) s
    (if level && s.pwr.irqwake.getLsbD line.toNat then (s.lineAt line level).showIrq.wakeCore else (s.lineAt line level).showIrq) := by
  have hs : (if (s.lineAt line level).pwr.latching then s.lineAt line level else (s.lineAt line level).showIrq)
      = (s.lineAt line level).showIrq := if_neg (ne_true_of_eq_false h)
  exact congrArg (fun t : State => answer s (if level && t.pwr.irqwake.getLsbD line.toNat then t.wakeCore else t)) hs

/-! ### The entry -/

theorem checkBankPoison_of_clean {s : State} (h : s.res.bankPoison[s.lvl] = false) : s.checkBankPoison = s := by
  unfold State.checkBankPoison
  rw [h, if_neg Bool.false_ne_true]

/-- The bank that an event's entry gives its level: levels 1 to 6 resume in theirs, level 7 at the vector of cause 31 (05 R125). -/
def State.entryBank (s : State) (l : Fin 8) (n : Nat) : Bank :=
  if l = 7 then (s.bankOf 7).atSeven n s.bank.pc (wd n) none else { s.bankOf l with priv := true, evnum := BitVec.ofNat 6 n }

/-- The wait before an entry, which only its count reads, is over. -/
def State.unwaited (s : State) : State := { s with core := { s.core with waited := false } }

/-- An entry has further terms of 05 Table 5.5. -/
def State.entryFurther (s : State) (l : Fin 8) (refilled : Bool) : Bool :=
  refilled || s.core.waited || (decide (l ≠ 7) && decide ((s.bankOf l).pc.toNat < onCoreBase))

/-- The commit of an entry enters its level and is counted. -/
theorem commitEntry_eq (s : State) (l : Fin 8) (n : Nat) (refilled : Bool) :
    s.commitEntry l n refilled = (s.unwaited.entered l (s.entryBank l n)).countEntry (s.entryFurther l refilled) := by
  have he : (if l = 7 then s.unwaited.enterSeven n s.bank.pc (wd n) none
      else s.unwaited.entered l { s.unwaited.bankOf l with priv := true, evnum := BitVec.ofNat 6 n })
      = s.unwaited.entered l (s.entryBank l n) := by
    by_cases h : l = 7
    · subst h
      rfl
    · simp only [State.entryBank, if_neg h]
      rfl
  exact congrArg (State.countEntry · (s.entryFurther l refilled)) he

theorem entryBank_priv (s : State) (l : Fin 8) (n : Nat) : (s.entryBank l n).priv = true := by
  unfold State.entryBank
  split <;> rfl

theorem entryBank_evnum (s : State) (l : Fin 8) (n : Nat) : (s.entryBank l n).evnum = BitVec.ofNat 6 n := by
  unfold State.entryBank
  split <;> rfl

section
variable {s : State} {l : Fin 8} (h : s.lvl ≤ l) (n : Nat) (refilled : Bool)
include h

theorem commitEntry_lvl : (s.commitEntry l n refilled).lvl = l := by
  rw [commitEntry_eq]
  exact (lvl_of_core (countEntry_core ..)).trans (entered_lvl (s := s.unwaited) h _)

theorem commitEntry_bank : ∃ sp lzsp lzres, (s.commitEntry l n refilled).bank = (s.entryBank l n).reserved sp lzsp lzres := by
  have hl := commitEntry_lvl h n refilled
  unfold State.bank
  rw [hl, commitEntry_eq]
  unfold State.bankOf
  rw [countEntry_core]
  exact entered_bankOf ..

end

theorem commitEntry_awake (s : State) (l : Fin 8) (n : Nat) (refilled : Bool) : (s.commitEntry l n refilled).core.sleeping = false := by
  rw [commitEntry_eq, countEntry_core]
  exact entered_awake ..

theorem commitEntry_bankPoison (s : State) (l : Fin 8) (n : Nat) (refilled : Bool) :
    (s.commitEntry l n refilled).res.bankPoison = s.res.bankPoison := by
  rw [commitEntry_eq, countEntry_bankPoison, entered_res]
  rfl

section
variable {s : State} {n : Fin 64}

/-- Without an eligible event nothing is entered. -/
theorem enterEvent_none (hp : s.pickEvent = none) : s.enterEvent = s := by
  unfold State.enterEvent
  rw [hp]
  split <;> rfl

/-- The event picked is entered where nothing holds its entry back and its level is resident. -/
theorem enterEvent_some (hm : s.core.mode = .run) (hw : s.wz.req = none) (hd : s.core.devLoads = []) (hp : s.pickEvent = some n)
    (hr : s.core.resident[levelOf s.bm.evrt[n]] = true) :
    s.enterEvent = s.cancelEarly.commitEntry (levelOf s.bm.evrt[n]) n.val false := by
  have ha : s.abandonWinze.backgroundLoads = s.cancelEarly := by
    have hw' : s.cancelEarly.wz.req = none := hw
    have hd' : s.cancelEarly.core.devLoads = [] := hd
    simp only [State.abandonWinze, hw', State.backgroundLoads, hd', List.find?_nil]
  unfold State.enterEvent
  simp only [hm, ne_eq, not_true, if_false, hp, State.winzeHolds, hw, Bool.false_eq_true, ha]
  exact if_pos (.inr hr)

theorem eventEntry_none (hp : s.pickEvent = none) : Yields .eventEntry s s := by
  refine congrArg (answer s) ?_
  simp only [enterEvent_none hp, if_true]

/-- A level entered above the current one whose bank is clean is what EVENT_ENTRY leaves. -/
theorem eventEntry_of_entered {t : State} (ht : s.enterEvent = t) (hl : t.lvl ≠ s.lvl) (hp : t.res.bankPoison[t.lvl] = false) :
    Yields .eventEntry s t := by
  refine congrArg (answer s) ?_
  simp only [ht, if_neg hl, checkBankPoison_of_clean hp]

end

/-! ### The statement -/

/-- Settles O21: the sources by the bit that each sets, the entry by the level, bank and activity that `commitEntry` leaves. -/
theorem eventSourcesAndEntry : Obligations.EventSourcesAndEntry := by
  refine ⟨⟨fun s u ev h => ⟨fun hs => ⟨?_, ?_⟩, fun hu => ⟨?_, ?_⟩⟩, fun s hp => ⟨?_, fun line level => ?_⟩⟩,
    fun s hm hw hd => ⟨fun n hp hr hb hl => ?_, eventEntry_none⟩⟩
  · exact completes_of_done h rfl ((guardRsv_true ..).trans (guardPriv_super hs ..))
  · exact completes_of_done h rfl ((guardRsv_true ..).trans (guardPriv_super hs ..))
  · exact ⟨_, traps_of_exc h rfl ((guardRsv_true ..).trans (guardPriv_user hu ..)), rfl⟩
  · exact ⟨_, traps_of_exc h rfl ((guardRsv_true ..).trans (guardPriv_user hu ..)), rfl⟩
  · refine ⟨_, rfl, ?_, wakeCore_target _, ?_⟩
    · rw [hardwire_evpend _ _ (by decide), wakeCore_bm]
      exact setEvent_pending hp (by decide)
    · simp only [hardwire, wakeCore_core, setEvent_core]
  · have hn := line.isLt
    refine ⟨_, irq_yields hp line level, ?_⟩
    rw [hardwire_evpend _ _ (by omega)]
    have hi : (s.lineAt line level).showIrq.pwr.irq.getLsbD line.toNat = level := irqLines_line ..
    have he : (s.lineAt line level).showIrq.bm.evpend.getLsbD line.toNat = level := (showIrq_evpend _ hn).trans hi
    split
    next => exact ⟨(congrArg (·.getLsbD line.toNat) (wakeCore_irq _)).trans hi, he, fun _ _ => wakeCore_target _⟩
    next hn => exact ⟨hi, he, fun h1 h2 => absurd (by rw [h1, h2]; rfl) hn⟩
  · have hle : s.cancelEarly.lvl ≤ levelOf s.bm.evrt[n] := hl.le
    have ht := commitEntry_lvl hle n.val false
    obtain ⟨sp, lzsp, lzres, hbank⟩ := commitEntry_bank hle n.val false
    refine ⟨_, eventEntry_of_entered (enterEvent_some hm hw hd hp hr) (ne_of_eq_of_ne ht hl.ne') ?_, ?_⟩
    · simp only [commitEntry_bankPoison, ht]
      exact hb
    · rw [hardwire_lvl, hardwire_bank, ht, hbank]
      refine ⟨rfl, entryBank_priv .., entryBank_evnum .., commitEntry_awake .., fun h7 => ?_, fun h7 => ?_⟩
      · simp only [State.entryBank, if_neg h7]
        exact ⟨rfl, rfl⟩
      · simp only [State.entryBank, if_pos h7]
        exact ⟨vectorOf_eq 31, rfl, rfl⟩

end Sys2Proof.Machine
end

section
/-! ## The ready list, TSB pointers and task switches (05 R114 to R118, R123) -/

namespace Sys2Proof.Machine

/-! ### RLADD, TSBPn and BANKPOL -/

section
variable {s : State} {v : Word} {n : BitVec 3}

theorem rladd_full (h : 64 ≤ s.bm.ready.length) : Yields (.rladd v) s { s with bm := { s.bm with rlOvf := true } } :=
  congrArg (answer s) (if_pos h)

theorem readyOf_eq (v : Word) : readyOf v = { tsb := BitVec.ofNat 37 (v.toNat / 1024), subpri := v.setWidth 4, tilewait := false } := rfl

theorem rladd_joins (h : s.bm.ready.length < 64) : Yields (.rladd v) s { s with
    bm := { s.bm with ready := s.bm.ready ++ [readyOf v] }, core := { s.core with sleeping := false },
    sy := { s.sy with phase := if s.sy.phase = .waiting then .idle else s.sy.phase } } :=
  congrArg (answer s) (if_neg (Nat.not_le.2 h))

theorem levelOf_ne_zero (h : n ≠ 0) : levelOf n ≠ 0 := fun he => h (BitVec.eq_of_toNat_eq (congrArg Fin.val he))

/-- A write of TSBPn that ends without a fault leaves its state. -/
theorem tsbpWrite_of_ok {t : State} (h : s.writeTsbp (levelOf n) v = .ok t) : Yields (.tsbpWrite n v) s t := by
  have he : exec (.tsbpWrite n v) s = execTsbpWrite n v s := rfl
  unfold Yields
  rw [he, execTsbpWrite, h]
  rfl

/-- A level that runs keeps its pointer (05 R118). -/
theorem writeTsbp_active (hn : levelOf n ≠ 0) (ha : s.core.active[levelOf n] = true) : s.writeTsbp (levelOf n) v = .ok s := by
  simp only [State.writeTsbp, if_neg hn, ha, if_true]

/-- A level without a bank, where none is taken for it, takes the pointer alone (05 R118). -/
theorem writeTsbp_no_bank (hn : levelOf n ≠ 0) (ha : s.core.active[levelOf n] = false) (hr : s.core.resident[levelOf n] = false)
    (hs : s.bm.spill = false) : s.writeTsbp (levelOf n) v
      = .ok { s with bm := { s.bm with tsbp := s.bm.tsbp.set (levelOf n) (BitVec.ofNat 37 (v.toNat / 1024)) } } := by
  simp only [State.writeTsbp, if_neg hn, ha, hr, hs, Bool.false_eq_true, if_false, Bool.false_and, Bool.or_false]

/-- Level 0 takes the pointer, whatever becomes of the records of a context without a TSB (05 R123). -/
theorem writeTsbp_zero (s : State) (v : Word) :
    ∃ t, s.writeTsbp 0 v = .ok t ∧ t.bm.tsbp = s.bm.tsbp.set 0 (BitVec.ofNat 37 (v.toNat / 1024)) := by
  unfold State.writeTsbp
  refine ⟨_, rfl, ?_⟩
  split <;> rfl

theorem bankpolWrite_elsewhere (h : s.lvl ≠ 0) : Yields (.bankpolWrite v) s s := congrArg (answer s) (if_pos h)

/-- SPILL set where every level has a bank: no level loses or gains one (05 R116). -/
theorem writeBankpol_spill (hl : s.lvl = 0) (hr : ∀ k : Fin 8, s.core.resident[k] = true) (hv : v.getLsbD 0 = true) :
    ∃ bound, s.writeBankpol v = { s with bm := { s.bm with bound := bound, spill := true } } := by
  unfold State.writeBankpol
  rw [if_neg (not_not.2 hl)]
  simp only [hv, hr, Bool.true_or, Bool.not_true, Bool.and_false, Bool.false_and, List.filter_false, List.foldl_nil]
  exact ⟨_, rfl⟩

end

/-! ### Task switches (05 R123) -/

section
variable {s u : State} {e : ReadyEntry}

theorem lvl_of_active {s t : State} (h : t.core.active = s.core.active) : t.lvl = s.lvl := by
  unfold State.lvl
  rw [h]

/-- TASK_SWITCH at an instruction boundary leaves the banksman's choice, where its bank is clean. -/
theorem taskSwitch_yields (hd : s.core.devLoads = []) (hw : s.wz.req = none) (h : s.taskSwitch = u)
    (hp : u.res.bankPoison[u.lvl] = false) : Yields .taskSwitch s u := by
  refine congrArg (answer s) ?_
  simp only [hd, hw, List.any_nil, Option.isSome_none, Bool.or_self, Bool.false_eq_true, if_false, h, checkBankPoison_of_clean hp]

theorem taskSwitch_stays (h : s.core.mode ≠ .run ∨ s.lvl ≠ 0 ∨ nextReady s.bm.ready = none) : s.taskSwitch = s := by
  unfold State.taskSwitch
  split
  · rfl
  · next hn =>
    obtain ⟨hm, hl⟩ := not_or.1 hn
    rw [(h.resolve_left hm).resolve_left hl]

section
variable (hm : s.core.mode = .run) (hl : s.lvl = 0) (he : nextReady s.bm.ready = some e)
include hm hl he

/-- The choice of a running core at level 0 with a next ready task. -/
theorem taskSwitch_eq : s.taskSwitch = if !s.core.taskRunning then s.switchTo e none
    else if s.bm.tsbp[0] = 0 ∨ s.levelZeroPinned then s
    else if (s.bankOf 0).subpri < e.subpri then s.switchTo e (some (s.runningEntry false)) else s := by
  unfold State.taskSwitch
  rw [if_neg (not_or.2 ⟨not_not.2 hm, not_not.2 hl⟩), he]

theorem taskSwitch_lower (hr : s.core.taskRunning = true) (hs : e.subpri ≤ (s.bankOf 0).subpri) : s.taskSwitch = s := by
  rw [taskSwitch_eq hm hl he, hr, if_neg (by decide), if_neg (BitVec.not_lt.2 hs)]
  exact ite_self s

theorem taskSwitch_idle (hr : s.core.taskRunning = false) : s.taskSwitch = s.switchTo e none := by
  rw [taskSwitch_eq hm hl he, hr]
  rfl

theorem taskSwitch_preempts (hr : s.core.taskRunning = true) (ht : s.bm.tsbp[0] ≠ 0) (hp : s.levelZeroPinned = false)
    (hs : (s.bankOf 0).subpri < e.subpri) : s.taskSwitch = s.switchTo e (some (s.runningEntry false)) := by
  rw [taskSwitch_eq hm hl he, hr, if_neg (by decide), if_neg (not_or.2 ⟨ht, ne_true_of_eq_false hp⟩), if_pos hs]

end

theorem markTsbState_core (s : State) (t : BitVec 37) (st : Nat) : (s.markTsbState t st).core = s.core := by
  dsimp only [State.markTsbState]

theorem clearParked_core (s : State) (t : BitVec 37) : (s.clearParked t).core = s.core := by
  unfold State.clearParked
  split
  · simp only [markTsbState_core]
  · rfl

/-- A task's load leaves the levels as they are. -/
theorem loadTask_lvl {t : BitVec 37} (h : s.loadTask t = .ok u) : u.lvl = s.lvl := by
  unfold State.loadTask State.loadImage at h
  split at h
  · cases h
  · rw [← Except.ok.inj h]
    refine lvl_of_active ?_
    dsimp only
    rw [clearParked_core]
    rfl

theorem checkLoadedPc_of_aligned (h : s.bank.pc.toNat % 4 = 0) : s.checkLoadedPc = s := if_neg (not_not.2 h)

/-- A switch from no running task to one whose image and resume address are good. -/
theorem switchTo_idle (hl : s.lvl = 0) (h : (s.setReady (s.bm.ready.erase e)).loadTask e.tsb = .ok u)
    (hp : (u.bankOf 0).pc.toNat % 4 = 0) : s.switchTo e none = u.cancelEarly.dropCoreWaiters := by
  have hu : u.lvl = 0 := (loadTask_lvl h).trans hl
  have hb : u.cancelEarly.dropCoreWaiters.bank = u.bankOf 0 := congrArg u.bankOf hu
  unfold State.switchTo
  simp only [Except.bind, h]
  exact checkLoadedPc_of_aligned (by rw [hb]; exact hp)

end

/-! ### The statement -/

/-- Settles O41: each write by its rule, and TASK_SWITCH by what the banksman chooses. -/
theorem readyListAndTaskSwitches : Obligations.ReadyListAndTaskSwitches := by
  refine ⟨fun s v n => ?_, fun s hd hw => ⟨fun h hp => ?_, fun e u hm hl he => ⟨fun hr hs hp => ?_, fun hr hu hpc hp => ?_,
    fun hr ht hpin hs hsw hp => ?_⟩⟩⟩
  · refine ⟨fun h => ?_, rladd_full, fun hn ha => ?_, fun hn ha hr hs => ?_, ?_, bankpolWrite_elsewhere, fun hl hr hv => ?_⟩
    · rw [← readyOf_eq]
      exact rladd_joins h
    · exact tsbpWrite_of_ok (writeTsbp_active (levelOf_ne_zero hn) ha)
    · exact tsbpWrite_of_ok (writeTsbp_no_bank (levelOf_ne_zero hn) ha hr hs)
    · obtain ⟨t, ht, hb⟩ := writeTsbp_zero s v
      exact ⟨_, tsbpWrite_of_ok ht, hb⟩
    · obtain ⟨bound, hb⟩ := writeBankpol_spill hl hr hv
      exact ⟨_, congrArg (answer s) hb, rfl, rfl, hr⟩
  · exact taskSwitch_yields hd hw (taskSwitch_stays h) hp
  · exact taskSwitch_yields hd hw (taskSwitch_lower hm hl he hr hs) hp
  · exact taskSwitch_yields hd hw ((taskSwitch_idle hm hl he hr).trans (switchTo_idle hl hu hpc)) hp
  · exact taskSwitch_yields hd hw ((taskSwitch_preempts hm hl he hr ht hpin hs).trans hsw) hp

end Sys2Proof.Machine
end

section
/-! ## The tile state's moves between contexts (05 R136 to R138) -/

namespace Sys2Proof.Machine

section
variable {s t : State} {o d : TileOwner}

/-- A step that has completed began with no earlier tile instruction left. -/
theorem ownAfterTile_ok {k : State → Own} (h : s.ownAfterTile k = .ok t) : k s.drainTile = .ok t := by
  unfold State.ownAfterTile at h
  split at h
  · cases h
  · exact h

/-! ### What a move that completes leaves -/

/-- The state once level `l` has filled the area of the owner `o`. -/
def State.filledBy (s : State) (l : Fin 8) (o : TileOwner) : State :=
  let t := s.setBankOf l { s.bankOf l with lzfill := true }
  { t with bm := { t.bm with
    owner := some (s.selfOwner l), displaced := { o with pend := false, filled := true, filler := l } :: s.bm.displaced } }

/-- A lazy fill ends with the saved state filled by the level that was current before it. -/
theorem lazyFill_ok (h : s.lazyFill o = .ok t) : ∃ x : State, t = x.filledBy s.lvl o := by
  unfold State.lazyFill at h
  have hk := ownAfterTile_ok h
  split at hk
  · cases hk
  · cases hk
  · exact ⟨_, (Own.ok.inj hk).symm⟩

theorem filledBy_lzfill (s : State) (l : Fin 8) (o : TileOwner) : ((s.filledBy l o).bankOf l).lzfill = true :=
  congrArg Bank.lzfill (State.bankOf_setBankOf_self s l _)

theorem timeSliceSave_ok (h : s.timeSliceSave o = .ok t) : t.bm.owner = none := by
  unfold State.timeSliceSave at h
  have hk := ownAfterTile_ok h
  split at hk
  · cases hk
  · cases hk
  · rw [← Own.ok.inj hk]
    rfl

theorem timeSliceRestore_ok (h : s.timeSliceRestore = .ok t) : ∃ x : State, t = x.becomeHolder := by
  unfold State.timeSliceRestore at h
  have hk := ownAfterTile_ok h
  split at hk
  · dsimp only at hk
    split at hk
    · cases hk
    · cases hk
    · split at hk
      · cases hk
      · cases hk
      · exact ⟨_, (Own.ok.inj hk).symm⟩
  · exact ⟨_, (Own.ok.inj hk).symm⟩

theorem clearTilewait_owner (s : State) : s.clearTilewait.bm.owner = s.bm.owner := by
  unfold State.clearTilewait
  split <;> rfl

theorem clearTilewait_left (s : State) : s.clearTilewait.bm.left = s.bm.left := by
  unfold State.clearTilewait
  split <;> rfl

/-- The budget of a holder at level 0 ends at 0, and it stays the owner. -/
theorem endBudget_holder (ho : s.bm.owner = some o) (hl : o.level = 0) : s.endBudget.bm.left = 0 ∧ s.endBudget.bm.owner = some o := by
  unfold State.endBudget
  simp only [ho, hl, ne_eq, not_true, if_false]
  split
  · exact ⟨rfl, rfl⟩
  · exact ⟨clearTilewait_left _, clearTilewait_owner _⟩

/-- The filler's release, once the displaced state is restored, hands the tile state back. -/
theorem releaseTile_filler {rest : List TileOwner} {l : Fin 8} (hd : s.bm.displaced = d :: rest) (hf : d.filler = l)
    (h : s.lazyRestore d = .ok t) : s.releaseTile l = .ok { t with bm := { t.bm with
      owner := some { d with filled := false, pend := t.lowerReservation d.level l }, displaced := rest } } := by
  unfold State.releaseTile
  simp only [hd, if_pos hf, h]

/-! ### The commands -/

theorem lazyFill_yields (ho : s.bm.owner = some o) (hi : s.canIssue = true) (hp : o.pend = true) (hl : s.lvl ≠ 0)
    (h : s.lazyFill o = .ok t) : Yields .lazyFill s t := by
  refine congrArg (answer s) ?_
  simp only [ho, hi, hp, hl, ne_eq, not_false_eq_true, decide_true, Bool.and_self, if_true, h, Own.finish]

theorem lazyFill_unowned (ho : s.bm.owner = none) : Yields .lazyFill s s := by
  refine congrArg (answer s) ?_
  rw [ho]

theorem lazyRestore_yields {rest : List TileOwner} (hd : s.bm.displaced = d :: rest) (hi : s.canIssue = true) (hf : d.filler = s.lvl)
    (hl : s.lvl ≠ 0) (h : s.releaseTile s.lvl = .ok t) : Yields .lazyRestore s t := by
  refine congrArg (answer s) ?_
  simp only [hd, hi, hf, hl, ne_eq, not_false_eq_true, decide_true, Bool.and_self, if_true, h, Own.finish]

theorem lazyRestore_none (hd : s.bm.displaced = []) : Yields .lazyRestore s s := by
  refine congrArg (answer s) ?_
  rw [hd]

theorem budgetEnd_yields (hu : s.bm.unlimited = false) : Yields .budgetEnd s s.endBudget :=
  congrArg (answer s) (if_neg (ne_true_of_eq_false hu))

theorem budgetEnd_unlimited (hu : s.bm.unlimited = true) : Yields .budgetEnd s s := congrArg (answer s) (if_pos hu)

theorem timeSliceSave_unowned (ho : s.bm.owner = none) : Yields .timeSliceSave s s := by
  refine congrArg (answer s) ?_
  rw [ho]

theorem timeSliceSave_yields (ho : s.bm.owner = some o) (hc : s.contends o = true) (hb : s.bm.left = 0) (hu : s.bm.unlimited = false)
    (ha : s.tsave o.tsb ≠ 0) (h : s.timeSliceSave o = .ok t) : Yields .timeSliceSave s t := by
  refine congrArg (answer s) ?_
  simp only [ho, hc, hb, hu, beq_self_eq_true, Bool.not_false, bne_iff_ne.2 ha, Bool.and_self, if_true, h, Own.finish]

theorem timeSliceRestore_yields (ho : s.bm.owner = none) (hi : s.canIssue = true) (hl : s.lvl = 0) (h : s.timeSliceRestore = .ok t) :
    Yields .timeSliceRestore s t := by
  refine congrArg (answer s) ?_
  simp only [ho, hi, hl, Option.isNone_none, decide_true, Bool.and_self, if_true, h, Own.finish]

end

/-! ### The statement -/

/-- Settles O42: each command yields its move, and the move that completes leaves the owner, the displaced and the budget as said. -/
theorem tileOwnershipMoves : Obligations.TileOwnershipMoves := by
  intro s t o d rest
  refine ⟨fun ho hi hp hl h => ⟨lazyFill_yields ho hi hp hl h, ?_⟩, fun hd hi hf hl h => ?_,
    fun ho => ⟨lazyFill_unowned ho, timeSliceSave_unowned ho⟩, lazyRestore_none, fun ho hl hu => ?_, budgetEnd_unlimited,
    fun ho hc hb hu ha h => ⟨timeSliceSave_yields ho hc hb hu ha h, timeSliceSave_ok h⟩,
    fun ho hi hl h => ⟨timeSliceRestore_yields ho hi hl h, ?_⟩⟩
  · obtain ⟨x, rfl⟩ := lazyFill_ok h
    exact ⟨⟨_, rfl, rfl, rfl⟩, filledBy_lzfill .., _, rfl⟩
  · exact ⟨_, lazyRestore_yields hd hi hf hl (releaseTile_filler hd hf h), rfl, ⟨_, rfl, rfl, rfl⟩, rfl, rfl⟩
  · obtain ⟨hleft, howner⟩ := endBudget_holder ho hl
    exact ⟨_, budgetEnd_yields hu, hleft, howner⟩
  · obtain ⟨x, rfl⟩ := timeSliceRestore_ok h
    exact ⟨⟨_, rfl, rfl⟩, rfl⟩

end Sys2Proof.Machine
end

section
/-! SUPPORT. A tile instruction at dispatch: its gate, its checks, the lines of its operand, and its place in the queue (06 R162 to R164). -/

namespace Sys2Proof.Machine

/-! ### Waits for earlier tile instructions (06 R165) -/

theorem afterTile_stuck {s : State} (h : s.tileStuck = true) (k : State → IRes) : s.afterTile k = .wait s := if_pos h

theorem afterTile_free {s : State} (h : s.tileStuck = false) (k : State → IRes) : s.afterTile k = k s.drainTile :=
  if_neg (ne_true_of_eq_false h)

/-! ### The gate and the checks (06 R162) -/

/-- An instruction that passes the gate goes on in the state that owns the tile extension. -/
theorem tileGate_of_passes {u v : State} (h : TilePasses u v) (w : Word) (k : State → IRes) : u.tileGate w k = k v := by
  obtain ⟨hpwr, hret, hen, hpriv, hown, -⟩ := h
  have huser : (!u.super && !u.tile.uen) = false := by
    rcases hpriv with hp | hp
    · simp [hp]
    · simp [hp]
  simp [State.tileGate, hpwr, hret, hen, huser, hown]

theorem queue_place_of_passes {u v : State} (h : TilePasses u v) : v.tile.queue.length < 16 := by
  obtain ⟨-, -, -, -, -, hq⟩ := h
  exact hq

@[simp] theorem checks_cons_eq_none (bad : Bool) (e : Exc) (l : List (Bool × Exc)) :
    checks ((bad, e) :: l) = none ↔ bad = false ∧ checks l = none := by
  cases bad <;> simp [checks]

@[simp] theorem checks_nil : checks [] = none := rfl

theorem tileChecks_of_none {l : List (Bool × Exc)} (h : checks l = none) (s : State) (k : IRes) : s.tileChecks l k = k := by
  simp [State.tileChecks, h]

/-- The only check of one register is that it is enabled. -/
theorem checks_enabled {on : Bool} (h : on = true) (e : Exc) : checks [(!on, e)] = none := by
  simp [h]

/-- A register that is on where it is needed is not missing. -/
theorem not_missing {needed on : Bool} (h : needed = true → on = true) : (needed && !on) = false :=
  Bool.and_eq_false_imp.2 fun hn => by rw [h hn]; rfl

/-- A mask that names only registers in use names none that is off. -/
theorem maskBits_any_off {w : Nat} {m : BitVec w} {on : Nat → Bool} (h : ∀ i < w, m.getLsbD i = true → on i = true) :
    (maskBits m).any (fun i => !on i) = false := by
  simpa [maskBits, List.any_eq_false] using h

/-- Block scales pass where the format has a per-block form and its scales lie within V7 (08 Table 8.11). -/
theorem blockScales_pass {x f last : Nat} (h : m0Block x = true → fmtHasBlock f = true ∧ last ≤ 7) :
    (m0Block x && (!fmtHasBlock f || decide (7 < last))) = false := by
  refine Bool.and_eq_false_imp.2 fun hb => ?_
  obtain ⟨hf, hlast⟩ := h hb
  simp [hf, hlast]

/-! ### The queue (06 R164) -/

theorem enter_of_place {s : State} (h : s.tile.queue.length < 16) (op : TileOp) : s.enter op = .done (s.enqueue op) :=
  if_neg (Nat.not_le.2 h)

/-- An operand that is aligned and whose lines translate is at hand. -/
theorem withLines_of_ok {v w : State} {kind : AccKind} {a st : Word} {n len : Nat} {ls : List (List Segment)}
    (ha : operandAligned a st (Nat.min len 128) (if kind.writes then some len else none) = true)
    (ht : v.translateLines kind none len (lineAddrs a st n) = .ok w ls) (k : State → List (List Segment) → IRes) :
    v.withLines kind a st n len k = k w ls := by
  simp [State.withLines, ha, ht]

/-! ### How a tile instruction enters the queue -/

section
variable {c : Instr} {s u v w : State} {body : State → IRes} {ok : Bool} {x y : Word} {l : State → List (Bool × Exc)}

/-- A tile instruction with its reserved fields clear that passes gate and checks goes on with the rest of its work. -/
theorem work_of_checks {b : IRes} {k : State → IRes} (hp : TilePasses u v)
    (hb : b = guardRsv ok x u (u.tileGate y fun t => t.tileChecks (l t) (k t))) (hok : ok = true) (hl : checks (l v) = none) :
    b = k v := by
  rw [hb, hok, guardRsv_true, tileGate_of_passes hp, tileChecks_of_none hl]

/-- One without an operand in memory takes its place in the queue. -/
theorem enters_of_checks {k : State → IRes} {op : TileOp} (h : Issues s u) (hp : TilePasses u v) (hc : exec c s = s.issue body)
    (hb : body u = guardRsv ok x u (u.tileGate y fun t => t.tileChecks (l t) (k t))) (hk : k v = v.enter op) (hok : ok = true)
    (hl : checks (l v) = none) : Enters c s v op :=
  completes_of_done h hc ((work_of_checks hp hb hok hl).trans (hk.trans (enter_of_place (queue_place_of_passes hp) op)))

/-- One with an operand in memory takes its place in the queue with the operand's lines. -/
theorem enters_of_lines {k : State → IRes} {g : State → List (List Segment) → IRes} {kind : AccKind} {a st : Word} {n len : Nat}
    {ls : List (List Segment)} {op : TileOp} (h : Issues s u) (hp : TilePasses u v) (hq : w.tile.queue.length < 16)
    (hc : exec c s = s.issue body) (hb : body u = guardRsv ok x u (u.tileGate y fun t => t.tileChecks (l t) (k t)))
    (hk : k v = v.withLines kind a st n len g) (hg : g w ls = w.enter op) (hok : ok = true) (hl : checks (l v) = none)
    (ht : v.translateLines kind none len (lineAddrs a st n) = .ok w ls)
    (ha : operandAligned a st (Nat.min len 128) (if kind.writes then some len else none) = true) : Enters c s w op :=
  completes_of_done h hc
    ((work_of_checks hp hb hok hl).trans (hk.trans ((withLines_of_ok ha ht g).trans (hg.trans (enter_of_place hq op)))))

end

end Sys2Proof.Machine
end

section
/-! ## Tile configuration instructions (06 R152) -/

namespace Sys2Proof.Machine

/-! ### The immediates of Table 6.3 -/

/-- TZERO's immediate names its mask and class, and sets no reserved bit. -/
theorem tzeroImm_fields (mask : BitVec 8) (isV : Bool) :
    let imm : BitVec 12 := mask.setWidth 12 ||| if isV then 0x100 else 0
    imm.setWidth 8 = mask ∧ imm.getLsbD 8 = isV ∧ imm.toNat / 2 ^ 9 = 0 := by
  have hm : (mask.setWidth 12).toNat < 2 ^ 9 := by simp; omega
  refine ⟨?_, ?_, Nat.div_eq_of_lt ?_⟩
  · cases isV <;> simp
  · cases isV <;> simp
  · cases isV
    · simpa using hm
    · exact Nat.or_lt_two_pow hm (by decide)

/-- KZERO's immediate. -/
theorem kzeroImm_fields (mask : BitVec 4) (int : Bool) :
    let imm : BitVec 12 := mask.setWidth 12 ||| if int then 0x10 else 0
    imm.setWidth 4 = mask ∧ imm.getLsbD 4 = int ∧ imm.toNat / 2 ^ 5 = 0 := by
  decide +revert

theorem tmovImm_fields (src dst : BitVec 3) (isV : Bool) :
    let imm : BitVec 12 := src.setWidth 12 ||| (dst.setWidth 12 : BitVec 12) <<< 3 ||| if isV then 0x40 else 0
    imm.setWidth 3 = src ∧ (imm >>> 3).setWidth 3 = dst ∧ imm.getLsbD 6 = isV ∧ imm.toNat / 2 ^ 7 = 0 := by
  decide +revert

/-! ### Each instruction -/

/-- Tn or Vn is enabled, by class. -/
def classEnabled (isV : Bool) (c : BitVec 22) (n : Nat) : Bool := if isV then vEnabled c n else tEnabled c n

theorem not_classEnabled (isV : Bool) (c : BitVec 22) (n : Nat) :
    (if isV then !vEnabled c n else !tEnabled c n) = !classEnabled isV c n := by
  cases isV <;> rfl

section
variable {s u v : State}

theorem tcfg_completes (h : Issues s u) (hp : TilePasses u v) (rd ra : RegIx) :
    let new : BitVec 22 := (v.readG ra).setWidth 22
    let e := v.enqueue (.tcfg new)
    Completes (.tcfg rd ra 0) s ((if new = 0 then e.releaseByTcfg else e).writeG rd (v.mirror.tconf.setWidth 64)) := by
  refine completes_of_done h rfl ((guardRsv_true ..).trans ((tileGate_of_passes hp ..).trans ?_))
  simp only [enter_of_place (queue_place_of_passes hp)]

/-- TZERO by the fields of its immediate. -/
theorem tzero_enters (h : Issues s u) (hp : TilePasses u v) {imm : BitVec 12} {mask : BitVec 8} {isV : Bool}
    (hf : imm.setWidth 8 = mask ∧ imm.getLsbD 8 = isV ∧ imm.toNat / 2 ^ 9 = 0) (hm : mask ≠ 0)
    (hon : ∀ i < 8, mask.getLsbD i = true → classEnabled isV v.mirror.tconf i = true) :
    Enters (.tzero 0 0 imm) s v (.tzero isV mask) := by
  obtain ⟨rfl, rfl, hrsv⟩ := hf
  have hoff := maskBits_any_off hon
  simp only [← not_classEnabled] at hoff
  exact enters_of_checks h hp rfl rfl rfl (by simp only [hrsv, bne_iff_ne.2 hm]; rfl) (by simp only [hoff, checks_cons_eq_none, checks_nil, and_self])

/-- KZERO by the fields of its immediate. -/
theorem kzero_enters (h : Issues s u) (hp : TilePasses u v) {imm : BitVec 12} {mask : BitVec 4} {int : Bool}
    (hf : imm.setWidth 4 = mask ∧ imm.getLsbD 4 = int ∧ imm.toNat / 2 ^ 5 = 0) (hm : mask ≠ 0)
    (hon : ∀ i < 4, mask.getLsbD i = true → kEnabled v.mirror.tconf i = true) :
    Enters (.kzero 0 0 imm) s v (.kzero mask int) := by
  obtain ⟨rfl, rfl, hrsv⟩ := hf
  exact enters_of_checks h hp rfl rfl rfl (by simp only [hrsv, bne_iff_ne.2 hm]; rfl)
    (by simp only [maskBits_any_off hon, checks_cons_eq_none, checks_nil, and_self])

/-- TMOV by the fields of its immediate. -/
theorem tmov_enters (h : Issues s u) (hp : TilePasses u v) {imm : BitVec 12} {src dst : BitVec 3} {isV : Bool}
    (hf : imm.setWidth 3 = src ∧ (imm >>> 3).setWidth 3 = dst ∧ imm.getLsbD 6 = isV ∧ imm.toNat / 2 ^ 7 = 0)
    (hsrc : classEnabled isV v.mirror.tconf src.toNat = true) (hdst : classEnabled isV v.mirror.tconf dst.toNat = true) :
    Enters (.tmov 0 0 imm) s v (.tmov isV (fin8 src) (fin8 dst)) := by
  obtain ⟨rfl, rfl, rfl, hrsv⟩ := hf
  exact enters_of_checks h hp rfl rfl rfl (by simp only [hrsv]; rfl)
    (by simp only [not_classEnabled, hsrc, hdst, Bool.not_true, Bool.or_self, checks_cons_eq_none, checks_nil, and_self])

/-- SCALE.SET of any word; word 0 with block scales needs a format that has them and a place for them (08 Table 8.11). -/
theorem scaleSet_enters (h : Issues s u) (hp : TilePasses u v) (ra : RegIx) (slot : BitVec 6) (sel : BitVec 3)
    (hss : ssEnabled v.mirror.tconf = true)
    (hb : sel = 0 → let x := (v.readG ra).toNat
      m0Block x = true → fmtHasBlock (m0Fmt x) = true ∧ m0Last x (tileDepth (fmtWidth (m0Fmt x))) ≤ 7) :
    Enters (.scaleSet 0 ra slot sel 0 0) s v (.scaleSet (fin64 slot) (fin8 sel) (v.readG ra)) := by
  refine enters_of_checks h hp rfl rfl rfl rfl ?_
  simp only [hss, Bool.not_true, checks_cons_eq_none, checks_nil, true_and, and_true]
  rw [Bool.and_assoc]
  exact Bool.and_eq_false_imp.2 fun hs => blockScales_pass (hb (eq_of_beq hs))

theorem scaleUpd_enters (h : Issues s u) (hp : TilePasses u v) (slot : BitVec 6) (hss : ssEnabled v.mirror.tconf = true) :
    Enters (.scaleUpd 0 0 slot 0 0 0) s v (.scaleUpd (fin64 slot)) :=
  enters_of_checks h hp rfl rfl rfl rfl (checks_enabled hss _)

end

/-! ### The statement -/

/-- Settles O23: the entries by the fields of their immediates, TFENCE and SCALE.RD by their wait for earlier tile instructions. -/
theorem tileConfigDispatch : Obligations.TileConfigDispatch := by
  intro s u v rd ra slot sel h hp c
  refine ⟨tcfg_completes h hp rd ra, fun mask hm hon => ?_, fun mask hm hon => tzero_enters h hp (tzeroImm_fields mask true) hm hon,
    fun mask int hm hon => kzero_enters h hp (kzeroImm_fields mask int) hm hon, fun src dst hs hd => ?_,
    fun src dst hs hd => tmov_enters h hp (tmovImm_fields src dst true) hs hd,
    fun hss hsel => scaleSet_enters h hp ra slot sel hss fun hz => absurd hz hsel,
    fun hss hb => scaleSet_enters h hp ra slot 0 hss fun _ => hb, scaleUpd_enters h hp slot, fun hss hst => ?_, fun hss hst => ?_,
    fun hst => ?_, fun hst => ?_⟩
  · exact tzero_enters h hp (by simpa using tzeroImm_fields mask false) hm hon
  · exact tmov_enters h hp (by simpa using tmovImm_fields src dst false) hs hd
  · exact completes_of_done h rfl ((work_of_checks hp rfl rfl (checks_enabled hss _)).trans (afterTile_free hst _))
  · exact yields_of_wait h rfl ((work_of_checks hp rfl rfl (checks_enabled hss _)).trans (afterTile_stuck hst _))
  · exact completes_of_done h rfl ((guardRsv_true ..).trans (afterTile_free hst _))
  · exact yields_of_wait h rfl ((guardRsv_true ..).trans (afterTile_stuck hst _))

end Sys2Proof.Machine
end

section
/-! ## Loads and stores of tiles and lane vectors, and SEAMLD (06 R151, R154, R162) -/

namespace Sys2Proof.Machine

section
variable {s u v w : State} {ls : List (List Segment)}

/-- The checks of a tile that a scale slot quantises (06 R162, 08 Table 8.11). -/
theorem checks_slot {m : Mirror} {tile fmt : BitVec 3} {slot : BitVec 6} (x : Word) (ht : tEnabled m.tconf tile.toNat = true)
    (hss : ssEnabled m.tconf = true) (hf : m0Fmt m.ss[fin64 slot] = fmt.toNat)
    (hb : let depth := tileDepth (fmtWidth fmt.toNat)
      m0Block m.ss[fin64 slot] = true → scalesDisabled m m.ss[fin64 slot] depth = false ∧ fmtHasBlock fmt.toNat = true
        ∧ m0Last m.ss[fin64 slot] depth ≤ 7) :
    let w0 := m.ss[fin64 slot]
    let sdepth := tileDepth (fmtWidth (m0Fmt w0))
    checks [(!tEnabled m.tconf tile.toNat || !ssEnabled m.tconf || (m0Block w0 && scalesDisabled m w0 sdepth), exc15 x 3),
      (fmt.toNat != m0Fmt w0, exc18 x slot.toNat 1),
      (m0Block w0 && (!fmtHasBlock (m0Fmt w0) || decide (7 < m0Last w0 sdepth)), exc18 x slot.toNat 2)] = none := by
  have hvec : (m0Block m.ss[fin64 slot] && scalesDisabled m m.ss[fin64 slot] (tileDepth (fmtWidth fmt.toNat))) = false :=
    Bool.and_eq_false_imp.2 fun h => (hb h).1
  have hlast := blockScales_pass fun h => (hb h).2
  simp only [hf, ht, hss, hvec, hlast, bne_self_eq_false, Bool.not_true, Bool.or_self, checks_cons_eq_none, checks_nil, and_self]

/-- An operand at a multiple of the line size is aligned wherever one at 0 is. -/
theorem operandAligned_of_line {a st : Word} {store : Option Nat} (ha : a.toNat % 128 = 0) (h0 : operandAligned 0 st 128 store = true) :
    operandAligned a st 128 store = true := by
  simp only [operandAligned, Bool.and_eq_true, decide_eq_true_eq] at h0 ⊢
  obtain ⟨⟨-, hst⟩, hlen⟩ := h0
  exact ⟨⟨ha, hst⟩, hlen⟩

/-- SEAMLD completes with the slot filled, once every earlier tile instruction has (06 R154). -/
theorem seamld_completes {t : State} (h : Issues s u) (hp : TilePasses u v) (ra : RegIx) (seam : BitVec 2)
    (ht : v.translateLines .load none 4096 (lineAddrs (v.readG ra) 0 1) = .ok w ls) (ha : (v.readG ra).toNat % 128 = 0)
    (hst : w.tileStuck = false)
    (htake : let x := w.drainTile.readLine ls.flatten
      x.1.seamTake (fin4 seam) (v.readG ra) x.2.1 (firstPoison x.2.2).isSome = (t, none)) :
    Completes (.seamld 0 ra 0 0 seam 0) s t := by
  refine completes_of_done h rfl ((guardRsv_true ..).trans ((tileGate_of_passes hp ..).trans
    ((withLines_of_ok (operandAligned_of_line ha rfl) ht _).trans ((afterTile_free hst _).trans ?_))))
  simp only [htake]

end

/-! ### The statement -/

/-- Settles O24: each instruction by its checks and the lines of its operand. -/
theorem tileMemoryDispatch : Obligations.TileMemoryDispatch := by
  intro s u v w tile vr wc ra rb fmt d slot seam ls h hp c a st wb depth slotWord rows len hq
  refine ⟨fun hon => ?_, fun hon => ?_, fun ht ha hst _ htake => seamld_completes h hp ra seam ht ha hst htake⟩
  · have hl := checks_enabled hon
    refine ⟨enters_of_lines h hp hq rfl rfl rfl rfl rfl (hl _), enters_of_lines h hp hq rfl rfl rfl rfl rfl (hl _),
      enters_of_lines h hp hq rfl rfl rfl rfl rfl (hl _), enters_of_lines h hp hq rfl rfl rfl rfl rfl (hl _),
      fun hss hf hb => ?_⟩
    have hslot := fun x => checks_slot x hon hss hf hb
    exact ⟨enters_of_lines h hp hq rfl rfl rfl rfl rfl (hslot _), enters_of_lines h hp hq rfl rfl rfl rfl rfl (hslot _)⟩
  · have hl := checks_enabled hon
    exact ⟨fun ht ha => enters_of_lines h hp hq rfl rfl rfl rfl rfl (hl _) ht (operandAligned_of_line ha rfl),
      fun ht ha => enters_of_lines h hp hq rfl rfl rfl rfl rfl (hl _) ht (operandAligned_of_line ha rfl)⟩

end Sys2Proof.Machine
end

section
/-! ## Outer products and KOUT (06 R162, 07, 09) -/

namespace Sys2Proof.Machine

/-! ### OPA (06 R156, R157) -/

/-- The entry of an OPA that dispatches in `v`. -/
def State.opaEntry (v : State) (kd : BitVec 2) (ta tb fa fb : BitVec 3) (rc : RegIx) : TileOp :=
  .opa (fin4 kd) (fin8 ta) (fin8 tb) fa.toNat fb.toNat (v.readG rc) v.jnl.stepcnt (v.jnl.mbatch.setWidth 64)

/-- The lane vectors that supply block scales are enabled where those of every block are. -/
theorem scaleVectors_enabled {m : Mirror} {ctl : Word} {blocks : List Nat}
    (h : ∀ b ∈ blocks, vEnabled m.tconf (ctlVa ctl + b / 4) = true ∧ vEnabled m.tconf (ctlVb ctl + b / 4) = true) :
    (blocks.flatMap fun b => [ctlVa ctl + b / 4, ctlVb ctl + b / 4]).any (fun n => decide (n ≤ 7) && !vEnabled m.tconf n) = false := by
  simp only [List.any_eq_false, List.mem_flatMap, List.mem_cons, List.not_mem_nil, or_false]
  rintro n ⟨b, hb, rfl | rfl⟩
  · simp [(h b hb).1]
  · simp [(h b hb).2]

section
variable {s u v : State} {kd : BitVec 2} {ta tb fa fb : BitVec 3} {rc : RegIx} {int : Bool} (h : Issues s u) (hp : TilePasses u v)
  (hon : kEnabled v.mirror.tconf kd.toNat = true ∧ tEnabled v.mirror.tconf ta.toNat = true ∧ tEnabled v.mirror.tconf tb.toNat = true)
  (hw : fmtWidth fa.toNat = fmtWidth fb.toNat) (hint : (fmtIsInt fa.toNat && fmtIsInt fb.toNat) = int)
  (hty : v.mirror.ktype.getLsbD kd.toNat = int) (hr : ctlRangeBad (v.readG rc) fa.toNat = false)
  (hsr : ctlSr (v.readG rc) = true → qEnabled v.mirror.tconf = true ∧ int = false)
include h hp hon hw hint hty hr hsr

/-- OPA enters once what depends on the source of its scales passes: the lane vectors or the two slots. -/
theorem opa_enters (hv : ctlMx (v.readG rc) = true → ctlMxBad (v.readG rc) fa.toNat fb.toNat = false
      ∧ ∀ b ∈ rangeBlocks (v.readG rc) fa.toNat, vEnabled v.mirror.tconf (ctlVa (v.readG rc) + b / 4) = true
        ∧ vEnabled v.mirror.tconf (ctlVb (v.readG rc) + b / 4) = true)
    (hs : ctlMx (v.readG rc) = false → ssEnabled v.mirror.tconf = true ∧ m0Block v.mirror.ss[ctlSsa (v.readG rc)] = false
      ∧ m0Block v.mirror.ss[ctlSsb (v.readG rc)] = false ∧ m0Fmt v.mirror.ss[ctlSsa (v.readG rc)] = fa.toNat
      ∧ m0Fmt v.mirror.ss[ctlSsb (v.readG rc)] = fb.toNat) :
    Enters (.opa kd ta tb rc fa fb 0) s v (v.opaEntry kd ta tb fa fb rc) := by
  obtain ⟨hk, ha, hb⟩ := hon
  have hq : (ctlSr (v.readG rc) && !qEnabled v.mirror.tconf) = false := not_missing fun hx => (hsr hx).1
  have hi : (ctlSr (v.readG rc) && int) = false := Bool.and_eq_false_imp.2 fun hx => (hsr hx).2
  refine enters_of_checks h hp rfl rfl rfl (by simp only [hw, beq_self_eq_true, Bool.and_self]) ?_
  cases hmx : ctlMx (v.readG rc) with
  | true =>
    obtain ⟨hbad, hvec⟩ := hv hmx
    simp only [hk, ha, hb, hq, hi, hint, hty, hr, hbad, scaleVectors_enabled hvec, if_true, Bool.not_true, Bool.false_and, Bool.or_self,
      bne_self_eq_false, checks_cons_eq_none, checks_nil, and_self]
  | false =>
    obtain ⟨hss, hba, hbb, hfa, hfb⟩ := hs hmx
    simp only [hk, ha, hb, hq, hi, hint, hty, hr, hmx, hss, hba, hbb, hfa, hfb, ctlMxBad, if_false, Bool.false_eq_true, List.any_nil,
      Bool.not_true, Bool.not_false, Bool.false_and, Bool.and_false, Bool.or_self, bne_self_eq_false, checks_cons_eq_none, checks_nil,
      and_self]

end

/-! ### OPMAX and OPMIN (06 R158) -/

theorem opm_enters {c : Instr} {s u v : State} {kd : BitVec 2} {ta tb f : BitVec 3} {rc : RegIx} {isMin : Bool} (h : Issues s u)
    (hp : TilePasses u v) (hc : exec c s = s.issue fun t => t.opm isMin kd ta tb rc f f 0)
    (hon : kEnabled v.mirror.tconf kd.toNat = true ∧ tEnabled v.mirror.tconf ta.toNat = true ∧ tEnabled v.mirror.tconf tb.toNat = true)
    (hk : kEnabled v.mirror.tconf (kd.toNat + 1) = true) (heven : kd.getLsbD 0 = false) (hf : 4 ≤ f.toNat)
    (hty : v.mirror.ktype.getLsbD kd.toNat = (f.toNat == 6)) (hty' : v.mirror.ktype.getLsbD (kd.toNat + 1) = true)
    (hr : ctlRangeBad (v.readG rc) f.toNat = false) (hscale : fieldOf (v.readG rc).toNat 14 9 = 0)
    (hround : fieldOf (v.readG rc).toNat 35 5 = 0) :
    Enters c s v (.opm isMin (fin4 kd) (fin8 ta) (fin8 tb) f.toNat (v.readG rc)) := by
  obtain ⟨hkd, ha, hb⟩ := hon
  refine enters_of_checks h hp hc rfl rfl (by simp only [hf, heven, beq_self_eq_true, decide_true, Bool.not_false, Bool.and_self]) ?_
  simp only [hkd, hk, ha, hb, hty, hty', hr, hscale, hround, Bool.not_true, Bool.or_self, bne_self_eq_false, checks_cons_eq_none,
    checks_nil, and_self]

/-! ### KOUT (06 R159 to R161) -/

/-- The stream that a KOUT with an image disarms at its dispatch (10 R237). -/
def Mirror.disarmedBy (m : Mirror) (img : BitVec 32768) : Option (Fin 16) :=
  if imgMasks img ≠ 0 ∧ m.q[imgQs img].1 = true then some (imgQs img) else none

/-- The end of a KOUT's dispatch: the skew check, then the queue. -/
def Mirror.endKout (m : Mirror) (img : BitVec 32768) (op : TileOp) (t : State) : IRes :=
  if imgMasks img != 0 && t.skewed m.q[imgQs img] then t.afterTile (fun t => t.skewExc m.q[imgQs img]) else t.enter op

theorem endKout_agreed {m : Mirror} {img : BitVec 32768} {t : State} (hs : imgMasks img ≠ 0 → t.skewed m.q[imgQs img] = false)
    (hq : t.tile.queue.length < 16) (op : TileOp) : m.endKout img op t = .done (t.enqueue op) := by
  have hskew : (imgMasks img != 0 && t.skewed m.q[imgQs img]) = false := Bool.and_eq_false_imp.2 fun hm => hs (bne_iff_ne.1 hm)
  simp only [Mirror.endKout, hskew, Bool.false_eq_true, if_false, enter_of_place hq]

section
variable {s u v w : State} {kd seam : BitVec 2} {vr : BitVec 3} {kz : Bool} {ra rb : RegIx} {slot : BitVec 6} {img : BitVec 32768} {w0 : Nat}
  (h : Issues s u) (hp : TilePasses u v) (himg : v.tile.seam[fin4 seam].image = img) (hslot : v.mirror.ss[fin64 slot] = w0)
  (hk : kEnabled v.mirror.tconf kd.toNat = true) (hss : ssEnabled v.mirror.tconf = true) (hvalid : v.tile.seam[fin4 seam].valid = true)
  (hreads : ∀ n ∈ imgReadsV img, vEnabled v.mirror.tconf n = true) (hmask : imgMasks img ≠ 0 → qEnabled v.mirror.tconf = true)
  (hred : imgRed img ≠ 0 → vEnabled v.mirror.tconf vr.toNat = true)
  (hargmax : imgRed img = 4 → vr ≠ 7 ∧ vEnabled v.mirror.tconf (vr.toNat + 1) = true)
  (hblock : m0Block w0 = true → m0Last w0 128 ≤ 7
    ∧ (imgOfmt img ≠ 15 → fmtHasBlock (imgOfmt img) = true → scalesDisabled v.mirror w0 128 = false))
include h hp himg hslot hk hss hvalid hreads hmask hred hargmax hblock

/-- A KOUT whose registers, slots and image pass the checks ends as its store and the skew check say. -/
theorem kout_completes {r : State} (hend :
      (let op (ls : List (List Segment)) : TileOp := .kout (fin4 kd) (fin4 seam) (fin8 vr) kz (fin64 slot) ls (v.mirror.disarmedBy img)
       if imgOfmt img = 15 then v.mirror.endKout img (op []) v
       else v.withLines .store (v.baseReg ra) (v.readG rb) 128 (16 * fmtWidth (imgOfmt img))
         (fun t ls => v.mirror.endKout img (op ls) t)) = .done r) :
    Completes (.kout kd seam vr kz ra rb slot 0) s r := by
  have hread : (imgReadsV img).any (fun n => !vEnabled v.mirror.tconf n) = false := by simpa [List.any_eq_false] using hreads
  have hstream := not_missing fun hm => hmask (bne_iff_ne.1 hm)
  have hdst := not_missing fun hr => hred (bne_iff_ne.1 hr)
  have hnext : (imgRed img == 4 && vr != 7 && !vEnabled v.mirror.tconf (vr.toNat + 1)) = false :=
    not_missing fun hr => (hargmax (eq_of_beq (Bool.and_eq_true_iff.1 hr).1)).2
  have hlast : (imgRed img == 4 && vr == 7) = false :=
    Bool.and_eq_false_imp.2 fun hr => beq_eq_false_iff_ne.2 (hargmax (eq_of_beq hr)).1
  have hscales : (m0Block w0 && imgOfmt img != 15 && fmtHasBlock (imgOfmt img) && scalesDisabled v.mirror w0 128) = false := by
    refine Bool.and_eq_false_imp.2 fun hb => ?_
    obtain ⟨⟨hb, hf⟩, hhas⟩ : (m0Block w0 = true ∧ imgOfmt img ≠ 15) ∧ fmtHasBlock (imgOfmt img) = true := by simpa using hb
    exact (hblock hb).2 hf hhas
  have hplace : (m0Block w0 && decide (7 < m0Last w0 128)) = false :=
    Bool.and_eq_false_imp.2 fun hb => decide_eq_false (Nat.not_lt.2 (hblock hb).1)
  subst himg hslot
  refine completes_of_done h rfl ((work_of_checks hp rfl rfl ?_).trans ?_)
  · simp only [hk, hss, hvalid, hread, hstream, hdst, hnext, hlast, hscales, hplace, Bool.not_true, Bool.true_and, Bool.or_self,
      checks_cons_eq_none, checks_nil, and_self]
  · simpa only [Mirror.endKout, Mirror.disarmedBy, Bool.and_eq_true, bne_iff_ne] using hend

end

/-! ### The statement -/

/-- Settles O25: OPA by the source of its scales, OPMAX and OPMIN alike, KOUT without and with the lines of a store. -/
theorem tileComputeDispatch : Obligations.TileComputeDispatch := by
  intro s u v w kd ta tb fa fb rc ra rb vr kz seam slot ls h hp m ctl on op int
  refine ⟨fun hon hw hty hr hsr => ⟨fun hmx hss hba hbb hfa hfb => ?_, fun hmx hbad hv => ?_⟩,
    fun hon hk heven hf hty hty' hr hscale hround => ⟨?_, ?_⟩, fun hk hss hvalid hreads hmask hred hargmax hblock => ?_⟩
  · exact opa_enters h hp hon hw rfl hty hr hsr (fun hx => absurd (hmx.symm.trans hx) Bool.false_ne_true) fun _ => ⟨hss, hba, hbb, hfa, hfb⟩
  · exact opa_enters h hp hon hw rfl hty hr hsr (fun _ => ⟨hbad, hv⟩) fun hx => absurd (hx.symm.trans hmx) Bool.false_ne_true
  · exact opm_enters h hp rfl hon hk heven hf hty hty' hr hscale hround
  · exact opm_enters h hp rfl hon hk heven hf hty hty' hr hscale hround
  · have hend {r : State} := kout_completes (r := r) (kz := kz) (ra := ra) (rb := rb) h hp rfl rfl hk hss hvalid hreads hmask hred hargmax
      hblock
    exact ⟨fun hfmt hskew => hend ((if_pos hfmt).trans (endKout_agreed hskew (queue_place_of_passes hp) _)),
      fun hfmt ht ha hskew hq => hend ((if_neg hfmt).trans ((withLines_of_ok ha ht _).trans (endKout_agreed hskew hq _)))⟩

end Sys2Proof.Machine
end

section
/-! ## STEP, the update of streams, DRAW and QDATA (08 R210, 10 R233, R236, R239) -/

namespace Sys2Proof.Machine

/-! ### STEP at dispatch (10 R239) -/

/-- What every STEP leaves first: STEPCNT and the tally count it, and the journal, where it is on, gives its SEQ and a slot of the ring. -/
def State.stepTaken (s : State) : State :=
  let j := { s.jnl with stepcnt := s.jnl.stepcnt + 1 }
  { s.tallyInc 4 with jnl := if s.jnl.en then j.take else j }

/-- The record of a STEP whose context owns no live tile state: no cursors and no exponents. -/
def State.plainRecord (s : State) : BitVec 512 :=
  journalRecord 0 s.straps.nodeId.toNat s.jnl.ssgrp.toNat s.jnl.seq (s.jnl.stepcnt + 1) s.jnl.dcur 0 (List.replicate 16 0)

/-- The entry that STEP puts into the queue: DCUR and STEPCNT of now, and its SEQ where the journal is on. -/
def State.stepOp (s : State) : TileOp :=
  .stepUpdate s.jnl.dcur (s.jnl.stepcnt + 1) s.jnl.ssgrp (if s.jnl.en then some s.jnl.seq else none)

/-- What STEP leaves: its update in the queue, or its record handed to the journal, or its count alone. -/
def State.stepped (s : State) : State :=
  if s.ownsLive then s.stepTaken.enqueue s.stepOp
  else if s.jnl.en then s.stepTaken.handJournal s.jnl.seq s.plainRecord
  else s.stepTaken

section
variable {s u : State}

theorem stepTaken_of_en (he : s.jnl.en = true) :
    s.stepTaken = { s.tallyInc 4 with jnl := ({ s.jnl with stepcnt := s.jnl.stepcnt + 1 } : Journal).take } := by
  simp [State.stepTaken, he]

theorem stepTaken_of_off (he : s.jnl.en = false) :
    s.stepTaken = { s.tallyInc 4 with jnl := { s.jnl with stepcnt := s.jnl.stepcnt + 1 } } := by
  simp [State.stepTaken, he]

theorem stepTaken_stepcnt (s : State) : s.stepTaken.jnl.stepcnt = s.jnl.stepcnt + 1 := by
  cases he : s.jnl.en
  · rw [stepTaken_of_off he]
  · rw [stepTaken_of_en he]
    rfl

/-- The journal and, for an update of live tile state, the queue having a place, STEP completes. -/
theorem step_completes (h : Issues s u) (hp : u.jnl.pend.length < 8) (hq : u.ownsLive = true → u.tile.queue.length < 16) :
    Completes (.step 0) s u.stepped := by
  have hplace : ¬(8 ≤ u.jnl.pend.length ∨ (u.ownsLive = true ∧ 16 ≤ u.tile.queue.length)) := by
    rintro (hfull | ⟨ho, hfull⟩)
    · omega
    · exact absurd (hq ho) (Nat.not_lt.2 hfull)
  refine completes_of_done h rfl ((guardRsv_true ..).trans ((if_neg hplace).trans ?_))
  by_cases ho : u.ownsLive = true
  · exact (if_pos ho).trans (congrArg IRes.done (if_pos ho)).symm
  · refine (if_neg ho).trans (.trans ?_ (congrArg IRes.done (if_neg ho)).symm)
    cases he : u.jnl.en
    · simp [stepTaken_of_off he]
    · simp [stepTaken_of_en he, State.plainRecord]

/-- A record handed to the slot just taken in an empty list fills it. -/
theorem handJournal_only {t : State} {r : JnlRec} (ht : t.jnl.pend = [r]) (hr : r.data = none) (d : BitVec 512) :
    (t.handJournal r.seq d).jnl.pend = [{ r with data := some d }] := by
  simp [State.handJournal, ht, fillSeq, hr]

/-- STEP without live tile state, the journal on and empty: SEQ advances, and the one record pending is this STEP's, its data there. -/
theorem handJournal_stepTaken (he : s.jnl.en = true) (hp : s.jnl.pend = []) (d : BitVec 512) :
    let r := s.stepTaken.handJournal s.jnl.seq d
    r.jnl.seq = s.jnl.seq + 1 ∧ r.jnl.pend.map (·.seq) = [s.jnl.seq] ∧ r.jnl.pend.all (·.data.isSome) = true := by
  obtain ⟨addr, hrec⟩ : ∃ addr, s.stepTaken.jnl.pend = [{ seq := s.jnl.seq, addr := addr, data := none }] := by
    simp [stepTaken_of_en he, Journal.take, hp]
  refine ⟨?_, ?_⟩
  · rw [stepTaken_of_en he]
    rfl
  · rw [handJournal_only hrec rfl]
    exact ⟨rfl, rfl⟩

/-! ### The start of an entry at the front of the queue (06 R164) -/

/-- With no entry started, the entry at the front starts where nothing blocks it, and takes its effect. -/
theorem startEntry_front {op : TileOp} {q : List TileEntry} (hr : s.tileRuns = true)
    (hq : s.tile.queue = { op := op, started := false } :: q) (hns : ∀ e ∈ q, e.started = false) (hb : s.entryBlocked op = false)
    (f : List StopeFault) :
    s.startEntry f = ({ s with tile := { s.tile with queue := { op := op, started := true } :: q } } : State).execWith op f := by
  have hidle : q.any (fun a => a.started && a.op.blocks op s) = false :=
    List.any_eq_false.2 fun e he => by simp [hns e he]
  simp [State.startEntry, hr, hq, hb, hidle, startFirst]

theorem stepUpdateEntry_yields {d n : Word} {g : BitVec 2} {k : Option Word} {q : List TileEntry} (hr : s.tileRuns = true)
    (hf : s.foldOpen = false) (hq : s.tile.queue = { op := .stepUpdate d n g k, started := false } :: q)
    (hns : ∀ e ∈ q, e.started = false) : Yields .stepUpdateEntry s
      (({ s with tile := { s.tile with queue := { op := .stepUpdate d n g k, started := true } :: q } } : State).execStepEntry d n g k) := by
  have hb : s.entryBlocked (.stepUpdate d n g k) = false := by simp [State.entryBlocked, hr, hf, TileOp.segments]
  refine congrArg (answer s) (Eq.trans ?_ (startEntry_front hr hq hns hb []))
  simp [hq]

/-! ### DRAW and QDATA, after the earlier tile instructions (10 R233, R236) -/

/-- A stream that is not armed, or is armed for this step, is not skewed. -/
theorem not_skewed {q : Bool × Word} (h : q.1 = false ∨ q.2 = s.jnl.dcur) : s.skewed q = false := by
  rcases h with h | h <;> simp [State.skewed, h]

/-- QDATA's gate lets an access to enabled streams go on once the earlier tile instructions are done. -/
theorem qdataGate_of_passes {v : State} (hp : TilePasses u v) (hq : qEnabled v.mirror.tconf = true) (hst : v.tileStuck = false) (w : Word)
    (k : State → IRes) : u.qdataGate w k = k v.drainTile :=
  (work_of_checks (x := w) hp rfl rfl (checks_enabled hq _)).trans (afterTile_free hst k)

section
variable {v : State} (h : Issues s u) (hp : TilePasses u v) (hq : qEnabled v.mirror.tconf = true) (hst : v.tileStuck = false)
include h hp hq hst

theorem draw_completes (rd : RegIx) (q : BitVec 4) :
    let t := v.drainTile
    let x := t.tile.regs.q[fin16 q]
    let r := qDraw (qPut x 2 (qWord x 2 % 2 ^ 63))
    t.tile.regs.qpois.getLsbD q.toNat = false → (qArmed x = false ∨ wd (qTag x) = t.jnl.dcur) →
      Completes (.draw rd q 0) s ((t.setRegs (t.tile.regs.setQ (fin16 q) r.2)).writeG rd (wd (r.1.x1 * 2 ^ 32 + r.1.x0))) := by
  intro t x r hclean hagree
  refine completes_of_done h rfl ((work_of_checks hp rfl rfl (checks_enabled hq _)).trans ((afterTile_free hst _).trans ?_))
  exact (if_neg (ne_true_of_eq_false hclean)).trans (if_neg (ne_true_of_eq_false (not_skewed hagree)))

theorem draw_poisoned (rd : RegIx) (q : BitVec 4) (hpois : v.drainTile.tile.regs.qpois.getLsbD q.toNat = true) :
    Traps (.draw rd q 0) s v.drainTile { cause := 25, eaddr := q.setWidth 64 } :=
  traps_of_exc h rfl ((work_of_checks hp rfl rfl (checks_enabled hq _)).trans ((afterTile_free hst _).trans (if_pos hpois)))

theorem qdataRead_completes (rd : RegIx) : Completes (.qdataRead rd) s (v.drainTile.writeG rd v.drainTile.qdataWord) :=
  completes_of_done h rfl (qdataGate_of_passes hp hq hst ..)

theorem qdataWrite_completes (rd ra : RegIx) : Completes (.qdataWrite rd ra) s
    ((v.drainTile.qdataPut (v.drainTile.readG ra)).writeG rd v.drainTile.qdataWord) :=
  completes_of_done h rfl (qdataGate_of_passes hp hq hst ..)

end

end

/-! ### The statement -/

/-- Settles O27: STEP by what its context owns and whether the journal is on, the update by the start at the queue's front, DRAW and QDATA
by the gate and the drained tile state. -/
theorem stepsAndStreamDraws : Obligations.StepsAndStreamDraws := by
  refine ⟨⟨fun s u h hpend => ⟨fun ho he => ?_, fun ho he hnil => ?_, fun ho hq => ?_⟩,
    fun s q d n g k hon hrun hf hns hq => stepUpdateEntry_yields (by simp [State.tileRuns, hon, hrun]) hf hq hns⟩,
    fun s u v rd ra q h hp hq hst => ⟨draw_completes h hp hq hst rd q, draw_poisoned h hp hq hst rd q,
      qdataRead_completes h hp hq hst rd, qdataWrite_completes h hp hq hst rd ra⟩⟩
  · have hc := step_completes h hpend (by simp [ho])
    rwa [State.stepped, if_neg (ne_true_of_eq_false ho), if_neg (ne_true_of_eq_false he), stepTaken_of_off he] at hc
  · have hc := step_completes h hpend (by simp [ho])
    rw [State.stepped, if_neg (ne_true_of_eq_false ho), if_pos he] at hc
    exact ⟨_, hc, stepTaken_stepcnt u, handJournal_stepTaken he hnil _⟩
  · have hc := step_completes h hpend fun _ => hq
    rw [State.stepped, if_pos ho] at hc
    exact ⟨_, hc, stepTaken_stepcnt u, rfl⟩

end Sys2Proof.Machine
end

section
/-! ## Journal appends and the writes of JNLCFG and TFLAGS (06 R171, 10 R241, Table 10.7) -/

namespace Sys2Proof.Machine

section
variable {s : State} {seq : Word} {addr : Nat} {d : BitVec 512} {rest : List JnlRec}

/-! ### An append (10 R241) -/

/-- The state without its oldest pending record. -/
def State.popJnl (s : State) (rest : List JnlRec) : State := { s with jnl := { s.jnl with pend := rest } }

/-- A record written to the ring and counted, and the post of it where one is configured. -/
def State.appended (s : State) (addr : Nat) (d : BitVec 512) : State :=
  let w := s.logWrite addr d false
  let z : State := { w with jnl := { w.jnl with done := w.jnl.done + 1 } }
  if z.jnl.objEn then z.enginePost (wd (z.straps.nodeId.toNat * 2 ^ 13 + z.jnl.obj.toNat)) 1 else z

/-- How an append ends: reason 1 outside a normal LOG region, reason 2 at the memory port, else written. -/
def State.appendEnd (s : State) (seq : Word) (addr : Nat) (d : BitVec 512) (ok : Bool) : State :=
  if !s.inLog addr then s.failAppend seq 1 else if !ok then s.failAppend seq 2 else s.appended addr d

theorem appendEnd_written (h : s.inLog addr = true) : s.appendEnd seq addr d true = s.appended addr d := by
  simp [State.appendEnd, h]

theorem appendEnd_outside (h : s.inLog addr = false) (ok : Bool) : s.appendEnd seq addr d ok = s.failAppend seq 1 := by
  simp [State.appendEnd, h]

theorem appendEnd_refused (h : s.inLog addr = true) : s.appendEnd seq addr d false = s.failAppend seq 2 := by
  simp [State.appendEnd, h]

/-- APPEND takes the oldest record, its data there, while channel 31 serves the journal. -/
theorem append_eq (hj : s.jnl.jch = true) (hp : s.jnl.pend = { seq := seq, addr := addr, data := some d } :: rest) (ok : Bool) :
    s.append ok = ((s.popJnl rest).appendEnd seq addr d ok).settleJch := by
  unfold State.append
  rw [hp]
  exact if_neg (by simp [hj])

theorem append_yields {t : State} (hj : s.jnl.jch = true) (hp : s.jnl.pend = { seq := seq, addr := addr, data := some d } :: rest)
    {ok : Bool} (ht : (s.popJnl rest).appendEnd seq addr d ok = t) : Yields (.append ok) s t.settleJch :=
  congrArg (answer s) ((append_eq hj hp ok).trans (congrArg State.settleJch ht))

end

/-! ### JNLCFG and TFLAGS (Table 10.7, 06 R171) -/

/-- The hand-over of channel 31 changes nothing of the journal but JCH. -/
theorem settleJch_jnl (s : State) : ∃ b, s.settleJch.jnl = { s.jnl with jch := b } := by
  unfold State.settleJch
  dsimp only
  split
  · split
    · exact ⟨_, rfl⟩
    · exact ⟨s.jnl.jch, rfl⟩
  · exact ⟨_, rfl⟩

/-- LOG2LEN's field of a word written to JNLCFG. -/
theorem log2lenField_toNat (v : Word) : (v.extractLsb' 5 5).toNat = v.toNat / 32 % 32 := by
  simp [BitVec.extractLsb'_toNat, Nat.shiftRight_eq_div_pow]

theorem writeJnlcfg_fields (s : State) (v : Word) :
    (s.writeJnlcfg v).jnl.en = v.getLsbD 0 ∧ (s.writeJnlcfg v).jnl.ssgrp = v.extractLsb' 1 2
      ∧ (s.writeJnlcfg v).jnl.log2len =
        (if 6 ≤ v.toNat / 32 % 32 ∧ v.toNat / 32 % 32 ≤ 26 then v.extractLsb' 5 5 else s.jnl.log2len) := by
  unfold State.writeJnlcfg
  obtain ⟨b, hb⟩ := settleJch_jnl _
  rw [hb, ← log2lenField_toNat]
  exact ⟨rfl, rfl, rfl⟩

theorem clearTflags_free {s : State} (h : s.tileStuck = false) (v : Word) :
    (s.clearTflags v).tile.regs.tflags = s.drainTile.tile.regs.tflags &&& ~~~(v.setWidth 6) := by
  unfold State.clearTflags
  rw [if_neg (ne_true_of_eq_false h)]
  rfl

theorem clearTflags_stuck {s : State} (h : s.tileStuck = true) (v : Word) : s.clearTflags v = s := if_pos h

/-! ### The statement -/

/-- Settles O28: an append by its three ways to end, JNLCFG's fields across the hand-over of channel 31, and TFLAGS by whether an earlier
tile instruction is stuck. -/
theorem journalAppends : Obligations.JournalAppends := by
  exact ⟨fun s seq addr d rest hj hp => ⟨fun hlog => append_yields hj hp (appendEnd_written hlog),
      fun hlog ok => append_yields hj hp (appendEnd_outside hlog ok), fun hlog => append_yields hj hp (appendEnd_refused hlog)⟩,
    fun s v => ⟨_, rfl, writeJnlcfg_fields s v⟩,
    fun s v => ⟨fun h => ⟨_, rfl, clearTflags_free h v⟩, fun h => congrArg (answer s) (clearTflags_stuck h v)⟩⟩

end Sys2Proof.Machine
end

section
/-! ## The assay's checks (11 R248, R249, R252, R253, Table 11.9) -/

namespace Sys2Proof.Machine

/-! ### The elements that differ (11 R248) -/

theorem differing_of_eq {p : Check} (h : p.got = p.ref) : p.differing = [] := by
  simp [Check.differing, h]

theorem mem_differing {p : Check} {e : Nat} (he : e < 256) (h : (p.ref[e]?).getD 0 ≠ (p.got[e]?).getD 0) :
    BitVec.ofNat 8 e ∈ p.differing :=
  List.mem_map_of_mem (List.mem_filter.2 ⟨List.mem_range.2 he, bne_iff_ne.2 h⟩)

/-! ### What a check does with its sample -/

section
variable {s : State} {p : Check} {q : List Check}

/-- The oldest sample taken, the rest given, and counted. -/
def State.sampleTaken (s : State) (q : List Check) : State :=
  ({ s with assay := { s.assay with pend := q, samples := s.assay.samples + 1 } } : State).tallyInc 0x38

theorem finishCheck_idle (h : s.assay.pend = []) (f : List (BitVec 8 × BitVec 32)) : s.finishCheck f = s := by
  simp only [State.finishCheck, h]

/-- Outside the window of a calibration step, a check takes the oldest sample, and it is a mismatch where an element differs. -/
theorem finishCheck_eq (hp : s.assay.pend = p :: q) (hw : s.windowOpen = false) (f : List (BitVec 8 × BitVec 32)) :
    s.finishCheck f = if (p.misread f).differing.isEmpty then s.sampleTaken q
      else (s.sampleTaken q).mismatch (p.misread f) (p.misread f).differing := by
  have hw' : (s.sampleTaken q).windowOpen = false := hw
  unfold State.sampleTaken at hw' ⊢
  simp only [State.finishCheck, hp, hw', Bool.false_eq_true, if_false]

theorem finishCheck_agreeing (hp : s.assay.pend = p :: q) (hw : s.windowOpen = false) {f : List (BitVec 8 × BitVec 32)}
    (h : p.got = (p.misread f).ref) : s.finishCheck f = s.sampleTaken q := by
  rw [finishCheck_eq hp hw, differing_of_eq (p := p.misread f) h, List.isEmpty_nil, if_pos rfl]

theorem finishCheck_differing (hp : s.assay.pend = p :: q) (hw : s.windowOpen = false) {f : List (BitVec 8 × BitVec 32)} {e : Nat}
    (he : e < 256) (h : ((p.misread f).ref[e]?).getD 0 ≠ (p.got[e]?).getD 0) :
    s.finishCheck f = (s.sampleTaken q).mismatch (p.misread f) (p.misread f).differing := by
  have hne : (p.misread f).differing.isEmpty = false := List.isEmpty_eq_false_iff.2 (List.ne_nil_of_mem (mem_differing he h))
  rw [finishCheck_eq hp hw, hne, if_neg Bool.false_ne_true]

end

/-! ### A mismatch where firmware does not run (11 R249) -/

section
variable {s : State}

theorem setEvent_assay (s : State) (n : Nat) : (s.setEvent n).assay = s.assay := by
  unfold State.setEvent
  split <;> rfl

theorem setEvent_dep (s : State) (n : Nat) : (s.setEvent n).dep = s.dep := by
  unfold State.setEvent
  split <;> rfl

theorem setEvent_res (s : State) (n : Nat) : (s.setEvent n).res = s.res := by
  unfold State.setEvent
  split <;> rfl

theorem raiseVector_pending (s : State) {n : Nat} (hn : n < 16) : (s.raiseVector n).dep.ipend.getLsbD n = true := by
  simp [State.raiseVector, hn]

theorem stepMismatch_idle (ho : s.assay.stepOpen = false) (hf : s.firmware = false) (hn : s.res.fills[0].openFill = none) :
    s.stepMismatch = s := by
  simp [State.stepMismatch, State.marginOn, State.marginStep, ho, hf, hn]

theorem countColumn_idle (hf : s.firmware = false) (p : Check) (l : List (BitVec 8)) : s.countColumn p l = s := by
  simp [State.countColumn, hf]

/-- The capture leaves all but ASMISM's fields, and takes the sample where it held none. -/
theorem captureMismatch_assay (s : State) (p : Check) (l : List (BitVec 8)) :
    let a := (s.captureMismatch p l).assay
    a.pend = s.assay.pend ∧ a.samples = s.assay.samples ∧ a.mismatch = s.assay.mismatch ∧ a.stepOpen = s.assay.stepOpen
      ∧ a.misValid = true ∧ (s.assay.misValid = false → a.misSample = p.sample) := by
  unfold State.captureMismatch
  cases hv : s.assay.misValid <;> simp [hv]

variable (p : Check) (l : List (BitVec 8))

/-- The sample is counted as a mismatch and the capture made, or the sample counted as missed. -/
def State.mismatchCaptured (s : State) (p : Check) (l : List (BitVec 8)) : State :=
  (({ s with assay := { s.assay with mismatch := s.assay.mismatch + 1 } } : State).tallyInc 0x39).captureMismatch p l

/-- What R249 says of a mismatch before firmware's part: counted, captured, EV44 and deputy vector 10. -/
def State.mismatchNoted (s : State) (p : Check) (l : List (BitVec 8)) : State := ((s.mismatchCaptured p l).setEvent 44).raiseVector 10

theorem mismatchNoted_assay : (s.mismatchNoted p l).assay = (s.mismatchCaptured p l).assay := setEvent_assay _ _

theorem mismatchCaptured_assay :
    let a := (s.mismatchCaptured p l).assay
    a.pend = s.assay.pend ∧ a.samples = s.assay.samples ∧ a.mismatch = s.assay.mismatch + 1 ∧ a.stepOpen = s.assay.stepOpen
      ∧ a.misValid = true ∧ (s.assay.misValid = false → a.misSample = p.sample) :=
  captureMismatch_assay _ p l

theorem mismatchNoted_firmware : (s.mismatchNoted p l).firmware = s.firmware := by
  unfold State.mismatchNoted State.firmware State.raiseVector
  rw [setEvent_dep]
  rfl

theorem mismatchNoted_fills : (s.mismatchNoted p l).res.fills = s.res.fills :=
  (congrArg Resil.fills (setEvent_res (s.mismatchCaptured p l) 44)).trans rfl

theorem mismatchNoted_event (h : s.pwr.latching = false) : (s.mismatchNoted p l).bm.evpend.getLsbD 44 = true :=
  setEvent_pending (s := s.mismatchCaptured p l) h (by decide)

theorem mismatchNoted_vector : (s.mismatchNoted p l).dep.ipend.getLsbD 10 = true := raiseVector_pending _ (by decide)

/-- With no step open, no stope fill open and no firmware, a mismatch is noted and nothing more. -/
theorem mismatch_idle (ho : s.assay.stepOpen = false) (hf : s.firmware = false) (hn : s.res.fills[0].openFill = none) :
    s.mismatch p l = s.mismatchNoted p l := by
  obtain ⟨-, -, -, hopen, -⟩ := mismatchCaptured_assay (s := s) p l
  have ho' : (s.mismatchNoted p l).assay.stepOpen = false := by rw [mismatchNoted_assay, hopen, ho]
  have hf' : (s.mismatchNoted p l).firmware = false := (mismatchNoted_firmware p l).trans hf
  have hn' : (s.mismatchNoted p l).res.fills[0].openFill = none := by rw [mismatchNoted_fills, hn]
  show (s.mismatchNoted p l).stepMismatch.countColumn p l = _
  rw [stepMismatch_idle ho' hf' hn', countColumn_idle hf']

end

/-! ### The wide check (11 R252, R253) -/

section
variable {s : State}

/-- The sample counted: ASCNT1.WIDE, its bucket in its tag's histogram and in the tally's. -/
def State.wideCounted (s : State) (p : WideSample) : State :=
  let k := 32 * p.ltag.toNat + p.bucket.toNat
  let h := 32 * 5 + p.bucket.toNat
  { s with
    assay := { s.assay with widePend := none, wides := s.assay.wides + 1, hist := smSet 0 k (satInc (smGet 0 k s.assay.hist)) s.assay.hist }
    res := { s.res with hist := smSet 0#64 h (satInc (smGet 0#64 h s.res.hist)) s.res.hist } }

theorem finishWide_idle (h : s.assay.widePend = none) : s.finishWide = s := by
  simp only [State.finishWide, h]

theorem finishWide_eq {p : WideSample} (h : s.assay.widePend = some p) : s.finishWide =
    if s.assay.albkt ≤ p.bucket then (((s.wideCounted p).tallyInc 0x3A).captureAlarm p).setEvent 44 else s.wideCounted p := by
  simp only [State.finishWide, h]
  rfl

/-- The capture of an alarm leaves the counters, and holds an alarm. -/
theorem captureAlarm_assay (s : State) (p : WideSample) :
    let a := (s.captureAlarm p).assay
    a.widePend = s.assay.widePend ∧ a.wides = s.assay.wides ∧ a.hist = s.assay.hist ∧ a.alValid = true := by
  unfold State.captureAlarm
  cases hv : s.assay.alValid <;> simp [hv]

theorem finishWide_assay {p : WideSample} (h : s.assay.widePend = some p) :
    let a := s.finishWide.assay
    let b := (s.wideCounted p).assay
    a.widePend = none ∧ a.wides = s.assay.wides + 1 ∧ a.hist = b.hist
      ∧ (s.assay.albkt ≤ p.bucket → a.alValid = true) ∧ (p.bucket < s.assay.albkt → a.alValid = s.assay.alValid) := by
  rw [finishWide_eq h]
  by_cases hb : s.assay.albkt ≤ p.bucket
  · rw [if_pos hb, setEvent_assay]
    obtain ⟨hpend, hwides, hhist, hval⟩ := captureAlarm_assay ((s.wideCounted p).tallyInc 0x3A) p
    exact ⟨hpend, hwides, hhist, fun _ => hval, fun hlt => absurd hb (BitVec.not_le.2 hlt)⟩
  · rw [if_neg hb]
    exact ⟨rfl, rfl, rfl, fun hle => absurd hle hb, fun _ => rfl⟩

end

/-! ### CLR (Table 11.9) -/

theorem smGet_filter_of_keep {α : Type} (d : α) (p : Nat → Bool) {k : Nat} (hk : p k = true) (l : List (Nat × α)) :
    smGet d k (l.filter fun c => p c.1) = smGet d k l := by
  induction l with
  | nil => rfl
  | cons c t ih =>
    obtain ⟨j, v⟩ := c
    cases hj : p j with
    | true => simp only [List.filter_cons, hj, if_true, smGet, ih]
    | false =>
      have hne : k ≠ j := fun e => Bool.false_ne_true (hj.symm.trans (e ▸ hk))
      simp only [List.filter_cons, hj, Bool.false_eq_true, if_false, smGet, if_neg hne, ih]

theorem clearTag_hist (s : State) (k : Nat) :
    smGet 0 k s.clearTag.assay.hist = if k / 32 = s.assay.selTag.toNat then 0 else smGet 0 k s.assay.hist := by
  split
  next h => exact smGet_filter_of_not 0 (fun j => j / 32 != s.assay.selTag.toNat) (by simp [h]) _
  next h => exact smGet_filter_of_keep 0 (fun j => j / 32 != s.assay.selTag.toNat) (by simp [h]) _

/-! ### The statement -/

/-- Settles O43: the same-format check by whether an element differs, the wide check by its bucket against ALBKT, and CLR by the tag of each
counter. -/
theorem assayChecks : Obligations.AssayChecks := by
  intro s
  refine ⟨fun f h => congrArg (answer s) (finishCheck_idle h f), fun f p q hp hw h => congrArg (answer s) (finishCheck_agreeing hp hw h),
    fun f p q e hp he h hlat hf ho hn => ?_, fun h => congrArg (answer s) (finishWide_idle h), fun p hp hwf => ?_,
    ⟨_, rfl, clearTag_hist s⟩⟩
  · have hw : s.windowOpen = false := by simp [State.windowOpen, ho]
    have hm := (finishCheck_differing hp hw he h).trans (mismatch_idle _ _ ho hf hn)
    refine ⟨_, congrArg (answer s) hm, ?_⟩
    obtain ⟨hpend, hsamples, hmis, -, hval, hsample⟩ :=
      mismatchCaptured_assay (s := s.sampleTaken q) (p.misread f) (p.misread f).differing
    rw [hardwire_assay, mismatchNoted_assay, hardwire_evpend _ _ (by decide)]
    exact ⟨hpend, hsamples, hmis, hval, hsample, mismatchNoted_event _ _ hlat, mismatchNoted_vector _ _⟩
  · obtain ⟨hpend, hwides, hhist, hal⟩ := finishWide_assay hp
    exact ⟨_, rfl, hpend, hwides, (congrArg (smGet 0 _) hhist).trans (smGet_smSet_self _ _ hwf), hal⟩

end Sys2Proof.Machine
end

section
/-! ## Calibration steps and the tuning of channels (11 R254, R257, R258) -/

namespace Sys2Proof.Machine

/-! ### A period of CALPER (11 R254) -/

section
variable {s : State}

theorem calPeriod_barred (h : s.firmware = false ∨ s.calEnabled = false ∨ s.assay.stepOpen = true) : s.calPeriod = s :=
  if_pos (by rcases h with h | h | h <;> simp [h])

/-- The knob not tried last is the one of this period. -/
def State.otherKnob (s : State) : State := { s with assay := { s.assay with lastKnob := !s.assay.lastKnob } }

section
variable (hf : s.firmware = true) (hc : s.calEnabled = true) (ho : s.assay.stepOpen = false)
include hf hc ho

theorem calPeriod_held (hh : s.assay.holdoff ≠ 0) :
    s.calPeriod = { s with assay := { s.assay with holdoff := s.assay.holdoff - 1 } } := by
  simp [State.calPeriod, hf, hc, ho, hh]

/-- The other knob moves one step where it can, and the step is open. -/
theorem calPeriod_opens {trim : Bool} (hh : s.assay.holdoff = 0) (hb : s.stopeFillBusy = false) (hk : (!s.assay.lastKnob) = trim)
    (hm : s.canLess trim = true) : s.calPeriod = s.otherKnob.openStep trim := by
  subst hk
  unfold State.calPeriod
  rw [if_neg (by simp [hf, hc, ho]), if_neg (by simp [hh]), if_neg (by simp [hb])]
  exact if_pos hm

end

/-- VID_OK falls with a change of VID_REQ (17 R375). -/
theorem setPoint_vidOk {vid : BitVec 16} (h : vid ≠ s.assay.vid) (trim : BitVec 8) : (s.setPoint vid trim).pwr.vidOk = false := by
  simp [State.setPoint, h]

/-- A step on the voltage lowers VID_REQ by one, and VID_OK falls. -/
theorem openStep_voltage (s : State) : (s.openStep false).assay = { s.assay with
      vid := s.assay.vid - 1, stepOpen := true, knob := false, steps := s.assay.steps + 1, window := 0, stepFail := none }
    ∧ (s.openStep false).pwr.vidOk = false := by
  have hv : s.assay.vid - 1 ≠ s.assay.vid := by bv_omega
  exact ⟨rfl, setPoint_vidOk hv s.assay.trim⟩

/-- A step on the trim raises it by one. -/
theorem openStep_trim (s : State) : (s.openStep true).assay = { s.assay with
    trim := s.assay.trim + 1, stepOpen := true, knob := true, steps := s.assay.steps + 1, window := 0, stepFail := none } := rfl

/-! ### The close of a step (11 R254) -/

/-- A step closed after a window without a mismatch: its point is the last good one. -/
theorem closeStep_passed (h : s.assay.stepFail = none) : s.closeStep = ({ s with assay := { s.assay with
    goodVid := s.assay.vid, goodTrim := s.assay.trim, stepOpen := false, stepFail := none } } : State).histAdd 4 (s.param 0x5000 2) := by
  simp only [State.closeStep, h]

end

/-! ### Tuning (11 R257) -/

section
variable {s : State} {h : Fin 32}

/-- Counting shadow samples changes their channel's counts, and of the deputy at most IPEND. -/
theorem countShadows_eq (s : State) (h : Fin 32) (l : List (Bool × Bool)) : ∃ p : BitVec 16, s.countShadows h l = { s with
    win := { s.win with d2dcnt := s.win.d2dcnt.set h (l.foldl shadowCount s.win.d2dcnt[h]) }
    dep := { s.dep with ipend := p } } := by
  unfold State.countShadows
  dsimp only
  split
  · exact ⟨_, rfl⟩
  · exact ⟨s.dep.ipend, rfl⟩

/-- What the tuning reads besides the counts is as it was. -/
theorem countShadows_keeps (s : State) (h : Fin 32) (l : List (Bool × Bool)) :
    let t := s.countShadows h l
    t.firmware = s.firmware ∧ t.calEnabled = s.calEnabled ∧ t.tuningHeld h = s.tuningHeld h ∧ t.assay = s.assay := by
  obtain ⟨p, e⟩ := countShadows_eq s h l
  rw [e]
  exact ⟨rfl, rfl, rfl, rfl⟩

theorem countShadows_counts (s : State) (h : Fin 32) (l : List (Bool × Bool)) :
    (s.countShadows h l).win.d2dcnt = s.win.d2dcnt.set h (l.foldl shadowCount s.win.d2dcnt[h]) := by
  obtain ⟨p, e⟩ := countShadows_eq s h l
  rw [e]

theorem countShadows_count (s : State) (h : Fin 32) (l : List (Bool × Bool)) :
    (s.countShadows h l).win.d2dcnt[h] = l.foldl shadowCount s.win.d2dcnt[h] := by
  rw [countShadows_counts]
  exact Vector.getElem_set_self h.isLt

theorem countShadows_nil (s : State) (h : Fin 32) : s.countShadows h [] = s := by
  have hn : ¬(4096 ≤ s.win.d2dcnt[h].2.2.toNat ∧ s.win.d2dcnt[h].2.2.toNat < 4096) := fun hx => absurd hx.2 (Nat.not_lt.2 hx.1)
  refine (if_neg hn).trans ?_
  show ({ s with win := { s.win with d2dcnt := s.win.d2dcnt.set h s.win.d2dcnt[h.val] } } : State) = s
  rw [Vector.set_getElem_self]

theorem tune_barred (hb : s.firmware = false ∨ s.calEnabled = false ∨ s.tuningHeld h = true ∨ s.win.d2dcnt[h].2.2.toNat < 4096) :
    s.tune h = s :=
  if_pos (by rcases hb with hb | hb | hb | hb <;> simp only [hb, Bool.not_false, Bool.true_or, Bool.or_true, decide_true])

/-- The delay code one later where early fails exceed late ones by more than 16, one earlier where late exceed early, within 0 to 31. -/
def tunedCode (early late : BitVec 16) (code : BitVec 8) : BitVec 8 :=
  if late.toNat + 16 < early.toNat ∧ code.toNat < 31 then code + 1
  else if early.toNat + 16 < late.toNat ∧ code ≠ 0 then code - 1 else code

/-- The model's nested choice: at most one of the counts exceeds the other, so a code at its limit stays. -/
theorem tunedCode_eq (early late : BitVec 16) (code : BitVec 8) : tunedCode early late code =
    if late.toNat + 16 < early.toNat then (if code.toNat < 31 then code + 1 else code)
    else if early.toNat + 16 < late.toNat then (if code = 0 then code else code - 1) else code := by
  unfold tunedCode
  by_cases h1 : late.toNat + 16 < early.toNat
  · have h2 : ¬ early.toNat + 16 < late.toNat := by omega
    simp [h1, h2]
  · by_cases h2 : early.toNat + 16 < late.toNat <;> simp [h1, h2]

theorem tune_due (hf : s.firmware = true) (hc : s.calEnabled = true) (hh : s.tuningHeld h = false) (hn : 4096 ≤ s.win.d2dcnt[h].2.2.toNat) :
    (s.tune h).win.d2dcnt = s.win.d2dcnt.set h (0, 0, 0)
      ∧ (s.tune h).assay.delay
        = s.assay.delay.set h (tunedCode s.win.d2dcnt[h].1 s.win.d2dcnt[h].2.1 s.assay.delay[h]) := by
  have hgo : ¬(!s.firmware || !s.calEnabled || s.tuningHeld h || decide (s.win.d2dcnt[h].2.2.toNat < 4096)) = true := by
    simp only [hf, hc, hh, decide_eq_false (Nat.not_lt.2 hn), Bool.not_true, Bool.or_false, Bool.false_eq_true, not_false_eq_true]
  unfold State.tune
  dsimp only
  rw [if_neg hgo, ← tunedCode_eq]
  split
  next he =>
    rw [he]
    exact ⟨rfl, (Vector.set_getElem_self h.isLt).symm⟩
  next => exact ⟨rfl, rfl⟩

end

/-! ### The statement -/

/-- Settles O44: a period by what bars or holds off a step, the close by its window, and the tuning by the counts with the command's own
samples among them. -/
theorem calibration : Obligations.Calibration := by
  intro s ch early late
  refine ⟨fun h => congrArg (answer s) (calPeriod_barred h), fun hf hc ho => ⟨fun hh => congrArg (answer s) (calPeriod_held hf hc ho hh),
      fun hh hb hk hm => ?_, fun hh hb hk hm => ?_⟩,
    fun hf ho hs hw => ?_, fun h => congrArg (answer s) (if_neg (ne_true_of_eq_false h)), ?_⟩
  · have he := calPeriod_opens (trim := false) hf hc ho hh hb (congrArg not hk) hm
    obtain ⟨hassay, hok⟩ := openStep_voltage s.otherKnob
    refine ⟨_, congrArg (answer s) he, ?_⟩
    rw [hardwire_assay, hassay]
    exact ⟨rfl, rfl, rfl, rfl, hok, congrArg not hk⟩
  · have he := calPeriod_opens (trim := true) hf hc ho hh hb (congrArg not hk) hm
    refine ⟨_, congrArg (answer s) he, ?_⟩
    rw [hardwire_assay, openStep_trim]
    exact ⟨rfl, rfl, rfl, rfl⟩
  · have hclose : (s.firmware && s.assay.stepOpen && s.windowDone) = true := by rw [hf, ho, hw]; rfl
    exact ⟨_, congrArg (answer s) ((if_pos hclose).trans (closeStep_passed hs)), rfl, rfl, rfl, rfl⟩
  · intro h x code
    obtain ⟨hfw, hcal, hheld, hassay⟩ := countShadows_keeps s h (early.zip late)
    have hcount := countShadows_count s h (early.zip late)
    refine ⟨fun hb => congrArg (answer s) (tune_barred (by rwa [hfw, hcal, hheld, hcount])), countShadows_nil s h,
      fun hf hc hh hn => ⟨_, rfl, ?_⟩⟩
    obtain ⟨hcleared, hcode⟩ := tune_due (hfw.trans hf) (hcal.trans hc) (hheld.trans hh) (hcount.symm ▸ hn)
    rw [countShadows_counts, Vector.set_set] at hcleared
    rw [hcount, hassay] at hcode
    exact ⟨hcleared, hcode⟩

end Sys2Proof.Machine
end

section
/-! SUPPORT. What haulage's work on memory, translation, the fabric and the copy engine leaves unchanged, and how a migration opens
(12 R265 to R269). -/

namespace Sys2Proof.Machine

/-! ### Operations on memory and translation -/

/-- Nothing but memory, translation and the tile store's notes differs. -/
def MapOnly (s t : State) : Prop := ∃ m x ts, t = { s with mem := m, xl := x, ts := ts }

theorem MapOnly.refl (s : State) : MapOnly s s := ⟨_, _, _, rfl⟩

theorem MapOnly.trans {s t u : State} (h : MapOnly s t) (k : MapOnly t u) : MapOnly s u := by
  obtain ⟨_, _, _, rfl⟩ := h
  obtain ⟨_, _, _, rfl⟩ := k
  exact ⟨_, _, _, rfl⟩

section
variable {s : State}

/-- A write of the copy engine that carries no poison. -/
theorem ceWrite_mapOnly (s : State) (sec : Bool) (pa n v : Nat) : MapOnly s (s.ceWrite sec pa n v false) := by
  unfold State.ceWrite
  split
  · exact ⟨_, _, _, rfl⟩
  · exact ⟨_, _, _, rfl⟩

theorem editEntry_mapOnly (s : State) (a : Nat) (f : Nat → Nat) : MapOnly s (s.editEntry a f) := ceWrite_mapOnly ..

/-- An entry's edit in memory depends on nothing of haulage or of the deputy's window. -/
theorem editEntry_mem_frame (s : State) (h : Haulage) (w : Window) (a : Nat) (f : Nat → Nat) :
    (({ s with hl := h, win := w } : State).editEntry a f).mem = (s.editEntry a f).mem := by
  unfold State.editEntry State.ceWrite
  rw [show State.unbacked { s with hl := h, win := w } a = s.unbacked a from rfl]
  cases s.unbacked a <;> rfl

theorem cleanPage_mapOnly (s : State) (page : Nat) : MapOnly s (s.cleanPage page) := ⟨_, _, _, rfl⟩

theorem invPage_mapOnly (s : State) (page : Nat) : MapOnly s (s.invPage page) := by
  unfold State.invPage
  split
  · exact .refl s
  · exact ⟨_, _, _, rfl⟩

/-- The records retried are translation's alone. -/
theorem retryPage_eq (s : State) (page : BitVec 33) : ∃ x, s.retryPage page = { s with xl := x } := by
  unfold State.retryPage
  refine List.foldlRecOn (motive := fun t => ∃ x, t = { s with xl := x }) _ _ ⟨s.xl, rfl⟩ ?_
  rintro _ ⟨x, rfl⟩ i -
  unfold State.retryHeld
  split
  · split <;> exact ⟨_, rfl⟩
  · exact ⟨_, rfl⟩

/-- With an empty tile queue, performing every earlier access empties the store buffer. -/
theorem performAll_idle (h : s.tile.queue = []) : s.performAll = s.drainStores := by
  have hq : s.drainStores.tile.queue = [] := h
  simp only [State.performAll, State.tileStuck, State.drainTile, hq, List.any_nil, Bool.false_eq_true, if_false]

theorem s2inv_idle (h : s.tile.queue = []) (page : Option (BitVec 33)) : ∃ x, s.s2inv page = { s with mem := s.mem.drain, xl := x } := by
  unfold State.s2inv
  rw [performAll_idle h]
  exact ⟨_, rfl⟩

theorem s2inv_mapOnly (h : s.tile.queue = []) (page : Option (BitVec 33)) : MapOnly s (s.s2inv page) := by
  obtain ⟨x, e⟩ := s2inv_idle h page
  rw [e]
  exact ⟨_, _, _, rfl⟩

/-- An entry is edited, and its page invalidated on this core. -/
theorem editEntry_s2inv_idle (h : s.tile.queue = []) (a : Nat) (f : Nat → Nat) (page : Option (BitVec 33)) :
    MapOnly s ((s.editEntry a f).s2inv page) ∧ ((s.editEntry a f).s2inv page).mem = (s.editEntry a f).mem.drain := by
  have he := editEntry_mapOnly s a f
  have hq : (s.editEntry a f).tile.queue = [] := by
    obtain ⟨m, x, ts, e⟩ := he
    rw [e]
    exact h
  refine ⟨he.trans (s2inv_mapOnly hq page), ?_⟩
  obtain ⟨x, e⟩ := s2inv_idle hq page
  rw [e]

theorem editEntry_performAll_mem (h : s.tile.queue = []) (a : Nat) (f : Nat → Nat) :
    (s.editEntry a f).performAll.mem = (s.editEntry a f).mem.drain := by
  obtain ⟨m, x, ts, e⟩ := editEntry_mapOnly s a f
  rw [e]
  exact congrArg State.mem (performAll_idle (s := { s with mem := m, xl := x, ts := ts }) h)

/-! ### Doorbells sent -/

/-- The fabric of a state after a doorbell from it. -/
def doorFab (s : State) (payload : BitVec 128) (f : Fabric) (node : BitVec 24) : Fabric :=
  (({ s with fab := f } : State).sendDoorbell node payload).fab

/-- Doorbells to several nodes change the fabric alone. -/
theorem foldl_sendDoorbell (s : State) (l : List (BitVec 24)) (w : BitVec 24 → BitVec 128) :
    l.foldl (fun t n => t.sendDoorbell n (w t.straps.nodeId)) s = { s with fab := l.foldl (doorFab s (w s.straps.nodeId)) s.fab } := by
  induction l generalizing s with
  | nil => rfl
  | cons n l ih => exact ih _

/-- A page invalidated here and at every member, by MIGID of the next migration. -/
theorem invalidateAll_idle (h : s.tile.queue = []) (page : BitVec 33) : ∃ x, s.invalidateAll page = { s with
    mem := s.mem.drain, xl := x, hl := { s.hl with nextMig := s.freshMig + 1 }
    fab := s.hl.members.foldl
      (doorFab s (doorWord 4 0 s.freshMig.toNat 0 0 page.toNat s.straps.nodeId.toNat 0)) s.fab } := by
  obtain ⟨x, e⟩ := s2inv_idle (s := { s with hl := { s.hl with nextMig := s.freshMig + 1 } }) h (some page)
  refine ⟨x, ?_⟩
  unfold State.invalidateAll
  dsimp only
  rw [e, foldl_sendDoorbell _ _ (fun node => doorWord 4 0 s.freshMig.toNat 0 0 page.toNat node.toNat 0)]
  rfl

theorem tellMembers_none (h : s.hl.members = []) (op : Nat) (m : Migration) : s.tellMembers op m = s := by
  unfold State.tellMembers
  rw [h]
  rfl

/-! ### Notices and results (12 R272) -/

/-- HLNOTE once a notice is captured, or counted as missed. -/
def Haulage.noticed (h : Haulage) (page : BitVec 33) (reason : Nat) : Haulage :=
  if h.noteValid then { h with noteMissed := satInc h.noteMissed }
  else { h with noteValid := true, noteSeq := h.noteSeq + 1, notePage := page, noteReason := BitVec.ofNat 3 reason, noteMissed := 0 }

/-- An event changes the banksman or the wake latch. -/
theorem setEvent_eq (s : State) (n : Nat) : ∃ b p, s.setEvent n = { s with bm := b, pwr := p } := by
  unfold State.setEvent
  split <;> exact ⟨_, _, rfl⟩

theorem notice_eq (s : State) (page : BitVec 33) (reason : Nat) :
    ∃ b p, s.notice page reason = { s with hl := s.hl.noticed page reason, bm := b, pwr := p } := by
  obtain ⟨b, p, e⟩ := setEvent_eq { s with hl := s.hl.noticed page reason } 46
  exact ⟨b, p, e⟩

/-- HLRES with the result of a request. -/
def Haulage.resulted (h : Haulage) (outcome done : Nat) : Haulage :=
  { h with resValid := true, resSeq := h.resSeq + 1, resOutcome := BitVec.ofNat 3 outcome, resDone := BitVec.ofNat 9 done }

theorem hlResult_eq (s : State) (outcome done : Nat) :
    ∃ b p, s.hlResult outcome done = { s with hl := s.hl.resulted outcome done, bm := b, pwr := p } := by
  obtain ⟨b, p, e⟩ := setEvent_eq { s with hl := s.hl.resulted outcome done } 46
  exact ⟨b, p, e⟩

theorem hlResult_event (h : s.pwr.latching = false) (outcome done : Nat) : (s.hlResult outcome done).bm.evpend.getLsbD 46 = true :=
  setEvent_pending (s := { s with hl := s.hl.resulted outcome done }) h (by decide)

end

/-! ### The copy engine's start leaves haulage as it is (14 Table 14.9) -/

/-- Haulage and the copy engine's registers are as they were. -/
def SameHaulage (s t : State) : Prop := t.hl = s.hl ∧ t.ce = s.ce

theorem SameHaulage.trans {s t u : State} (h : SameHaulage s t) (k : SameHaulage t u) : SameHaulage s u :=
  ⟨k.1.trans h.1, k.2.trans h.2⟩

section
variable {s : State}

theorem countShadows_sameHaulage (s : State) (h : Fin 32) (l : List (Bool × Bool)) : SameHaulage s (s.countShadows h l) := by
  obtain ⟨_, e⟩ := countShadows_eq s h l
  rw [e]
  exact ⟨rfl, rfl⟩

theorem storeRead_sameHaulage (s : State) (pa : Nat) : SameHaulage s (s.storeRead pa) := by
  unfold State.storeRead
  dsimp only
  split
  · exact ⟨rfl, rfl⟩
  · exact countShadows_sameHaulage ..

theorem portRead_sameHaulage (s : State) (src : BitVec 3) (sec : Bool) (ty : MemType) (pa n : Nat) :
    SameHaulage s (s.portRead src sec ty pa n) := by
  unfold State.portRead
  dsimp only
  split
  · split
    · exact ⟨rfl, rfl⟩
    · exact storeRead_sameHaulage s pa
  · split
    · exact ⟨rfl, rfl⟩
    · exact ⟨rfl, rfl⟩
    all_goals
      split
      · exact ⟨rfl, rfl⟩
      · split
        · exact storeRead_sameHaulage s pa
        · exact ⟨rfl, rfl⟩

theorem ceRead_sameHaulage (s : State) (sec : Bool) (pa n : Nat) : SameHaulage s (s.ceRead sec pa n).1 := by
  unfold State.ceRead
  split
  · exact ⟨rfl, rfl⟩
  · exact portRead_sameHaulage ..

theorem ceGather_sameHaulage (s : State) (sec : Bool) (pa n : Nat) : SameHaulage s (s.ceGather sec pa n).1 := by
  unfold State.ceGather
  dsimp only
  split
  · exact ceRead_sameHaulage ..
  · exact (ceRead_sameHaulage ..).trans (ceRead_sameHaulage ..)

theorem ceWrite_sameHaulage (s : State) (sec : Bool) (pa n v : Nat) (bad : Bool) : SameHaulage s (s.ceWrite sec pa n v bad) := by
  unfold State.ceWrite
  dsimp only
  split
  · exact ⟨rfl, rfl⟩
  · split <;> exact ⟨rfl, rfl⟩

theorem ceCopy_sameHaulage (s : State) (sec : Bool) (src dst : CeSide) (len : Nat) (carried : Bool) (fuel : Nat) :
    SameHaulage s (s.ceCopy sec src dst len carried fuel).1 := by
  induction fuel generalizing s src dst len carried with
  | zero => exact ⟨rfl, rfl⟩
  | succ fuel ih =>
    unfold State.ceCopy
    dsimp only
    split
    · exact ⟨rfl, rfl⟩
    split
    · exact ⟨rfl, rfl⟩
    refine SameHaulage.trans ?_ (ih ..)
    have hread : ∀ k, SameHaulage s (if src.local_ = true then (s, s.dep.sramNat src.addr k) else s.ceGather sec src.addr k).1 := by
      intro k
      split
      · exact ⟨rfl, rfl⟩
      · exact ceGather_sameHaulage ..
    split
    · exact hread _
    · exact (hread _).trans (ceWrite_sameHaulage ..)

/-- A COPY runs once it is started, over the registers as they stand. -/
theorem ceStartCopy_busy (h : s.ce.busy = false) (srcl dstl sec irq : Bool) :
    let t := s.ceStartCopy srcl dstl sec irq
    t.hl = s.hl ∧ t.ce.busy = true ∧ t.ce.src = s.ce.src ∧ t.ce.dst = s.ce.dst ∧ t.ce.len = s.ce.len := by
  unfold State.ceStartCopy
  rw [if_neg (ne_true_of_eq_false h)]
  dsimp only
  split
  · exact ⟨rfl, rfl, rfl, rfl, rfl⟩
  split
  · exact ⟨rfl, rfl, rfl, rfl, rfl⟩
  · obtain ⟨hhl, hce⟩ := ceCopy_sameHaulage s sec { local_ := srcl, addr := s.ce.src.toNat } { local_ := dstl, addr := s.ce.dst.toNat }
      s.ce.len.toNat false s.ce.len.toNat
    exact ⟨hhl, rfl, (congrArg CopyEngine.src hce :), (congrArg CopyEngine.dst hce :), (congrArg CopyEngine.len hce :)⟩

/-- The copy of a whole page is under way. -/
def CopyRuns (c : CopyEngine) (old new : BitVec 33) : Prop :=
  c.busy = true ∧ c.src.toNat = old.toNat * 2 ^ 14 ∧ c.dst.toNat = new.toNat * 2 ^ 14 ∧ c.len = 16384

theorem startCopies_starts {m : Migration} (hb : s.ce.busy = false) (hm : s.hl.migrations = [m]) (hp : m.phase = .copy) :
    s.startCopies.hl = s.hl ∧ CopyRuns s.startCopies.ce m.old m.new := by
  have hfind : s.hl.migrations.find? (fun m => decide (m.phase = .copy)) = some m := by
    rw [hm]
    exact List.find?_cons_of_pos (decide_eq_true hp)
  have ha : ∀ p : BitVec 33, (BitVec.ofNat 47 (p.toNat * 2 ^ 14)).toNat = p.toNat * 2 ^ 14 := fun p => by
    rw [BitVec.toNat_ofNat]
    omega
  unfold State.startCopies
  rw [if_neg (ne_true_of_eq_false hb), hfind]
  dsimp only
  obtain ⟨hhl, hbusy, hsrc, hdst, hlen⟩ := ceStartCopy_busy (s := { s with ce := { s.ce with
    src := BitVec.ofNat 47 (m.old.toNat * 2 ^ 14), dst := BitVec.ofNat 47 (m.new.toNat * 2 ^ 14), len := 16384 } }) hb false false false false
  exact ⟨hhl, hbusy, (congrArg BitVec.toNat hsrc).trans (ha _), (congrArg BitVec.toNat hdst).trans (ha _), hlen⟩

/-! ### A migration opened (12 R265, Table 12.2 steps 1 to 6) -/

/-- Haulage with one more migration open. -/
def Haulage.opened (h : Haulage) (m : Migration) : Haulage :=
  { h with free := h.free.erase m.new, migrations := h.migrations ++ [m], nextMig := m.migid + 1, begun := h.begun + 1 }

theorem openMigration_noPage {dest : Option (BitVec 5)} (h : s.freePage dest = none) (page : BitVec 33) (b : Bool) :
    s.openMigration page dest b = none := by
  unfold State.openMigration
  rw [h]
  cases s.mayMove page <;> rfl

/-- The migration that the home opens: it waits for its members' ACKs, or copies at once. -/
def State.freshMigration (s : State) (page : BitVec 33) (entry old : Nat) (new : BitVec 33) (b : Bool) : Migration :=
  { migid := s.freshMig, page := page, old := BitVec.ofNat 33 old, new := new, entry := entry
    phase := if s.hl.members = [] then .copy else .revoke, waits := s.hl.members, reason := 0, requested := b }

/-- Where no member is and the copy engine is free, the copy starts as the migration opens. -/
theorem openMigration_copies {page n : BitVec 33} {dest : Option (BitVec 5)} {entry old : Nat} {b : Bool}
    (hmay : s.mayMove page = some (entry, old)) (hfree : s.freePage dest = some n) (hmem : s.hl.members = []) (hopen : s.hl.migrations = [])
    (hce : s.ce.busy = false) (hq : s.tile.queue = []) :
    ∃ t, s.openMigration page dest b = some t ∧ t.hl = s.hl.opened (s.freshMigration page entry old n b)
      ∧ CopyRuns t.ce (BitVec.ofNat 33 old) n := by
  let m := s.freshMigration page entry old n b
  let u : State := { s with hl := s.hl.opened m }
  obtain ⟨hmap, -⟩ := editEntry_s2inv_idle (s := u) hq entry (fun e => putFlag e 3 false) (some page)
  obtain ⟨mm, x, ts, e⟩ := hmap.trans (cleanPage_mapOnly _ old)
  let v : State := { u with mem := mm, xl := x, ts := ts }
  have hv : v.hl.migrations = [m] := by
    show s.hl.migrations ++ [m] = [m]
    rw [hopen]
    rfl
  obtain ⟨hhl, hrun⟩ := startCopies_starts (s := v) hce hv (if_pos hmem)
  refine ⟨v.startCopies, ?_, hhl, hrun⟩
  have ht : v.tellMembers 1 m = v := tellMembers_none (s := v) hmem 1 m
  unfold State.openMigration
  rw [hmay, hfree]
  exact congrArg some (congrArg State.startCopies ((congrArg (fun w : State => w.tellMembers 1 m) e).trans ht))

end

/-! ### The home's work (12 R270, R272) -/

section
variable {s : State}

theorem pumpN_stops (h : s.pumpOne = none) (n : Nat) : State.pumpN n s = s := by
  cases n with
  | zero => rfl
  | succ n => simp only [State.pumpN, h]

theorem pumpN_goes {t : State} (h : s.pumpOne = some t) (n : Nat) : State.pumpN (n + 1) s = State.pumpN n t := by
  simp only [State.pumpN, h]

theorem pumpChosen_none (h : s.hl.chosen = []) : s.pumpChosen = none := by
  simp only [State.pumpChosen, h]

theorem pumpOne_idle (hr : s.hl.requests = []) (hc : s.hl.chosen = []) : s.pumpOne = none := by
  simp only [State.pumpOne, hr, pumpChosen_none hc]

/-- With no request and no choice the home does nothing. -/
theorem pump_idle (hr : s.hl.requests = []) (hc : s.hl.chosen = []) : s.pump = s := pumpN_stops (pumpOne_idle hr hc) _

end

end Sys2Proof.Machine
end

section
/-! ## The heat table (12 R262 to R264) -/

namespace Sys2Proof.Machine

/-! ### Events (12 R263) -/

section
variable {s : State} {miss : Bool} {p : BitVec 33}

theorem ageOn_idle (h : s.hl.aging = false) : s.ageOn = s := if_neg (ne_true_of_eq_false h)

/-- An aging pass under way changes the table and how far it has come. -/
theorem ageOn_eq (s : State) : ∃ f n l, s.ageOn = { s with free := f, hl := { s.hl with aged := n, heat := l } } := by
  unfold State.ageOn
  split
  · exact ⟨_, _, _, rfl⟩
  · exact ⟨_, _, _, rfl⟩

/-- An event that counts changes the table. -/
theorem heatApply_eq (s : State) (miss : Bool) (p : BitVec 33) :
    ∃ l, s.heatApply miss p = { s with hl := { s.hl with heat := l } } := by
  unfold State.heatApply
  dsimp only
  split
  · split <;> exact ⟨_, rfl⟩
  · exact ⟨_, rfl⟩

/-- The oldest queued event counts, where an aging pass under way has brought the table. -/
theorem heatEvent_counts {q : List (Bool × BitVec 33)} (h : s.hl.queue = (miss, p) :: q) :
    Yields (.heatEvent none) s ((({ s with hl := { s.hl with queue := q } } : State).ageOn).heatApply miss p) := by
  simp only [Yields, exec, execHeatEvent, answer, h]

/-- While stage 2 is on, an event joins the queue or is dropped before the oldest one counts. -/
theorem heatEvent_pushed (h : s.xl.s2en = true) : exec (.heatEvent (some p)) s = exec (.heatEvent none) (s.heatPush true p) := by
  simp only [exec, execHeatEvent, h, if_true]
  rfl

theorem heatPush_full (h : 64 ≤ s.hl.queue.length) : s.heatPush miss p = { s with hl := { s.hl with drop := s.hl.drop + 1 } } := by
  simp only [State.heatPush, if_pos h]

theorem heatPush_joins (h : s.hl.queue.length < 64) :
    s.heatPush miss p = { s with hl := { s.hl with queue := s.hl.queue ++ [(miss, p)] } } := by
  simp only [State.heatPush, if_neg (Nat.not_le.2 h)]

/-- Where an event of a page counts: its table entry with one counter advanced. -/
def HeatEntry.counted (e : HeatEntry) (miss : Bool) : HeatEntry :=
  if miss then { e with miss := satInc e.miss } else { e with fill := satInc e.fill }

/-- A way of a page's set holds the page. -/
def State.wayHolds (s : State) (p : BitVec 33) (w : Nat) : Bool :=
  match smGet none (4 * (p.toNat % 4096) + w) s.hl.heat with
  | some e => e.iapg == p
  | none => false

theorem wayHolds_iff {w : Nat} :
    s.wayHolds p w = true ↔ ∃ e, smGet none (4 * (p.toNat % 4096) + w) s.hl.heat = some e ∧ e.iapg = p := by
  unfold State.wayHolds
  cases smGet none (4 * (p.toNat % 4096) + w) s.hl.heat <;> simp

theorem wayHolds_eq_false {w : Nat} (h : ∀ x, smGet none (4 * (p.toNat % 4096) + w) s.hl.heat = some x → x.iapg ≠ p) :
    s.wayHolds p w = false :=
  Bool.eq_false_iff.2 fun hw => by
    obtain ⟨e, he, hp⟩ := wayHolds_iff.1 hw
    exact h e he hp

/-- An event counts at the first way of its set that holds the page. -/
theorem heatApply_hit {w : Nat} {e : HeatEntry} (hw : w < 4) (he : smGet none (4 * (p.toNat % 4096) + w) s.hl.heat = some e)
    (hp : e.iapg = p) (hfirst : ∀ k < w, ∀ x, smGet none (4 * (p.toNat % 4096) + k) s.hl.heat = some x → x.iapg ≠ p) :
    s.heatApply miss p = s.setHeat (4 * (p.toNat % 4096) + w) (some (e.counted miss)) := by
  have hfind : (List.range 4).find? (s.wayHolds p) = some w :=
    List.find?_range_eq_some.2 ⟨wayHolds_iff.2 ⟨e, he, hp⟩, List.mem_range.2 hw, fun k hk => by
      rw [wayHolds_eq_false (hfirst k hk)]; rfl⟩
  unfold State.heatApply
  dsimp only
  split
  next w' h' =>
    obtain rfl : w' = w := Option.some.inj (h'.symm.trans hfind)
    rw [he]
    rfl
  next h' => exact absurd (h'.symm.trans hfind) (Option.some_ne_none w).symm

/-- A page that no way of its set holds takes the set's victim. -/
theorem heatApply_miss (h : ∀ k < 4, ∀ x, smGet none (4 * (p.toNat % 4096) + k) s.hl.heat = some x → x.iapg ≠ p) :
    s.heatApply miss p = s.setHeat (4 * (p.toNat % 4096) + s.heatVictim (p.toNat % 4096))
      (some { iapg := p, fill := if miss then 0 else 1, miss := if miss then 1 else 0 }) := by
  have hfind : (List.range 4).find? (s.wayHolds p) = none :=
    List.find?_eq_none.2 fun k hk => Bool.eq_false_iff.1 (wayHolds_eq_false (h k (List.mem_range.1 hk)))
  unfold State.heatApply
  dsimp only
  split
  next w' h' => exact absurd (h'.symm.trans hfind) (Option.some_ne_none w')
  next => rfl

/-- The scan for the least key of four keeps the first key of 0. -/
theorem leastKey_of_zero (key : Nat → Nat) {w : Nat} (hw : w < 4) (h0 : key w = 0) (hb : ∀ k < w, key k ≠ 0) :
    [1, 2, 3].foldl (fun b w => if key w < key b then w else b) 0 = w := by
  obtain rfl | rfl | rfl | rfl : w = 0 ∨ w = 1 ∨ w = 2 ∨ w = 3 := by omega
  · simp [h0]
  · simp [h0, Nat.pos_of_ne_zero (hb 0 (by decide))]
  · have h1 : 0 < (if key 1 < key 0 then key 1 else key 0) := by
      have := hb 0 (by decide)
      have := hb 1 (by decide)
      split <;> omega
    simp [h0, apply_ite key, h1]
  · have := hb 0 (by decide)
    have := hb 1 (by decide)
    have := hb 2 (by decide)
    simp only [List.foldl]
    split <;> split <;> simp [h0] <;> omega

/-- The victim of a set with an invalid way is the first such way. -/
theorem heatVictim_invalid {set w : Nat} (hw : w < 4) (hn : smGet none (4 * set + w) s.hl.heat = none)
    (hb : ∀ k < w, smGet none (4 * set + k) s.hl.heat ≠ none) : s.heatVictim set = w := by
  unfold State.heatVictim
  dsimp only
  refine leastKey_of_zero _ hw (by rw [hn]) fun k hk => ?_
  cases hx : smGet none (4 * set + k) s.hl.heat with
  | none => exact absurd hx (hb k hk)
  | some e => exact Nat.succ_ne_zero _

end

/-! ### Aging (12 R264) -/

/-- What a halving leaves: the halved counters, where one is not 0. -/
theorem HeatEntry.aged_eq_some {o e : HeatEntry} :
    o.aged = some e ↔ e = { o with fill := o.fill >>> 1, miss := o.miss >>> 1 } ∧ (e.fill ≠ 0 ∨ e.miss ≠ 0) := by
  unfold HeatEntry.aged
  constructor
  · intro h
    split at h
    · cases h
    · next hz =>
      cases h
      exact ⟨rfl, by simpa only [ne_eq, ← not_and_or] using hz⟩
  · rintro ⟨rfl, hz⟩
    exact if_neg (by simpa only [ne_eq, ← not_and_or] using hz)

/-- An entry of the table once a pass has reached a set: halved below that set where it was not before. -/
theorem mem_ageTo {s : State} {m n : Nat} {e : HeatEntry} : (n, some e) ∈ (s.ageTo m).hl.heat ↔
    ∃ o, (n, some o) ∈ s.hl.heat ∧ if s.hl.aged ≤ n / 4 ∧ n / 4 < m then o.aged = some e else o = e := by
  simp only [State.ageTo, List.mem_filterMap]
  constructor
  · rintro ⟨⟨k, x⟩, hmem, hx⟩
    split at hx
    · next hr =>
      obtain ⟨e', he', hk⟩ := Option.map_eq_some_iff.1 hx
      cases hk
      obtain ⟨o, ho, hoe⟩ := Option.bind_eq_some_iff.1 he'
      cases ho
      exact ⟨o, hmem, by rwa [if_pos hr]⟩
    · next hr =>
      cases hx
      exact ⟨e, hmem, by rw [if_neg hr]⟩
  · rintro ⟨o, hmem, ho⟩
    refine ⟨_, hmem, ?_⟩
    split at ho
    · next hr => simp only [if_pos hr, Option.bind_some, ho, Option.map_some]
    · next hr => rw [if_neg hr, ho]

theorem agingPassEnd_idle {s : State} (h : s.hl.aging = false) : Yields .agingPassEnd s s :=
  congrArg (answer s) (if_neg (ne_true_of_eq_false h))

/-- The end of a pass halves the sets that it had not reached. -/
theorem agingPassEnd_ends {s : State} (h : s.hl.aging = true) :
    Yields .agingPassEnd s { s.ageTo 4096 with hl := { (s.ageTo 4096).hl with aging := false } } :=
  congrArg (answer s) (if_pos h)

/-! ### Snapshots (14 Table 14.9) -/

theorem afterPosted_none {s : State} (h : s.dep.wqueue = []) (k : State → State) : s.afterPosted k = k s := by
  have hs : ({ s with dep := { s.dep with wqueue := [] } } : State) = s := by rw [← h]
  unfold State.afterPosted State.flushed
  rw [hs, h]
  rfl

theorem heatWord_of_entry {s : State} {n : Nat} {e : HeatEntry} (h : smGet none n s.hl.heat = some e) :
    s.heatWord n = wd (2 ^ 63 + e.iapg.toNat * 2 ^ 30 + e.fill.toNat * 2 ^ 16 + e.miss.toNat) := by
  simp only [State.heatWord, h]

/-! ### The statement -/

/-- Settles O46: an event by whether it joins the queue, then by the way of its set that holds its page; the end of a pass entry by entry. -/
theorem heatTable : Obligations.HeatTable := by
  intro s p
  refine ⟨fun h => ?_, fun hs hl => ?_, fun hs hl => ?_, fun hs => ?_, fun miss q hq => ⟨fun _ => heatEvent_counts hq, ?_, ?_⟩,
    fun h => congrArg (answer s) (if_pos h), fun h => congrArg (answer s) (if_neg (ne_true_of_eq_false h)), agingPassEnd_idle,
    fun h => ⟨_, agingPassEnd_ends h, rfl, List.length_filterMap_le .., fun n e hn => ?_⟩,
    fun h => congrArg (answer s) (afterPosted_none h _), fun e hw ha he => ?_⟩
  · simp only [Yields, exec, execHeatEvent, answer, h]
  · obtain ⟨⟨m, p'⟩, q, hq⟩ := List.exists_cons_of_length_pos (l := s.hl.queue) (by omega)
    rw [heatEvent_pushed hs, heatPush_full hl.ge]
    refine ⟨_, heatEvent_counts (q := q) hq, ?_⟩
    rw [hardwire_hl]
    obtain ⟨l, e⟩ := heatApply_eq (State.ageOn
      { s with hl := { s.hl with drop := s.hl.drop + 1, queue := q } }) m p'
    obtain ⟨_, _, _, e'⟩ := ageOn_eq { s with hl := { s.hl with drop := s.hl.drop + 1, queue := q } }
    rw [e, e', hq]
    exact ⟨rfl, rfl⟩
  · rw [heatEvent_pushed hs, heatPush_joins hl]
  · simp only [exec, execHeatEvent, hs, Bool.false_eq_true, if_false]
  · intro w e ha hw he hp hb
    have h := heatEvent_counts hq
    rw [ageOn_idle (s := { s with hl := { s.hl with queue := q } }) ha] at h
    rwa [heatApply_hit (s := { s with hl := { s.hl with queue := q } }) hw he hp hb] at h
  · intro w hw ha hb hn hm
    have h := heatEvent_counts hq
    rw [ageOn_idle (s := { s with hl := { s.hl with queue := q } }) ha] at h
    rwa [heatApply_miss (s := { s with hl := { s.hl with queue := q } }) hm,
      heatVictim_invalid (s := { s with hl := { s.hl with queue := q } }) hw hn hb] at h
  · rw [hardwire_hl]
    refine mem_ageTo.trans ?_
    by_cases hr : n / 4 < s.hl.aged
    · simp [hr, Nat.not_le.2 hr]
    · have hset : s.hl.aged ≤ n / 4 ∧ n / 4 < 4096 := by omega
      simp only [if_pos hset, if_neg hr, HeatEntry.aged_eq_some]
      exact ⟨fun ⟨o, hm, he, hz⟩ => ⟨⟨o, hm, he⟩, hz⟩, fun ⟨⟨o, hm, he⟩, hz⟩ => ⟨o, hm, he, hz⟩⟩
  · refine (congrArg (answer s) (afterPosted_none hw _)).trans ?_
    have hsnap : s.heatSnap = { s with hl := { s.hl with htwsnap := s.heatWord s.hl.htwsel.toNat } } := by
      unfold State.heatSnap
      rw [ageOn_idle ha]
    rw [hsnap, heatWord_of_entry he]
    rfl

end Sys2Proof.Machine
end

section
/-! ## Doorbells between deputies (12 R267, R271, 14 R315) -/

namespace Sys2Proof.Machine

/-! ### A doorbell taken from the queue -/

section
variable {s : State} {d : BitVec 128} {q : List (BitVec 128)} {op : Nat}

theorem takeDoor_barred (h : s.firmware = false ∨ s.win.dbin = []) (op : Nat) : s.takeDoor op = none := by
  unfold State.takeDoor
  rcases h with h | h
  · rw [h]
    rfl
  · rw [h]
    exact ite_self none

/-- The state without the doorbell at the front of the queue. -/
def State.withDoors (s : State) (q : List (BitVec 128)) : State := { s with win := { s.win with dbin := q } }

/-- A doorbell at the front whose OP is not reserved is taken by the command of that OP and by no other. -/
theorem takeDoor_front (hf : s.firmware = true) (hq : s.win.dbin = d :: q) (h1 : 1 ≤ fieldOf d.toNat 60 4) (h8 : fieldOf d.toNat 60 4 ≤ 8)
    (op : Nat) : s.takeDoor op = if fieldOf d.toNat 60 4 = op then some (s.withDoors q, d.toNat) else none := by
  have hr : doorReserved d = false := by
    have h0 : fieldOf d.toNat 60 4 ≠ 0 := by omega
    simp [doorReserved, h0, h8]
  unfold State.takeDoor
  rw [hf, hq, List.dropWhile_cons_of_neg (by simp [hr])]
  rfl

theorem takeDoor_taken (hf : s.firmware = true) (hq : s.win.dbin = d :: q) (ho : fieldOf d.toNat 60 4 = op) (h1 : 1 ≤ op) (h8 : op ≤ 8) :
    s.takeDoor op = some (s.withDoors q, d.toNat) := by
  subst ho
  rw [takeDoor_front hf hq h1 h8, if_pos rfl]

/-! ### Doorbells of the home to a member (12 Table 12.3) -/

/-- The command by which a member handles a doorbell of OP 1 to 4. -/
def memberCommand (op : Nat) : Instr := if op = 1 then .revoke else if op = 2 then .remap else if op = 3 then .abort else .s2invDoorbell

/-- What a member does for a doorbell of its home (12 Table 12.2, R268). -/
def memberAct (op : Nat) (t : State) (n : Nat) : State :=
  if op = 1 then ((t.s2inv (some (doorPage n))).cleanPage (doorLow n)).notePage (doorPage n) true
  else if op = 2 then (t.s2inv (some (doorPage n))).invPage (doorLow n)
  else if op = 3 then ((t.s2inv (some (doorPage n))).notePage (doorPage n) false).retryPage (doorPage n)
  else t.s2inv (if bitOf n 33 then none else some (doorPage n))

theorem memberCommand_exec (s : State) (h1 : 1 ≤ op) (h4 : op ≤ 4) :
    exec (memberCommand op) s = answer s (s.memberDoor op (memberAct op)) := by
  obtain rfl | rfl | rfl | rfl : op = 1 ∨ op = 2 ∨ op = 3 ∨ op = 4 := by omega
  all_goals rfl

theorem memberDoor_untaken {act : State → Nat → State} (h : s.takeDoor op = none) : s.memberDoor op act = s := by
  simp only [State.memberDoor, h]

/-- A doorbell of the home is acknowledged after what it asks for is done. -/
theorem memberDoor_home {act : State → Nat → State} {t : State} {n : Nat} (h : s.takeDoor op = some (t, n)) (hn : doorNode n = t.home) :
    s.memberDoor op act = (act t n).ackDoor n 0 0 := by
  simp only [State.memberDoor, h, if_pos hn]

/-- Another node's is refused (log 63). -/
theorem memberDoor_foreign {act : State → Nat → State} {t : State} {n : Nat} (h : s.takeDoor op = some (t, n)) (hn : doorNode n ≠ t.home) :
    s.memberDoor op act = t.ackDoor n 1 0 := by
  simp only [State.memberDoor, h, if_neg hn]

end

/-! ### RELEASE and commands that find no doorbell -/

section
variable {s : State}

theorem release_yields {t : State} {n : Nat} (h : s.takeDoor 5 = some (t, n)) :
    Yields .release s ((t.notePage (doorPage n) false).retryPage (doorPage n)) := by
  simp only [Yields, exec, execRelease, h, answer]

/-- A command that handles a doorbell does nothing where there is none for it. -/
theorem door_untaken (h : ∀ op, s.takeDoor op = none) :
    Yields .release s s ∧ Yields .hint s s ∧ Yields .request s s ∧ Yields .ack s s := by
  simp only [Yields, exec, execRelease, execHint, execRequest, execAck, h, answer, and_self]

/-! ### Hints held (12 R271) -/

/-- The hints with one more: of a page already there the higher heat stands, and a new page in a full store is dropped. -/
def holdHint (l : List Hint) (h : Hint) : List Hint :=
  if l.any (fun x => x.page == h.page) then l.map (fun x => if x.page = h.page ∧ x.heat < h.heat then h else x)
  else if 256 ≤ l.length then l else l ++ [h]

/-- The hint of a doorbell. -/
def hintOf (n : Nat) : Hint := { page := doorPage n, heat := BitVec.ofNat 33 (doorLow n), stack := BitVec.ofNat 5 (fieldOf n 34 5) }

/-- The state with the hints given. -/
def State.withHints (s : State) (l : List Hint) : State := { s with hl := { s.hl with hints := l } }

theorem hint_yields {t : State} {n : Nat} (h : s.takeDoor 6 = some (t, n)) :
    Yields .hint s (t.withHints (holdHint t.hl.hints (hintOf n))) := by
  simp only [Yields, exec, execHint, h, answer, holdHint, apply_ite t.withHints]
  rfl

theorem holdHint_length (l : List Hint) (h : Hint) : (holdHint l h).length ≤ max 256 l.length := by
  unfold holdHint
  split
  · rw [List.length_map]
    omega
  · split
    · omega
    · rw [List.length_append, List.length_singleton]
      omega

/-- Where there is room, the page is held at no less than the hint's heat. -/
theorem holdHint_holds {l : List Hint} (hl : l.length < 256) (h : Hint) : ∃ x ∈ holdHint l h, x.page = h.page ∧ h.heat ≤ x.heat := by
  unfold holdHint
  split
  next ha =>
    obtain ⟨x, hx, hp⟩ := List.any_eq_true.1 ha
    refine ⟨_, List.mem_map_of_mem hx, ?_⟩
    split
    · exact ⟨rfl, BitVec.le_refl _⟩
    next hn =>
      have hp := eq_of_beq hp
      exact ⟨hp, BitVec.not_lt.1 fun hlt => hn ⟨hp, hlt⟩⟩
  next =>
    rw [if_neg (Nat.not_le.2 hl)]
    exact ⟨h, List.mem_append_right _ (List.mem_singleton_self h), rfl, BitVec.le_refl _⟩

theorem holdHint_full {l : List Hint} {h : Hint} (hl : 256 ≤ l.length) (hn : ∀ x ∈ l, x.page ≠ h.page) : holdHint l h = l := by
  unfold holdHint
  rw [if_neg (by simpa using hn), if_pos hl]

/-! ### The deputy's own doorbells (14 R315) -/

theorem received_good (h : s.fab.bad = false) (f : State → State) : s.received f = f s := if_neg (ne_true_of_eq_false h)

theorem received_bad (h : s.fab.bad = true) (f : State → State) : s.received f = { s with fab := { s.fab with bad := false } } := if_pos h

theorem doorbellReceive_joins (h : s.fab.bad = false) (hl : s.win.dbin.length < 8) (p : Packet) :
    Yields (.doorbellReceive p) s (State.raiseVector { s with win := { s.win with dbin := s.win.dbin ++ [p.inl.setWidth 128] } } 6) :=
  congrArg (answer s) ((received_good h _).trans (if_neg (Nat.not_le.2 hl)))

theorem doorbellReceive_waits (h : s.fab.bad = false) (hl : 8 ≤ s.win.dbin.length) (p : Packet) : Yields (.doorbellReceive p) s s :=
  congrArg (answer s) ((received_good h _).trans (if_pos hl))

end

/-! ### The statement -/

/-- Settles O47: a member's doorbell by its OP and its sender, a hint by the hints held, and the deputy's queue by its length. -/
theorem haulageDoorbells : Obligations.HaulageDoorbells := by
  refine ⟨fun s d q op => ⟨fun h => ⟨fun h1 h4 => ?_, door_untaken (takeDoor_barred h)⟩,
      fun hf hq => ⟨fun h1 h4 ho => ?_, fun h1 h4 g1 g8 ho => ?_, fun ho => ?_, fun ho => ?_⟩⟩,
    fun s p => ⟨fun hb hl => ⟨_, doorbellReceive_joins hb hl p, rfl, raiseVector_pending _ (by decide)⟩,
      fun hb hl => doorbellReceive_waits hb hl p, fun hb => congrArg (answer s) (received_bad hb _), rfl,
      fun hb => congrArg (answer s) (if_pos hb), fun hb => congrArg (answer s) (if_neg (ne_true_of_eq_false hb))⟩⟩
  · exact (memberCommand_exec s h1 h4).trans (congrArg (answer s) (memberDoor_untaken (takeDoor_barred h op)))
  · have ht := takeDoor_taken hf hq ho h1 (by omega)
    exact ⟨fun hn => (memberCommand_exec s h1 h4).trans (congrArg (answer s) (memberDoor_home ht hn)),
      fun hn => (memberCommand_exec s h1 h4).trans (congrArg (answer s) (memberDoor_foreign ht hn))⟩
  · have ht := (takeDoor_front hf hq g1 g8 op).trans (if_neg ho)
    exact (memberCommand_exec s h1 h4).trans (congrArg (answer s) (memberDoor_untaken ht))
  · exact release_yields (takeDoor_taken hf hq ho (by decide) (by decide))
  · refine ⟨_, hint_yields (takeDoor_taken hf hq ho (by decide) (by decide)), rfl, holdHint_length .., fun hl => ?_, fun hl hn => ?_⟩
    · obtain ⟨x, hx, hp, hh⟩ := holdHint_holds hl (hintOf d.toNat)
      exact ⟨x, hx, hp, hh⟩
    · exact holdHint_full hl hn

end Sys2Proof.Machine
end

section
/-! ## Requests to haulage and their answers (12 R271, R272) -/

namespace Sys2Proof.Machine

section
variable {s : State}

/-! ### The request at the front (12 R272) -/

/-- The state with the requests given. -/
def State.withRequests (s : State) (l : List HlRequest) : State := { s with hl := { s.hl with requests := l } }

theorem withRequests_self {l : List HlRequest} (h : s.hl.requests = l) : s.withRequests l = s := by
  subst h
  rfl

/-- A request with its next page begun. -/
def HlRequest.begun (r : HlRequest) : HlRequest := { r with todo := r.todo.drop 1 }

/-- A request with its next page begun and completed. -/
def HlRequest.counted (r : HlRequest) : HlRequest := { r.begun with done := r.done + 1 }

/-- OUTCOME of a request whose pages have all been begun (Table 12.8). -/
def HlRequest.outcome (r : HlRequest) : Nat := if r.done = r.count then 0 else if r.done = 0 then 2 else 1

/-- Where a request's pages go: the NEAR pool of a stack, or EXP. -/
def HlRequest.dest (r : HlRequest) : Option (BitVec 5) := if r.op = 3 then some r.stack else none

section
variable {r : HlRequest}

theorem noneRequested (hm : s.hl.migrations = []) (l : List HlRequest) : (s.withRequests l).hl.migrations.any (·.requested) = false := by
  rw [show (s.withRequests l).hl.migrations = [] from hm]
  rfl

/-- While haulage is disabled a request ends with OUTCOME 3. -/
theorem pumpOne_disabled (hm : s.hl.migrations = []) (hen : s.hen = false) :
    (s.withRequests [r]).pumpOne = some ((s.withRequests []).answerRequest r.sender 3 r.done) := by
  have hen' : (s.withRequests [r]).hen = false := hen
  have hm' : (s.withRequests [r]).hl.migrations.any (·.requested) = false := noneRequested hm [r]
  unfold State.pumpOne
  rw [show (s.withRequests [r]).hl.requests = [r] from rfl]
  dsimp only
  rw [hen', hm', Bool.and_false, if_neg Bool.false_ne_true]
  rfl

/-- The home may serve: it is no member, haulage is enabled, and no migration is open or chosen. -/
structure MayServe (s : State) : Prop where
  home : s.isMember = false
  enabled : s.hen = true
  unchosen : s.hl.chosen = []
  unopened : s.hl.migrations = []

theorem pumpOne_serves (h : MayServe s) {p : BitVec 33} (ht : r.todo = [p]) :
    (s.withRequests [r]).pumpOne = (s.withRequests [r]).servePage r p := by
  have hen' : (s.withRequests [r]).hen = true := h.enabled
  have hmem' : (s.withRequests [r]).isMember = false := h.home
  have hm' : (s.withRequests [r]).hl.migrations.any (·.requested) = false := noneRequested h.unopened [r]
  unfold State.pumpOne
  rw [show (s.withRequests [r]).hl.requests = [r] from rfl]
  dsimp only
  rw [hen', hmem', hm', ht]
  rfl

theorem pumpOne_answers (h : MayServe s) (ht : r.todo = []) :
    (s.withRequests [r]).pumpOne = some ((s.withRequests []).answerRequest r.sender r.outcome r.done) := by
  have hen' : (s.withRequests [r]).hen = true := h.enabled
  have hmem' : (s.withRequests [r]).isMember = false := h.home
  have hm' : (s.withRequests [r]).hl.migrations.any (·.requested) = false := noneRequested h.unopened [r]
  unfold State.pumpOne
  rw [show (s.withRequests [r]).hl.requests = [r] from rfl]
  dsimp only
  rw [hen', hmem', hm', ht]
  rfl

/-- A request whose last migration is open waits for it. -/
theorem pumpOne_waits {m : Migration} (hr : s.hl.requests = [r]) (ht : r.todo = []) (hm : s.hl.migrations = [m]) (hreq : m.requested = true)
    (hc : s.hl.chosen = []) : s.pumpOne = none := by
  have hm' : s.hl.migrations.any (·.requested) = true := by rw [hm, List.any_cons, hreq, Bool.true_or]
  unfold State.pumpOne
  rw [hr]
  dsimp only
  rw [hm', ht, pumpChosen_none hc]
  exact ite_self none

theorem answerRequest_idle (hr : s.hl.requests = []) (hc : s.hl.chosen = []) (sender : Option (BitVec 24 × BitVec 8)) (o d : Nat) :
    (s.answerRequest sender o d).pumpOne = none := by
  cases sender with
  | none =>
    obtain ⟨b, p, e⟩ := hlResult_eq s o d
    exact (congrArg State.pumpOne e).trans (pumpOne_idle hr hc)
  | some x => exact pumpOne_idle hr hc

/-- The home's steps for one request, where no choice waits: one for each page, and two more. -/
theorem pump_one (hc : s.hl.chosen = []) : (s.withRequests [r]).pump = State.pumpN (r.todo.length + 2) (s.withRequests [r]) := by
  unfold State.pump
  rw [show (s.withRequests [r]).hl.chosen = [] from hc]
  exact congrArg (State.pumpN · (s.withRequests [r])) (by simp [State.withRequests])

theorem pump_disabled (hc : s.hl.chosen = []) (hm : s.hl.migrations = []) (hen : s.hen = false) :
    (s.withRequests [r]).pump = (s.withRequests []).answerRequest r.sender 3 r.done := by
  rw [pump_one hc, pumpN_goes (pumpOne_disabled hm hen), pumpN_stops (answerRequest_idle (s := s.withRequests []) rfl hc ..)]

/-- A request of one page that needs no migration is answered at once. -/
theorem pump_answered {t : State} {r' : HlRequest} {p : BitVec 33} (h : MayServe s) (k : MayServe t) (ht : r.todo = [p]) (ht' : r'.todo = [])
    (hs : (s.withRequests [r]).servePage r p = some (t.withRequests [r'])) :
    (s.withRequests [r]).pump = (t.withRequests []).answerRequest r'.sender r'.outcome r'.done := by
  rw [pump_one h.unchosen, ht, pumpN_goes ((pumpOne_serves h ht).trans hs), pumpN_goes (pumpOne_answers k ht'),
    pumpN_stops (answerRequest_idle (s := t.withRequests []) rfl k.unchosen ..)]

/-! ### One page of a request -/

/-- PIN of an entry set or clear, with the store buffer drained, and the page invalidated at every member. -/
def State.repinned (s : State) (page : BitVec 33) (a : Nat) (pin : Bool) (x : Xlat) (ts : TileStore) : State :=
  { s with
    mem := (s.editEntry a (fun e => putFlag e 14 pin)).mem.drain, xl := x, ts := ts, hl := { s.hl with nextMig := s.freshMig + 1 }
    fab := s.hl.members.foldl (doorFab s (doorWord 4 0 s.freshMig.toNat 0 0 page.toNat s.straps.nodeId.toNat 0)) s.fab }

variable {p : BitVec 33}

theorem servePage_unmapped (h : s.pageEntry p = none) : (s.withRequests [r]).servePage r p = some (s.withRequests [r.begun]) := by
  unfold State.servePage
  rw [show (s.withRequests [r]).pageEntry p = none from h]
  rfl

variable {a e : Nat} (he : s.pageEntry p = some (a, e))
include he

/-- PIN and UNPIN edit the entry and invalidate the page everywhere. -/
theorem servePage_pin (ho : r.op = 1 ∨ r.op = 2) (hq : s.tile.queue = []) :
    ∃ x ts, (s.withRequests [r]).servePage r p = some ((s.repinned p a (decide (r.op = 1)) x ts).withRequests [r.counted]) := by
  obtain ⟨m, x, ts, hedit⟩ := editEntry_mapOnly (s.withRequests [r]) a (fun e => putFlag e 14 (decide (r.op = 1)))
  have hmem : (s.editEntry a (fun e => putFlag e 14 (decide (r.op = 1)))).mem = m :=
    (editEntry_mem_frame s { s.hl with requests := [r] } s.win ..).symm.trans (congrArg State.mem hedit)
  subst hmem
  obtain ⟨x', hinv⟩ := invalidateAll_idle (s := { s.withRequests [r] with
    mem := (s.editEntry a (fun e => putFlag e 14 (decide (r.op = 1)))).mem, xl := x, ts := ts }) hq p
  refine ⟨x', ts, ?_⟩
  unfold State.servePage
  rw [show (s.withRequests [r]).pageEntry p = some (a, e) from he]
  dsimp only
  rw [if_pos ho, hedit, hinv]
  rfl

variable (ho : ¬(r.op = 1 ∨ r.op = 2)) (hmay : s.mayMove p = some (a, fieldOf e 16 33))
include ho hmay

/-- A page that lies where it is to go counts as completed. -/
theorem servePage_lies (hl : s.liesIn (fieldOf e 16 33) r.dest = true) :
    (s.withRequests [r]).servePage r p = some (s.withRequests [r.counted]) := by
  unfold State.servePage
  rw [show (s.withRequests [r]).pageEntry p = some (a, e) from he]
  dsimp only
  rw [if_neg ho, show (s.withRequests [r]).mayMove p = some (a, fieldOf e 16 33) from hmay]
  exact if_pos hl

/-- Another page opens its migration, where one can. -/
theorem servePage_opens (hl : s.liesIn (fieldOf e 16 33) r.dest = false) (hm : s.hl.migrations = []) :
    (s.withRequests [r]).servePage r p
      = some (((s.withRequests [r.begun]).openMigration p r.dest true).getD (s.withRequests [r.begun])) := by
  have hroom : ¬4 ≤ (s.withRequests [r]).hl.migrations.length := by
    rw [show (s.withRequests [r]).hl.migrations = [] from hm]
    decide
  unfold State.servePage
  rw [show (s.withRequests [r]).pageEntry p = some (a, e) from he]
  dsimp only
  rw [if_neg ho, show (s.withRequests [r]).mayMove p = some (a, fieldOf e 16 33) from hmay]
  exact (if_neg (ne_true_of_eq_false hl)).trans (if_neg hroom)

end

/-! ### HLREQ (12 R272) -/

/-- The command of a request by HLREQ. -/
def requestCommand (op : Nat) (count : BitVec 8) (page : BitVec 33) : Instr :=
  if op = 1 then .pin count page else if op = 2 then .unpin count page else if op = 3 then .promote count page else .demote count page

section
variable {op : Nat} (h1 : 1 ≤ op) (h4 : op ≤ 4)
include h1 h4

theorem requestCommand_exec (s : State) (count : BitVec 8) (page : BitVec 33) :
    exec (requestCommand op count page) s = answer s (s.hlRequest op count.toNat page) := by
  obtain rfl | rfl | rfl | rfl : op = 1 ∨ op = 2 ∨ op = 3 ∨ op = 4 := by omega
  all_goals rfl

/-- A request that is asked while none is served joins the requests; firmware, where it runs, takes it up. -/
theorem hlRequest_joins (hb : s.reqBusy = false) (count : Nat) (page : BitVec 33) :
    s.hlRequest op count page =
      let t := s.withRequests (s.hl.requests ++ [requestOf op count page s.hl.lstack none])
      if s.firmware then t.serveRequests else t := by
  have ho : ¬(op = 0 ∨ 4 < op) := by omega
  unfold State.hlRequest
  rw [if_neg (ne_true_of_eq_false hb), if_neg ho]
  rfl

/-- Firmware of a home, or with haulage disabled, serves the only request itself. -/
theorem hlRequest_served (hf : s.firmware = true) (hr : s.hl.requests = []) (ha : s.hl.asked = none) (hh : s.isMember = false ∨ s.hen = false)
    (count : Nat) (page : BitVec 33) : s.hlRequest op count page = (s.withRequests [requestOf op count page s.hl.lstack none]).pump := by
  have hb : s.reqBusy = false := by simp only [State.reqBusy, hr, ha, List.any_nil, Option.isSome_none, Bool.or_false]
  rw [hlRequest_joins h1 h4 hb, hr]
  refine (if_pos hf).trans ?_
  have hp : ∀ t : State, t.isMember = s.isMember → t.hen = s.hen → t.serveRequests = t.pump := fun t hm he => by
    unfold State.serveRequests
    rw [if_pos]
    rw [hm, he]
    rcases hh with hh | hh <;> rw [hh]
    · rfl
    · exact Bool.or_true _
  exact hp _ rfl rfl

end

/-- A request of one page. -/
theorem requestPages_zero (page : BitVec 33) : requestPages page 0 = [page] := by
  simp [requestPages, page.isLt]

section
variable {op : Nat} {page : BitVec 33} {stack : BitVec 5} {sender : Option (BitVec 24 × BitVec 8)}

theorem requestOf_todo (op : Nat) (page : BitVec 33) (stack : BitVec 5) (sender : Option (BitVec 24 × BitVec 8)) :
    (requestOf op 0 page stack sender).todo = [page] := requestPages_zero page

theorem requestOf_pin_iff (h4 : op ≤ 4) :
    ((requestOf op 0 page stack sender).op = 1 ∨ (requestOf op 0 page stack sender).op = 2) ↔ op = 1 ∨ op = 2 := by
  have h : ∀ op ≤ 4, (BitVec.ofNat 4 op = 1 ∨ BitVec.ofNat 4 op = 2) ↔ op = 1 ∨ op = 2 := by decide
  exact h op h4

theorem requestOf_op_eq_iff (h4 : op ≤ 4) {k : Nat} (hk : k ≤ 4) : (requestOf op 0 page stack sender).op = BitVec.ofNat 4 k ↔ op = k := by
  have h : ∀ op ≤ 4, ∀ k ≤ 4, BitVec.ofNat 4 op = BitVec.ofNat 4 k ↔ op = k := by decide
  exact h op h4 k hk

theorem requestOf_dest (h4 : op ≤ 4) : (requestOf op 0 page stack sender).dest = if op = 3 then some stack else none := by
  unfold HlRequest.dest
  exact if_congr (requestOf_op_eq_iff h4 (k := 3) (by decide)) rfl rfl

/-! ### The answers to a request of one page -/

theorem request_unmapped (h : MayServe s) (he : s.pageEntry page = none) :
    (s.withRequests [requestOf op 0 page stack sender]).pump = (s.withRequests []).answerRequest sender 2 0 :=
  pump_answered h h (requestOf_todo ..) (congrArg (List.drop 1) (requestOf_todo ..)) (servePage_unmapped he)

variable {a e : Nat} (h4 : op ≤ 4) (h : MayServe s) (he : s.pageEntry page = some (a, e))
include h4 h he

/-- A page is pinned or unpinned. -/
theorem request_pin (ho : op = 1 ∨ op = 2) (hq : s.tile.queue = []) : ∃ x ts,
    (s.withRequests [requestOf op 0 page stack sender]).pump
      = ((s.repinned page a (decide (op = 1)) x ts).withRequests []).answerRequest sender 0 1 := by
  obtain ⟨x, ts, hs⟩ := servePage_pin (r := requestOf op 0 page stack sender) he ((requestOf_pin_iff h4).2 ho) hq
  refine ⟨x, ts, (pump_answered h ?_ (requestOf_todo ..) (congrArg (List.drop 1) (requestOf_todo ..)) hs).trans ?_⟩
  · exact ⟨h.home, h.enabled, h.unchosen, h.unopened⟩
  · rw [show decide ((requestOf op 0 page stack sender).op = 1) = decide (op = 1) from
      decide_eq_decide.2 (requestOf_op_eq_iff h4 (k := 1) (by decide))]
    rfl

variable (ho : 3 ≤ op) (hmay : s.mayMove page = some (a, fieldOf e 16 33))
include ho hmay

theorem request_lies (hl : s.liesIn (fieldOf e 16 33) (if op = 3 then some stack else none) = true) :
    (s.withRequests [requestOf op 0 page stack sender]).pump = (s.withRequests []).answerRequest sender 0 1 := by
  have ho' := mt (requestOf_pin_iff (page := page) (stack := stack) (sender := sender) h4).1 (by omega)
  rw [← requestOf_dest (page := page) (sender := sender) h4] at hl
  exact pump_answered h h (requestOf_todo ..) (congrArg (List.drop 1) (requestOf_todo ..)) (servePage_lies he ho' hmay hl)

section
variable (hl : s.liesIn (fieldOf e 16 33) (if op = 3 then some stack else none) = false)
include hl

theorem request_noPage (hf : s.freePage (if op = 3 then some stack else none) = none) :
    (s.withRequests [requestOf op 0 page stack sender]).pump = (s.withRequests []).answerRequest sender 2 0 := by
  have ho' := mt (requestOf_pin_iff (page := page) (stack := stack) (sender := sender) h4).1 (by omega)
  rw [← requestOf_dest (page := page) (sender := sender) h4] at hl hf
  have hs := servePage_opens he ho' hmay hl h.unopened
  rw [openMigration_noPage (s := s.withRequests [(requestOf op 0 page stack sender).begun]) hf] at hs
  exact pump_answered h h (requestOf_todo ..) (congrArg (List.drop 1) (requestOf_todo ..)) hs

/-- A page that is to move opens its migration, and the request waits for it. -/
theorem request_opens {n : BitVec 33} (hf : s.freePage (if op = 3 then some stack else none) = some n) (hmem : s.hl.members = [])
    (hce : s.ce.busy = false) (hq : s.tile.queue = []) :
    let r := requestOf op 0 page stack sender
    let u := s.withRequests [r.begun]
    (u.withRequests [r]).pump.hl = u.hl.opened (s.freshMigration page a (fieldOf e 16 33) n true)
      ∧ CopyRuns (u.withRequests [r]).pump.ce (BitVec.ofNat 33 (fieldOf e 16 33)) n := by
  intro r u
  have ho' := mt (requestOf_pin_iff (page := page) (stack := stack) (sender := sender) h4).1 (by omega)
  rw [← requestOf_dest (page := page) (sender := sender) h4] at hl hf
  obtain ⟨t, ht, hhl, hrun⟩ := openMigration_copies (s := u) (b := true) hmay hf hmem h.unopened hce hq
  have hs := servePage_opens he ho' hmay hl h.unopened
  rw [ht] at hs
  have hstop : t.pumpOne = none := pumpOne_waits (r := r.begun) (m := s.freshMigration page a (fieldOf e 16 33) n true)
    (congrArg Haulage.requests hhl) (congrArg (List.drop 1) (requestOf_todo ..))
    ((congrArg Haulage.migrations hhl).trans (congrArg (· ++ [s.freshMigration page a (fieldOf e 16 33) n true]) h.unopened)) rfl
    ((congrArg Haulage.chosen hhl).trans h.unchosen)
  have hp : (s.withRequests [r]).pump = t := by
    rw [pump_one h.unchosen, pumpN_goes ((pumpOne_serves h (requestOf_todo ..)).trans hs)]
    exact pumpN_stops hstop _
  rw [show u.withRequests [r] = s.withRequests [r] from rfl, hp]
  exact ⟨hhl, hrun⟩

end

end

/-! ### A member's REQUEST at its home, and the home's ACK (12 R271) -/

section
variable {t : State} {n : Nat}

theorem request_atMember (ht : s.takeDoor 7 = some (t, n)) (hm : t.isMember = true) : Yields .request s (t.ackDoor n 1 0) := by
  simp only [Yields, exec, execRequest, ht, hm, answer, if_true]

theorem request_reserved (ht : s.takeDoor 7 = some (t, n)) (hm : t.isMember = false) (ho : fieldOf n 44 4 = 0 ∨ 4 < fieldOf n 44 4) :
    Yields .request s (t.ackDoor n 3 0) := by
  simp only [Yields, exec, execRequest, ht, hm, answer, if_pos ho, Bool.false_eq_true, if_false]

/-- The request that a member's doorbell asks. -/
def doorRequest (n : Nat) : HlRequest :=
  requestOf (fieldOf n 44 4) (fieldOf n 64 8) (doorPage n) (BitVec.ofNat 5 (fieldOf n 34 5)) (some (doorNode n, doorMig n))

theorem request_atHome (ht : s.takeDoor 7 = some (t, n)) (hm : t.isMember = false) (h1 : 1 ≤ fieldOf n 44 4) (h4 : fieldOf n 44 4 ≤ 4)
    (hr : t.hl.requests = []) : Yields .request s (t.withRequests [doorRequest n]).pump := by
  have ho : ¬(fieldOf n 44 4 = 0 ∨ 4 < fieldOf n 44 4) := by omega
  simp only [Yields, exec, execRequest, ht, hm, answer, if_neg ho, Bool.false_eq_true, if_false, hr]
  rfl

theorem ack_ofHome (ht : s.takeDoor 8 = some (t, n)) (ha : t.hl.asked = some (doorMig n)) (hn : doorNode n = t.home) (hm : t.isMember = true) :
    Yields .ack s (({ t with hl := { t.hl with asked := none } } : State).hlResult (requestOutcome (fieldOf n 56 4)) (fieldOf n 64 9)) := by
  simp only [Yields, exec, execAck, ht, answer, if_pos (And.intro ha (And.intro hn hm))]

theorem ack_unasked (ht : s.takeDoor 8 = some (t, n)) (ha : t.hl.asked = none) (hm : t.hl.migrations = []) : Yields .ack s t := by
  simp only [Yields, exec, execAck, ht, answer, ha, hm, reduceCtorEq, false_and, if_false, List.find?_nil]

theorem memberRequestTimeout_asked {m : BitVec 8} (hf : s.firmware = true) (ha : s.hl.asked = some m) :
    Yields .memberRequestTimeout s (({ s with hl := { s.hl with asked := none } } : State).hlResult 2 0) :=
  congrArg (answer s) (if_pos (by rw [hf, ha]; rfl))

theorem memberRequestTimeout_idle (h : s.firmware = false ∨ s.hl.asked = none) : Yields .memberRequestTimeout s s :=
  congrArg (answer s) (if_neg (by rcases h with h | h <;> simp [h]))

end

end

/-! ### The statement -/

section
variable {s : State} {page : BitVec 33} {count : BitVec 8} {op : Nat}

/-- HLREQ's request of one page, served by the home as it is asked. -/
theorem requestCommand_served (h1 : 1 ≤ op) (h4 : op ≤ 4) (hf : s.firmware = true) (hr : s.hl.requests = []) (ha : s.hl.asked = none)
    (hm : s.isMember = false) (hc : count = 0) :
    Yields (requestCommand op count page) s (s.withRequests [requestOf op 0 page s.hl.lstack none]).pump := by
  subst hc
  exact (requestCommand_exec h1 h4 s 0 page).trans (congrArg (answer s) (hlRequest_served h1 h4 hf hr ha (.inl hm) 0 page))

/-- PIN or UNPIN of one page by HLREQ. -/
theorem requestCommand_pin {a e : Nat} (ho : op = 1 ∨ op = 2) (hf : s.firmware = true) (h : MayServe s) (hr : s.hl.requests = [])
    (ha : s.hl.asked = none) (he : s.pageEntry page = some (a, e)) (hc : count = 0) (hq : s.tile.queue = []) :
    ∃ t, exec (requestCommand op count page) s = .next t ∧ t.hl.resValid = true ∧ t.hl.resSeq = s.hl.resSeq + 1 ∧ t.hl.resOutcome = 0
      ∧ t.hl.resDone = 1 ∧ t.hl.requests = [] ∧ (s.pwr.latching = false → t.bm.evpend.getLsbD 46 = true)
      ∧ t.mem = (s.editEntry a (fun e => putFlag e 14 (decide (op = 1)))).performAll.mem := by
  have h1 : 1 ≤ op := by omega
  have h4 : op ≤ 4 := by omega
  obtain ⟨x, ts, hp⟩ := request_pin (page := page) (stack := s.hl.lstack) (sender := none) h4 h he ho hq
  have hy := requestCommand_served (page := page) h1 h4 hf hr ha h.home hc
  rw [hp] at hy
  let u := (s.repinned page a (decide (op = 1)) x ts).withRequests []
  obtain ⟨b, pw, hres⟩ := hlResult_eq u 0 1
  have hhl : (u.hlResult 0 1).hl = u.hl.resulted 0 1 := congrArg State.hl hres
  refine ⟨_, hy, ?_⟩
  rw [hardwire_hl, hardwire_mem, hardwire_evpend _ _ (by decide), editEntry_performAll_mem hq]
  refine ⟨congrArg Haulage.resValid hhl, congrArg Haulage.resSeq hhl, congrArg Haulage.resOutcome hhl, congrArg Haulage.resDone hhl,
    congrArg Haulage.requests hhl, fun hl => hlResult_event (s := u) hl 0 1, congrArg State.mem hres⟩

/-- PROMOTE or DEMOTE of one page by HLREQ that opens its migration. -/
theorem requestCommand_opens {a e : Nat} {n : BitVec 33} (ho : op = 3 ∨ op = 4) (hf : s.firmware = true) (h : MayServe s)
    (hr : s.hl.requests = []) (ha : s.hl.asked = none) (he : s.pageEntry page = some (a, e))
    (hmay : s.mayMove page = some (a, fieldOf e 16 33)) (hc : count = 0)
    (hl : s.liesIn (fieldOf e 16 33) (if op = 3 then some s.hl.lstack else none) = false)
    (hfree : s.freePage (if op = 3 then some s.hl.lstack else none) = some n) (hmem : s.hl.members = []) (hce : s.ce.busy = false)
    (hq : s.tile.queue = []) :
    let old := BitVec.ofNat 33 (fieldOf e 16 33)
    ∃ t, exec (requestCommand op count page) s = .next t ∧ t.hl.free = s.hl.free.erase n ∧ t.hl.begun = s.hl.begun + 1
      ∧ t.hl.requests = [{ requestOf op 0 page s.hl.lstack none with todo := [] }] ∧ t.ce.busy = true
      ∧ t.ce.src.toNat = old.toNat * 2 ^ 14 ∧ t.ce.dst.toNat = n.toNat * 2 ^ 14 ∧ t.ce.len = 16384
      ∧ ∃ m, t.hl.migrations = [m] ∧ m.page = page ∧ m.old = old ∧ m.new = n ∧ m.entry = a ∧ m.phase = .copy ∧ m.requested = true := by
  intro old
  have h1 : 1 ≤ op := by omega
  have h3 : 3 ≤ op := by omega
  have h4 : op ≤ 4 := by omega
  obtain ⟨hhl, hbusy, hsrc, hdst, hlen⟩ := request_opens (page := page) (sender := none) h4 h he h3 hmay hl hfree hmem hce hq
  refine ⟨_, requestCommand_served h1 h4 hf hr ha h.home hc, ?_⟩
  rw [hardwire_hl, hardwire_ce]
  have hreq : (requestOf op 0 page s.hl.lstack none).begun = { requestOf op 0 page s.hl.lstack none with todo := [] } :=
    congrArg (fun l => { requestOf op 0 page s.hl.lstack none with todo := List.drop 1 l }) (requestOf_todo ..)
  refine ⟨congrArg Haulage.free hhl, congrArg Haulage.begun hhl, (congrArg Haulage.requests hhl).trans (congrArg (fun r => [r]) hreq),
    hbusy, hsrc, hdst, hlen, s.freshMigration page a (fieldOf e 16 33) n true, ?_, rfl, rfl, rfl, rfl, if_pos hmem, rfl⟩
  exact (congrArg Haulage.migrations hhl).trans (congrArg (· ++ [s.freshMigration page a (fieldOf e 16 33) n true]) h.unopened)

/-- A doorbell with COUNT 0 asks for its one page. -/
theorem doorRequest_one {n : Nat} (hc : fieldOf n 64 8 = 0) : doorRequest n
    = requestOf (fieldOf n 44 4) 0 (doorPage n) (BitVec.ofNat 5 (fieldOf n 34 5)) (some (doorNode n, doorMig n)) := by
  rw [doorRequest, hc]

end

/-- Settles O48: HLREQ and a member's REQUEST are served by the same steps of the home, one page a step; only the answer differs. -/
theorem haulageRequests : Obligations.HaulageRequests := by
  intro s page count op
  refine ⟨fun h1 h4 hb => (requestCommand_exec h1 h4 s count page).trans (congrArg (answer s) (if_pos hb)),
    fun h1 h4 hb hf => ?_, fun h1 h4 hf hr ha hc hm hen => ?_, fun a e ho hf hm hen hr ha hc hg he hcount hq => ?_,
    fun a e ho hf hm hen hr ha hc hg he hmay hcount => ?_, fun d q m hf hd => ?_, fun hf m ha => memberRequestTimeout_asked hf ha,
    memberRequestTimeout_idle⟩
  · refine (requestCommand_exec h1 h4 s count page).trans (congrArg (answer s) ((hlRequest_joins h1 h4 hb ..).trans ?_))
    exact if_neg (ne_true_of_eq_false hf)
  · refine (requestCommand_exec h1 h4 s count page).trans (congrArg (answer s) ?_)
    rw [hlRequest_served h1 h4 hf hr ha (.inr hen), pump_disabled hc hm hen, withRequests_self hr]
    rfl
  · exact requestCommand_pin ho hf ⟨hm, hen, hc, hg⟩ hr ha he hcount hq
  · have h : MayServe s := ⟨hm, hen, hc, hg⟩
    have h1 : 1 ≤ op := by omega
    have h3 : 3 ≤ op := by omega
    have h4 : op ≤ 4 := by omega
    have hold : (BitVec.ofNat 33 (fieldOf e 16 33)).toNat = fieldOf e 16 33 := by
      rw [BitVec.toNat_ofNat]
      exact Nat.mod_eq_of_lt (Nat.mod_lt _ (by decide))
    have hy := requestCommand_served (page := page) h1 h4 hf hr ha hm hcount
    intro dest old
    rw [show old.toNat = fieldOf e 16 33 from hold]
    refine ⟨fun hl => ?_, fun hl hfree => ?_, fun n hl hfree hmem hce hq => ?_⟩
    · rw [request_lies h4 h he h3 hmay hl, withRequests_self hr] at hy
      exact hy
    · rw [request_noPage h4 h he h3 hmay hl hfree, withRequests_self hr] at hy
      exact hy
    · subst hcount
      rw [← hold]
      exact requestCommand_opens ho hf h hr ha he hmay rfl hl hfree hmem hce hq
  · intro n t answer'
    have ht7 : fieldOf n 60 4 = 7 → s.takeDoor 7 = some (t, n) := fun h => takeDoor_taken hf hd h (by decide) (by decide)
    have ht8 : fieldOf n 60 4 = 8 → s.takeDoor 8 = some (t, n) := fun h => takeDoor_taken hf hd h (by decide) (by decide)
    refine ⟨fun h7 hm => request_atMember (ht7 h7) hm, fun h7 hm ho => request_reserved (ht7 h7) hm ho,
      fun h7 hm h1 h4 hr hc hg hen => ?_, fun a e h7 hm h1 h4 hr hc hg hen hcount he => ⟨fun h3 hmay hl => ?_, fun h2 hq => ?_⟩,
      fun h7 hm h1 h4 hr hc hg hen hcount he => ?_, fun h8 ha hmig hn hm => ?_, fun h8 ha hg => ack_unasked (ht8 h8) ha hg⟩
    · have hy := request_atHome (ht7 h7) hm h1 h4 hr
      rw [pump_disabled (s := t) hc hg hen, withRequests_self (s := t) hr] at hy
      exact hy
    · have hy := request_atHome (ht7 h7) hm h1 h4 hr
      rw [doorRequest_one hcount, request_lies (s := t) h4 ⟨hm, hen, hc, hg⟩ he h3 hmay hl, withRequests_self (s := t) hr] at hy
      exact hy
    · have hy := request_atHome (ht7 h7) hm h1 h4 hr
      obtain ⟨x, ts, hp⟩ := request_pin (s := t) (stack := BitVec.ofNat 5 (fieldOf n 34 5)) (sender := some (doorNode n, doorMig n)) h4
        ⟨hm, hen, hc, hg⟩ he (by omega) hq
      rw [doorRequest_one hcount, hp] at hy
      obtain ⟨x', hinv⟩ := invalidateAll_idle (s := t) hq (doorPage n)
      refine ⟨_, hy, rfl, rfl, ?_, ?_⟩
      · rw [editEntry_performAll_mem hq]
        exact congrArg Mem.drain (editEntry_mem_frame s s.hl { s.win with dbin := q } ..)
      · rw [hinv]
        rfl
    · have hy := request_atHome (ht7 h7) hm h1 h4 hr
      rw [doorRequest_one hcount, request_unmapped (s := t) ⟨hm, hen, hc, hg⟩ he, withRequests_self (s := t) hr] at hy
      exact hy
    · subst hmig
      exact ack_ofHome (ht8 h8) ha hn hm

end Sys2Proof.Machine
end

section
/-! ## Migrations and the epoch (12 R265, R266, R268, R269, R272) -/

namespace Sys2Proof.Machine

section
variable {s : State} {m : Migration}

/-! ### The end of a migration without members (12 R265 step 11, R268) -/

/-- One migration is open at a home without members, and no request or choice waits. -/
structure OnlyMigration (s : State) (m : Migration) : Prop where
  opened : s.hl.migrations = [m]
  alone : s.hl.members = []
  unasked : s.hl.requests = []
  unchosen : s.hl.chosen = []

theorem OnlyMigration.of_mapOnly {t : State} (h : OnlyMigration s m) (k : MapOnly s t) : OnlyMigration t m := by
  obtain ⟨_, _, _, rfl⟩ := k
  exact ⟨h.opened, h.alone, h.unasked, h.unchosen⟩

/-- The state with its only migration replaced. -/
def State.withMigration (s : State) (m : Migration) : State := { s with hl := { s.hl with migrations := [m] } }

theorem setMig_only (h : OnlyMigration s m) {m' : Migration} (hid : m'.migid = m.migid) : s.setMig m' = s.withMigration m' := by
  unfold State.setMig
  rw [h.opened, List.map_cons, if_pos hid.symm]
  rfl

theorem OnlyMigration.withMigration (h : OnlyMigration s m) (m' : Migration) : OnlyMigration (s.withMigration m') m' :=
  ⟨rfl, h.alone, h.unasked, h.unchosen⟩

theorem dropMig_only (h : OnlyMigration s m) : s.dropMig m = { s with hl := { s.hl with migrations := [] } } := by
  unfold State.dropMig
  rw [h.opened, List.filter_cons_of_neg (by simp)]
  rfl

/-- The migration closes: it is counted, and its old page is free. -/
theorem closeMig_only (h : OnlyMigration s m) : ∃ x, s.closeMig m = { s with xl := x, hl := { s.hl with
    migrations := [], free := s.hl.free ++ [m.old], migs := s.hl.migs + 1 } } := by
  obtain ⟨x, e⟩ := retryPage_eq s m.page
  have hx : OnlyMigration { s with xl := x } m := ⟨h.opened, h.alone, h.unasked, h.unchosen⟩
  refine ⟨x, ?_⟩
  unfold State.closeMig
  rw [e, tellMembers_none hx.alone, dropMig_only hx]
  dsimp only
  rw [h.unasked]
  exact pump_idle rfl h.unchosen

/-- A notice changes HLNOTE alone. -/
theorem Haulage.noticed_eq (h : Haulage) (page : BitVec 33) (reason : Nat) : ∃ v q g r c, h.noticed page reason =
    { h with noteValid := v, noteSeq := q, notePage := g, noteReason := r, noteMissed := c } := by
  unfold Haulage.noticed
  split
  · exact ⟨h.noteValid, h.noteSeq, h.notePage, h.noteReason, _, rfl⟩
  · exact ⟨_, _, _, _, _, rfl⟩

/-- A notice captured while none was held. -/
theorem Haulage.noticed_free {h : Haulage} (hv : h.noteValid = false) (page : BitVec 33) (reason : Nat) :
    (h.noticed page reason).noteValid = true ∧ (h.noticed page reason).noteReason = BitVec.ofNat 3 reason
      ∧ (h.noticed page reason).notePage = page := by
  unfold Haulage.noticed
  rw [hv]
  exact ⟨rfl, rfl, rfl⟩

/-- Haulage once its only migration has ended aborted: it is counted, and its new page is free. -/
def Haulage.aborted (h : Haulage) (m : Migration) : Haulage :=
  { h with migrations := [], free := h.free ++ [m.new], aborts := satInc h.aborts }

/-- The migration ends aborted, and a notice tells the reason. -/
theorem closeAbort_only (h : OnlyMigration s m) : ∃ x b p, s.closeAbort m =
    { s with xl := x, bm := b, pwr := p, hl := (s.hl.aborted m).noticed m.page m.reason.toNat } := by
  obtain ⟨x, e⟩ := retryPage_eq s m.page
  have hx : OnlyMigration { s with xl := x } m := ⟨h.opened, h.alone, h.unasked, h.unchosen⟩
  obtain ⟨b, p, e'⟩ := notice_eq { s with xl := x, hl := s.hl.aborted m } m.page m.reason.toNat
  obtain ⟨_, _, _, _, _, hn⟩ := (s.hl.aborted m).noticed_eq m.page m.reason.toNat
  refine ⟨x, b, p, ?_⟩
  unfold State.closeAbort
  rw [e, dropMig_only hx]
  refine (congrArg State.pump e').trans (pump_idle ?_ ?_)
  · exact (congrArg Haulage.requests hn).trans h.unasked
  · exact (congrArg Haulage.chosen hn).trans h.unchosen

/-! ### Abort and copy done (12 R268, Table 12.2 steps 7 to 11) -/

/-- An abort of the only migration ends at once, the entry pointing at the old page. -/
theorem abortMig_only (h : OnlyMigration s m) (hq : s.tile.queue = []) (reason : Nat) :
    let t := s.abortMig m reason
    t.hl = (s.hl.aborted m).noticed m.page (BitVec.ofNat 3 reason).toNat ∧ t.mem = (s.editEntry m.entry (pointEntry m.old)).mem.drain
      ∧ t.ce = s.ce := by
  let m' : Migration := { m with phase := .abort, waits := m.waits ++ s.hl.members, reason := BitVec.ofNat 3 reason }
  obtain ⟨hmap, hmem⟩ := editEntry_s2inv_idle hq m.entry (pointEntry m.old) (some m.page)
  have hu := h.of_mapOnly hmap
  have hset := setMig_only hu (m' := m') rfl
  obtain ⟨x, b, p, hclose⟩ := closeAbort_only (hu.withMigration m')
  have habort : s.abortMig m reason = (((s.editEntry m.entry (pointEntry m.old)).s2inv (some m.page)).withMigration m').closeAbort m' := by
    unfold State.abortMig
    dsimp only
    rw [hset]
    exact if_pos (hu.withMigration m').alone
  obtain ⟨mm, x', ts, e⟩ := hmap
  rw [habort, hclose, ← hmem, e]
  exact ⟨rfl, rfl, rfl⟩

/-- A copy that ended well closes the only migration. -/
theorem copyDone_well (h : OnlyMigration s m) (hq : s.tile.queue = []) (hs : s.ce.status.toNat ≤ 1) :
    let t := s.copyDone m
    t.hl = { s.hl with migrations := [], free := s.hl.free ++ [m.old], migs := s.hl.migs + 1 } ∧ t.ce = s.ce := by
  let m' : Migration := { m with phase := .remap, waits := s.hl.members }
  have hmap := (editEntry_s2inv_idle hq m.entry (pointEntry m.new) (some m.page)).1.trans (invPage_mapOnly _ m.old.toNat)
  have hu := h.of_mapOnly hmap
  have hset := setMig_only hu (m' := m') rfl
  obtain ⟨x, hclose⟩ := closeMig_only (hu.withMigration m')
  obtain ⟨mm, x', ts, e⟩ := hmap
  have hdone : s.copyDone m
      = ((((s.editEntry m.entry (pointEntry m.new)).s2inv (some m.page)).invPage m.old.toNat).withMigration m').closeMig m' := by
    unfold State.copyDone
    rw [if_pos hs]
    dsimp only
    rw [show (((s.editEntry m.entry (pointEntry m.new)).s2inv (some m.page)).invPage m.old.toNat).hl.members = s.hl.members from by rw [e],
      hset]
    exact if_pos (hu.withMigration m').alone
  rw [hdone, hclose, e]
  exact ⟨rfl, rfl⟩

theorem copyDone_failed (hs : 2 ≤ s.ce.status.toNat) : s.copyDone m = s.abortMig m 3 := if_neg (by omega)

/-! ### The copy engine's completion (14 Table 14.9) -/

/-- CESTAT once an operation has ended. -/
def CopyEngine.finished (c : CopyEngine) (err : Bool) : CopyEngine :=
  { c with busy := false, valid := true, seq := c.seq + 1, status := if err then 4 else c.next }

theorem ceFinish_eq (hb : s.ce.busy = true) (hw : s.ce.waiting = none) (err : Bool) :
    ∃ i, s.ceFinish err = { s with ce := s.ce.finished err, dep := { s.dep with ipend := i } } := by
  have hgo : s.ceGoesOn = s := by
    unfold State.ceGoesOn
    rw [hw]
  have hends : ¬(!s.ce.busy || s.ce.waiting.isSome) = true := by
    rw [hb, hw]
    decide
  unfold State.ceFinish
  dsimp only
  rw [hgo, if_neg hends]
  split
  · exact ⟨_, rfl⟩
  · exact ⟨s.dep.ipend, rfl⟩

theorem startCopies_none (h : s.hl.migrations = []) : s.startCopies = s := by
  unfold State.startCopies
  rw [h]
  exact ite_self s

/-- Firmware goes on with the migration whose copy has ended. -/
theorem copyEngineCompletion_migration (hf : s.firmware = true) (hb : s.ce.busy = true) (hw : s.ce.waiting = none)
    (hm : s.hl.migrations = [m]) (hp : m.phase = .copy) (hsrc : s.ce.src.toNat = m.old.toNat * 2 ^ 14)
    (hdst : s.ce.dst.toNat = m.new.toNat * 2 ^ 14) (err : Bool) : ∃ i, Yields (.copyEngineCompletion err) s
      (State.copyDone { s with ce := s.ce.finished err, dep := { s.dep with ipend := i } } m).startCopies := by
  obtain ⟨i, e⟩ := ceFinish_eq hb hw err
  refine ⟨i, congrArg (answer s) ?_⟩
  have hgo : ¬(!(s.ceFinish err).firmware || (s.ceFinish err).ce.busy) = true := by
    rw [e]
    show ¬(!s.firmware || false) = true
    rw [hf]
    decide
  have hfind : (s.ceFinish err).hl.migrations.find? (fun m => decide (m.phase = .copy)
      && m.old.toNat * 2 ^ 14 == (s.ceFinish err).ce.src.toNat && m.new.toNat * 2 ^ 14 == (s.ceFinish err).ce.dst.toNat) = some m := by
    rw [e]
    simp [CopyEngine.finished, hm, hp, hsrc, hdst]
  rw [hb]
  dsimp only
  rw [if_neg (by decide), if_neg hgo, hfind, e]

/-! ### A migration's limit (12 R268) -/

theorem migrationTimeout_idle {id : BitVec 8} (h : s.firmware = false ∨ s.hl.migrations.find? (fun m => m.migid == id) = none) :
    Yields (.migrationTimeout id) s s := by
  refine congrArg (answer s) ?_
  rcases h with h | h
  · rw [h]
    rfl
  · rw [h]
    exact ite_self s

theorem migrationTimeout_aborts (hf : s.firmware = true) (hm : s.hl.migrations = [m]) (hp : m.phase = .copy) :
    Yields (.migrationTimeout m.migid) s (s.abortMig m 1) := by
  have hfind : s.hl.migrations.find? (fun x => x.migid == m.migid) = some m := by
    rw [hm]
    exact List.find?_cons_of_pos (beq_self_eq_true m.migid)
  have hn : ¬m.phase = .abort := by rw [hp]; decide
  refine congrArg (answer s) ?_
  rw [hf, hfind]
  exact if_neg hn

end

/-! ### The epoch (12 R270 to R272) -/

section
variable {s : State}

/-- Nothing but HLNOTE, the banksman's events and the wake latch differs. -/
def NotesOnly (s t : State) : Prop := ∃ b p v q g r c, t = { s with
  bm := b, pwr := p, hl := { s.hl with noteValid := v, noteSeq := q, notePage := g, noteReason := r, noteMissed := c } }

theorem notice_notesOnly {t : State} (h : NotesOnly s t) (page : BitVec 33) (reason : Nat) : NotesOnly s (t.notice page reason) := by
  obtain ⟨_, _, _, _, _, _, _, rfl⟩ := h
  obtain ⟨_, _, e⟩ := notice_eq _ page reason
  obtain ⟨_, _, _, _, _, hn⟩ := Haulage.noticed_eq _ page reason
  rw [e, hn]
  exact ⟨_, _, _, _, _, _, _, rfl⟩

theorem owedNotices_notesOnly (s : State) : NotesOnly s s.owedNotices :=
  List.foldlRecOn _ _ ⟨s.bm, s.pwr, _, _, _, _, _, rfl⟩ fun _ h _ _ => notice_notesOnly h 0 2

/-- An epoch starts with no migration begun and no choice. -/
def State.epochStart (s : State) : State := { s with hl := { s.hl with begun := 0, chosen := [] } }

theorem haulageEpoch_idle (h : s.firmware = false) : Yields .haulageEpoch s s :=
  congrArg (answer s) (if_pos (by rw [h]; rfl))

theorem haulageEpoch_firmware (hf : s.firmware = true) : Yields .haulageEpoch s
    (if s.isMember then s.epochStart.serveRequests.sendHints.agePass
     else
       let t := s.epochStart.owedNotices
       (if t.hen then t.choose else { t with hl := { t.hl with hints := [], owed := [] } }).pump.agePass) :=
  congrArg (answer s) (if_neg (by rw [hf]; decide))

/-- Whether haulage is enabled does not depend on notices. -/
theorem owedNotices_hen (s : State) : s.owedNotices.hen = s.hen := by
  obtain ⟨_, _, _, _, _, _, _, e⟩ := owedNotices_notesOnly s
  rw [e]
  rfl

theorem haulageEpoch_member (hf : s.firmware = true) (hm : s.isMember = true) :
    Yields .haulageEpoch s s.epochStart.serveRequests.sendHints.agePass := by
  have h := haulageEpoch_firmware hf
  rwa [if_pos hm] at h

theorem haulageEpoch_home (hf : s.firmware = true) (hm : s.isMember = false) (hen : s.hen = true) :
    Yields .haulageEpoch s s.epochStart.owedNotices.choose.pump.agePass := by
  have h := haulageEpoch_firmware hf
  rw [if_neg (ne_true_of_eq_false hm)] at h
  dsimp only at h
  rwa [if_pos ((owedNotices_hen s.epochStart).trans hen)] at h

/-- With haulage disabled a home makes no choice; with nothing to do for a request it ages the table. -/
theorem haulageEpoch_disabled (hf : s.firmware = true) (hm : s.isMember = false) (hen : s.hen = false) (hr : s.hl.requests = []) :
    Yields .haulageEpoch s (State.agePass { s.epochStart.owedNotices with hl :=
      { s.epochStart.owedNotices.hl with hints := [], owed := [] } }) := by
  have h := haulageEpoch_firmware hf
  rw [if_neg (ne_true_of_eq_false hm)] at h
  dsimp only at h
  rw [if_neg (ne_true_of_eq_false ((owedNotices_hen s.epochStart).trans hen)), pump_idle] at h
  · exact h
  all_goals
    obtain ⟨_, _, _, _, _, _, _, e⟩ := owedNotices_notesOnly s.epochStart
    rw [e]
  · exact hr
  · rfl

theorem agePass_begins (h : s.hl.aging = false) : s.agePass = { s with hl := { s.hl with aging := true, aged := 0 } } :=
  if_neg (ne_true_of_eq_false h)

end

/-! ### The statement -/

/-- Settles O49: the home's work on its only migration ends with it, closed or aborted; the epoch by HOME and HEN. -/
theorem migrations : Obligations.Migrations := by
  intro s id err
  refine ⟨fun hf => ⟨haulageEpoch_idle hf, migrationTimeout_idle (.inl hf)⟩, fun _ hm => migrationTimeout_idle (.inr hm),
    fun hb => congrArg (answer s) (if_pos (by rw [hb]; rfl)), fun hf => ⟨haulageEpoch_member hf, haulageEpoch_home hf⟩,
    fun hf hm hen hg hr ha => ?_, fun m hf hg hid hp hmem hr hc hq => ⟨fun hb hw hsrc hdst => ⟨fun hs => ?_, fun hs => ?_⟩, ?_⟩⟩
  · refine ⟨_, haulageEpoch_disabled hf hm hen hr, ?_⟩
    obtain ⟨_, _, _, _, _, _, _, e⟩ := owedNotices_notesOnly s.epochStart
    rw [e, agePass_begins (by exact ha)]
    exact ⟨rfl, rfl, rfl, rfl, hg⟩
  · obtain ⟨i, hy⟩ := copyEngineCompletion_migration hf hb hw hg hp hsrc hdst err
    obtain ⟨hhl, hce⟩ := copyDone_well (s := { s with ce := s.ce.finished err, dep := { s.dep with ipend := i } })
      ⟨hg, hmem, hr, hc⟩ hq hs
    rw [startCopies_none (congrArg Haulage.migrations hhl)] at hy
    refine ⟨_, hy, ?_⟩
    rw [hardwire_hl, hardwire_ce, hhl, hce]
    exact ⟨rfl, rfl, rfl, rfl, rfl, rfl⟩
  · obtain ⟨i, hy⟩ := copyEngineCompletion_migration hf hb hw hg hp hsrc hdst err
    rw [copyDone_failed hs] at hy
    obtain ⟨hhl, -, -⟩ := abortMig_only (s := { s with ce := s.ce.finished err, dep := { s.dep with ipend := i } })
      ⟨hg, hmem, hr, hc⟩ hq 3
    obtain ⟨_, _, _, _, _, hn⟩ := (s.hl.aborted m).noticed_eq m.page 3
    have hhl' := hhl.trans hn
    rw [startCopies_none (congrArg Haulage.migrations hhl')] at hy
    refine ⟨_, hy, congrArg Haulage.migrations hhl', congrArg Haulage.aborts hhl', congrArg Haulage.free hhl', fun hv => ?_⟩
    rw [hardwire_hl, hhl]
    exact Haulage.noticed_free (h := s.hl.aborted m) hv m.page 3
  · subst hid
    obtain ⟨hhl, hmm, -⟩ := abortMig_only ⟨hg, hmem, hr, hc⟩ hq 1
    obtain ⟨_, _, _, _, _, hn⟩ := (s.hl.aborted m).noticed_eq m.page 1
    have hhl' := hhl.trans hn
    refine ⟨_, migrationTimeout_aborts hf hg hp, congrArg Haulage.migrations hhl', congrArg Haulage.aborts hhl', ?_, fun hv => ?_⟩
    · rw [editEntry_performAll_mem hq]
      exact hmm
    · rw [hardwire_hl, hhl]
      exact Haulage.noticed_free (h := s.hl.aborted m) hv m.page 1

end Sys2Proof.Machine
end

section
/-! ## Sync objects: the instructions, record writes, remote posts and parked waiters (13 R279 to R288) -/

namespace Sys2Proof.Machine

/-! ### Records (13 R278) -/

section
variable {s u : State}

/-- The record just written, the records being in canonical form. -/
theorem obj_setObj_self (h : smWf SyncObj.zero 0 s.sy.objs = true) (n : BitVec 13) (o : SyncObj) : (s.setObj n o).obj n = o :=
  smGet_smSet_self n.toNat o h

theorem sodataWrite_ignored (h : s.sy.selPk = true) (v : Word) : Yields (.sodataWrite v) s s := congrArg (answer s) (if_pos h)

theorem sodataWrite_yields (h : s.sy.selPk = false) (v : Word) :
    Yields (.sodataWrite v) s (s.setObj s.sy.selObj ((s.obj s.sy.selObj).setWord s.sy.selWord.toNat v)) :=
  congrArg (answer s) (if_neg (ne_true_of_eq_false h))

/-! ### The instructions (13 R280 to R282) -/

theorem performAll_free (h : s.drainStores.tileStuck = false) : s.performAll = s.drainStores.drainTile :=
  if_neg (ne_true_of_eq_false h)

section
variable {rd ra rb : RegIx} (h : Issues s u)
include h

/-- POST acts once every earlier access is performed. -/
theorem post_completes {t : State} (hst : u.drainStores.tileStuck = false)
    (hw : u.performAll.postWaits (nameObj (u.performAll.readG ra)) = false)
    (ht : u.performAll.post (u.performAll.readG ra) (u.performAll.readG rb) u.performAll.super = .ok t) : Completes (.post ra rb 0) s t := by
  refine completes_of_done h rfl ((guardRsv_true ..).trans ((afterTile_free hst _).trans ?_))
  rw [performAll_free hst] at hw ht
  simp only [ht, hw, Bool.false_eq_true, and_false, if_false]

section
variable (hc : u.checkLocalOp (u.readG ra) u.super false = none)
include hc

theorem wait_ready (hr : (u.obj (nameObj (u.readG ra))).ready = true) :
    Completes (.wait ra 0) s (u.setObj (nameObj (u.readG ra)) (u.obj (nameObj (u.readG ra))).takeOne).acquire :=
  completes_of_done h rfl ((guardRsv_true ..).trans (by simp only [hc, hr, if_true]))

theorem trywait_ready (hr : (u.obj (nameObj (u.readG ra))).ready = true) : Completes (.trywait rd ra 0) s
    ((u.setObj (nameObj (u.readG ra)) (u.obj (nameObj (u.readG ra))).takeOne).acquire.writeG rd 1) :=
  completes_of_done h rfl ((guardRsv_true ..).trans (by simp only [hc, hr, if_true]))

theorem trywait_unready (hr : (u.obj (nameObj (u.readG ra))).ready = false) : Completes (.trywait rd ra 0) s (u.writeG rd 0) :=
  completes_of_done h rfl ((guardRsv_true ..).trans (by simp only [hc, hr, Bool.false_eq_true, if_false]))

theorem completes_arm : Completes (.arm ra rb 0) s
    (u.setObj (nameObj (u.readG ra)) ((u.obj (nameObj (u.readG ra))).arm ((u.readG rb).setWidth 32))) :=
  completes_of_done h rfl ((guardRsv_true ..).trans (by simp only [hc]))

end

theorem read_completes (hc : u.checkLocalOp (u.readG ra) u.super true = none) :
    Completes (.read rd ra 0) s (u.writeG rd (u.obj (nameObj (u.readG ra))).count) :=
  completes_of_done h rfl ((guardRsv_true ..).trans (by simp only [hc]))

/-- An operation that an object does not admit raises cause 21 with the reason (Table 13.3). -/
theorem syncOp_refused {r : Nat} (hc : u.checkLocalOp (u.readG ra) u.super false = some (.reason r)) :
    let e : Exc := { cause := 21, eaddr := u.readG ra, einfo := wd r }
    Traps (.wait ra 0) s u e ∧ Traps (.trywait rd ra 0) s u e ∧ Traps (.arm ra rb 0) s u e := by
  refine ⟨traps_of_exc h rfl ((guardRsv_true ..).trans ?_), traps_of_exc h rfl ((guardRsv_true ..).trans ?_),
    traps_of_exc h rfl ((guardRsv_true ..).trans ?_)⟩
  all_goals simp only [hc, SoFail.exc]

end

/-! ### Dropped and remote posts (13 R286 to R288) -/

/-- A dropped post changes no object; it is counted, and captured where nothing is. -/
theorem dropPost_sy (s : State) (reason : Nat) (src : BitVec 24) (n : BitVec 13) :
    let y := (s.dropPost reason src n).sy
    y.objs = s.sy.objs ∧ y.drops = s.sy.drops + 1 ∧ y.errValid = true ∧ (s.sy.errValid = false → y.errObj = n ∧ y.errSrc = src) := by
  simp only [State.dropPost]
  cases hv : s.sy.errValid with
  | true => exact ⟨rfl, rfl, rfl, fun hf => nomatch hf⟩
  | false => exact ⟨rfl, rfl, rfl, fun _ => ⟨rfl, rfl⟩⟩

/-- The name in a POST packet. -/
def postName (p : Packet) : Word := wd ((packetWord p 0).toNat % 2 ^ 37)

section
variable {p : Packet} (hb : s.fab.bad = false) (ht : (packetWord p 0).toNat / 2 ^ 60 = 1)
include hb ht

theorem remotePost_elsewhere (hn : nameNode (postName p) ≠ s.straps.nodeId) :
    Yields (.remotePost p) s (s.dropPost 4 ((packetWord p 2).setWidth 24) (nameObj (postName p))) :=
  congrArg (answer s) ((received_good hb _).trans ((if_neg (not_not.2 ht)).trans (if_pos hn)))

/-- A post for this node goes by the checks of its object. -/
theorem remotePost_here (hn : nameNode (postName p) = s.straps.nodeId) :
    Yields (.remotePost p) s (match s.checkObj (nameObj (postName p)) ((packetWord p 0).getLsbD 56) with
      | some .poison => s.dropPost 9 ((packetWord p 2).setWidth 24) (nameObj (postName p))
      | some (.reason r) => s.dropPost r ((packetWord p 2).setWidth 24) (nameObj (postName p))
      | none => if s.postWaits (nameObj (postName p)) then s
                else s.postObj (nameObj (postName p)) (packetWord p 1) ((packetWord p 2).setWidth 24)) :=
  congrArg (answer s) ((received_good hb _).trans ((if_neg (not_not.2 ht)).trans (if_neg (not_not.2 hn))))

end

/-! ### Parked waiters (13 R283) -/

/-- Where no waiter is parked, or the ready list is full, none is taken. -/
theorem takeParked_none (h : s.sy.parked = [] ∨ 64 ≤ s.bm.ready.length) : s.takeParked = none := by
  rcases h with h | h
  · simp only [State.takeParked, h, List.find?_nil, ite_self]
  · exact if_pos (.inl h)

theorem takeAllParked_stops (h : s.takeParked = none) (n : Nat) : s.takeAllParked n = s := by
  cases n with
  | zero => rfl
  | succ n => simp only [State.takeAllParked, h]

theorem takeAllParked_goes {t : State} (h : s.takeParked = some t) (n : Nat) : s.takeAllParked (n + 1) = t.takeAllParked n := by
  simp only [State.takeAllParked, h]

theorem parkedWaiterTake_idle (h : s.sy.parked = [] ∨ 64 ≤ s.bm.ready.length) : Yields .parkedWaiterTake s s :=
  congrArg (answer s) (takeAllParked_stops (takeParked_none h) 64)

/-- An entry that joins the ready list leaves the objects and the parked waiters. -/
theorem addReady_joins (h : s.bm.ready.length < 64) (e : ReadyEntry) : ∃ c ph, s.addReady e = { s with
    core := c, bm := { s.bm with ready := s.bm.ready ++ [e] }, sy := { s.sy with phase := ph } } :=
  ⟨_, _, if_neg (Nat.not_le.2 h)⟩

/-- The ready-list entry of a waiter: its TSB and the sub-priority held there. -/
def State.waiterEntry (s : State) (k : Parked) : ReadyEntry :=
  { tsb := k.tsb, subpri := BitVec.ofNat 4 (s.mem.readNat (tsbAddr k.tsb + 0x150) 8 / 16), tilewait := false }

/-- The state in which a counter's waiter has taken from it and none is parked. -/
def State.counterTaken (s : State) (n : BitVec 13) : State :=
  { s with sy := { (s.setObj n (s.obj n).takeOne).sy with parked := [] } }

/-- The only parked waiter, its counter ready, is taken. -/
theorem takeParked_counter {k : Parked} (hp : s.sy.parked = [k]) (hr : s.bm.ready.length < 64) (hm : s.core.mode = .run)
    (hk : s.mayTake k = true) (ho : (s.obj k.obj).mode = 1) :
    s.takeParked = some ((s.counterTaken k.obj).addReady (s.waiterEntry k)) := by
  have hf : s.sy.parked.find? s.mayTake = some k := by
    rw [hp]
    exact List.find?_cons_of_pos hk
  have hg : ¬(64 ≤ s.bm.ready.length ∨ s.core.mode = .held) := by simp [hm, hr]
  unfold State.takeParked
  simp only [if_neg hg, hf, if_pos ho]
  simp only [State.setObj, hp, List.erase_cons_head]
  rfl

end

/-! ### The statement -/

/-- Settles O22: the instructions by the check of their object, a remote post by its name and the checks, a parked waiter by its counter. -/
theorem syncObjectOperations : Obligations.SyncObjectOperations := by
  refine ⟨fun s u rd ra rb h => ⟨fun hst hw t => post_completes h hst hw,
      fun hc => ⟨fun hr => ⟨wait_ready h hc hr, trywait_ready h hc hr⟩, trywait_unready h hc, completes_arm h hc⟩,
      read_completes h, fun r => syncOp_refused h⟩,
    fun s v p => ⟨fun hk => sodataWrite_ignored hk v, fun hk => sodataWrite_yields hk v, rfl,
      fun hb => ⟨fun ht hn => ⟨fun hc hw => ?_, fun hc hw => ?_, fun f hc => ?_⟩, fun ht hn => ?_⟩,
      fun hp => parkedWaiterTake_idle (.inl hp), fun hr => parkedWaiterTake_idle (.inr hr), fun k hp hr hm hk ho hwf => ?_⟩⟩
  · have hy := remotePost_here hb ht hn
    simp only [postName, hc, hw, Bool.false_eq_true, if_false] at hy
    exact hy
  · have hy := remotePost_here hb ht hn
    simp only [postName, hc, hw, if_true] at hy
    exact hy
  · have hy := remotePost_here hb ht hn
    simp only [postName, hc] at hy
    cases f with
    | reason r => exact ⟨_, hy, dropPost_sy ..⟩
    | poison => exact ⟨_, hy, dropPost_sy ..⟩
  · obtain ⟨ho, hd, -⟩ := dropPost_sy s 4 ((packetWord p 2).setWidth 24) (nameObj (postName p))
    exact ⟨_, remotePost_elsewhere hb ht hn, ho, hd⟩
  · have hs := takeParked_counter hp hr hm hk ho
    obtain ⟨c, ph, ha⟩ := addReady_joins (s := s.counterTaken k.obj) hr (s.waiterEntry k)
    rw [ha] at hs
    have hy : Yields .parkedWaiterTake s _ :=
      congrArg (answer s) ((takeAllParked_goes hs 63).trans (takeAllParked_stops (takeParked_none (.inl rfl)) 63))
    exact ⟨_, hy, rfl, obj_setObj_self hwf k.obj _, s.waiterEntry k, rfl, rfl, rfl⟩

end Sys2Proof.Machine
end

section
/-! SUPPORT. What a read at the memory port and a walk of the tables leave of the state (03 R66, 04 R95, 11 R257). -/

namespace Sys2Proof.Machine

/-! ### Reads (03 R66, 11 R257) -/

/-- `t` is `s` after reads: at most the read request at the memory port, the counts of tile-store reads and what they draw and raise differ. -/
def Fetched (s t : State) : Prop := ∃ q w d f, t = { s with mem := { s.mem with mrq := q }, win := w, dep := d, free := f }

theorem Fetched.refl (s : State) : Fetched s s := ⟨_, _, _, _, rfl⟩

theorem Fetched.trans {s t u : State} (h : Fetched s t) (k : Fetched t u) : Fetched s u := by
  obtain ⟨_, _, _, _, rfl⟩ := h
  obtain ⟨_, _, _, _, rfl⟩ := k
  exact ⟨_, _, _, _, rfl⟩

theorem Fetched.sameMemory {s t : State} (h : Fetched s t) : SameMemory s t := by
  obtain ⟨_, _, _, _, rfl⟩ := h
  rfl

theorem storeRead_fetched (s : State) (pa : Nat) : Fetched s (s.storeRead pa) := by
  unfold State.storeRead
  dsimp only
  split
  · exact ⟨_, _, _, _, rfl⟩
  · obtain ⟨_, e⟩ := countShadows_eq (State.drawn { s with win := { s.win with
      d2dreads := s.win.d2dreads.set (storeChannel pa) (s.win.d2dreads[storeChannel pa] + 1) } }) (storeChannel pa)
      [(Config.shadowFail (2 * s.free), Config.shadowFail (2 * s.free + 1))]
    exact ⟨_, _, _, _, e⟩

theorem portRead_fetched (s : State) (src : BitVec 3) (sec : Bool) (ty : MemType) (pa n : Nat) :
    Fetched s (s.portRead src sec ty pa n) := by
  have hc (x : State) (hx : Fetched s x) : Fetched s (if (lineFind (pa / 64) s.mem.cache).isSome then s
      else if (lineFind (pa / 64) s.mem.tsc).isSome then s.storeRead pa else x) := by
    split
    · exact .refl s
    · split
      · exact storeRead_fetched ..
      · exact hx
  unfold State.portRead
  dsimp only
  split
  · split
    · exact .refl s
    · exact storeRead_fetched ..
  · cases ty with
    | uncached | device => exact ⟨_, _, _, _, rfl⟩
    | cached | scratch => exact hc _ ⟨_, _, _, _, rfl⟩

/-! ### Stage-2 walks (04 R95) -/

/-- `t` is `s` after a walk: at most translation, memory, the counts of tile-store reads and what they draw and raise differ. -/
def Walked (s t : State) : Prop := ∃ f x m w d, t = { s with free := f, xl := x, mem := m, win := w, dep := d }

theorem Walked.refl (s : State) : Walked s s := ⟨_, _, _, _, _, rfl⟩

theorem Walked.trans {s t u : State} (h : Walked s t) (k : Walked t u) : Walked s u := by
  obtain ⟨_, _, _, _, _, rfl⟩ := h
  obtain ⟨_, _, _, _, _, rfl⟩ := k
  exact ⟨_, _, _, _, _, rfl⟩

theorem Fetched.walked {s t : State} (h : Fetched s t) : Walked s t := by
  obtain ⟨_, _, _, _, rfl⟩ := h
  exact ⟨_, _, _, _, _, rfl⟩

theorem Walked.hl {s t : State} (h : Walked s t) : t.hl = s.hl := by
  obtain ⟨_, _, _, _, _, rfl⟩ := h
  rfl

theorem Walked.bm {s t : State} (h : Walked s t) : t.bm = s.bm := by
  obtain ⟨_, _, _, _, _, rfl⟩ := h
  rfl

theorem tecLookup_walked (s : State) (stage2 : Bool) (addr : Nat) : Walked s (s.tecLookup stage2 addr).1 := by
  unfold State.tecLookup
  split
  · exact .refl s
  · exact ⟨_, _, _, _, _, rfl⟩

theorem updateEntry_walked {s t : State} {pa old new : Nat} (h : s.updateEntry pa old new = some t) : Walked s t := by
  unfold State.updateEntry at h
  split at h
  · obtain rfl := Option.some.inj h
    exact .refl s
  · split at h
    · obtain rfl := Option.some.inj h
      exact ⟨_, _, _, _, _, rfl⟩
    · cases h

theorem walk2_walked (s : State) (ia : Nat) (need : S2Need) (table : Nat) (levels : List Nat) :
    Walked s (s.walk2 ia need table levels).state := by
  induction levels generalizing s table with
  | nil => exact .refl s
  | cons lvl rest ih =>
    have hp : Walked s (if lvl < 2 then s.tecLookup true (table + 8 * fieldOf ia (36 - 11 * lvl) 11) else (s, none)).1 := by
      split
      · exact tecLookup_walked ..
      · exact .refl s
    unfold State.walk2
    dsimp only
    split
    · exact .refl s
    · split
      · exact .refl s
      · generalize (if lvl < 2 then s.tecLookup true (table + 8 * fieldOf ia (36 - 11 * lvl) 11) else (s, none)) = p at hp ⊢
        obtain ⟨u, cached⟩ := p
        have hv : Walked s (if cached.isNone then u.portRead 2 true .cached (table + 8 * fieldOf ia (36 - 11 * lvl) 11) 8 else u) := by
          split
          · exact hp.trans (portRead_fetched ..).walked
          · exact hp
        dsimp only
        generalize (if cached.isNone then u.portRead 2 true .cached (table + 8 * fieldOf ia (36 - 11 * lvl) 11) 8 else u) = v at hv ⊢
        split
        · exact hv
        · split
          · exact hv
          · split
            · exact hv.trans (Walked.trans ⟨_, _, _, _, _, rfl⟩ (ih _ _))
            · split
              · exact hv
              · split
                · exact hv
                · next h => exact hv.trans (updateEntry_walked h)

theorem stage2_walked (s : State) (ia : Nat) (need : S2Need) : Walked s (s.stage2 ia need).state := by
  unfold State.stage2
  split
  · exact walk2_walked ..
  · exact .refl s

end Sys2Proof.Machine
end

section
/-! ## Task take (13 R289, 12 R273, R274) -/

namespace Sys2Proof.Machine

/-! ### Scoring leaves haulage and the banksman (12 R274) -/

theorem walkPeek_walked (s : State) (ia : Nat) : Walked s (s.walkPeek ia).1 := by
  have h := stage2_walked s ia { kind := .load, s1walk := false, ad := false }
  unfold State.walkPeek
  split
  all_goals
    next he =>
      rw [he] at h
      exact h.trans ⟨_, _, _, _, _, rfl⟩

theorem peekStage2_walked (s : State) (ia : Nat) : Walked s (s.peekStage2 ia).1 := by
  have hd : Walked s s.drawn := ⟨_, _, _, _, _, rfl⟩
  unfold State.peekStage2
  split
  · split
    · exact hd
    · exact hd.trans (walkPeek_walked ..)
  · exact walkPeek_walked ..

theorem countLocal_walked (s : State) (l : List Nat) : Walked s (s.countLocal l).1 := by
  induction l generalizing s with
  | nil => exact .refl s
  | cons p t ih => exact (peekStage2_walked s _).trans (ih _)

theorem score_walked (s : State) (desc : Nat) : Walked s (s.score desc).1 := by
  have h := peekStage2_walked s desc
  unfold State.score
  dsimp only
  split
  · exact .refl s
  · split
    · exact h
    · split
      · exact h
      · exact h.trans (countLocal_walked ..)

/-- The state in which the refusals counted are those of this object. -/
def State.examining (s : State) (name : BitVec 37) : State :=
  if s.sy.lastObj = some name then s else { s with sy := { s.sy with lastObj := some name, refused := 0 } }

theorem examining_keeps (s : State) (name : BitVec 37) : (s.examining name).hl = s.hl ∧ (s.examining name).bm = s.bm := by
  unfold State.examining
  split <;> exact ⟨rfl, rfl⟩

theorem judge_eq (s : State) (name : BitVec 37) (desc : Nat) :
    s.judge name desc =
      let x := (s.examining name).score desc
      if x.1.hl.thr.toNat ≤ x.2 ∨ x.1.hl.reflim.toNat ≤ x.1.sy.refused then ({ x.1 with hl := { x.1.hl with takes := x.1.hl.takes + 1 } }, true)
      else ({ x.1 with sy := { x.1.sy with refused := x.1.sy.refused + 1 }, hl := { x.1.hl with refusals := x.1.hl.refusals + 1 } }, false) :=
  rfl

/-- A scoring counts as a take or as a refusal, as it is judged, and leaves the banksman. -/
theorem judge_counts (s : State) (name : BitVec 37) (desc : Nat) : (s.judge name desc).1.bm.ready = s.bm.ready
    ∧ ((s.judge name desc).2 = true →
      (s.judge name desc).1.hl.takes = s.hl.takes + 1 ∧ (s.judge name desc).1.hl.refusals = s.hl.refusals)
    ∧ ((s.judge name desc).2 = false →
      (s.judge name desc).1.hl.refusals = s.hl.refusals + 1 ∧ (s.judge name desc).1.hl.takes = s.hl.takes) := by
  obtain ⟨hh, hb⟩ := examining_keeps s name
  have hw := score_walked (s.examining name) desc
  rw [judge_eq, ← hh, ← hb, ← hw.hl, ← hw.bm]
  dsimp only
  split
  · exact ⟨rfl, fun _ => ⟨rfl, rfl⟩, fun h => absurd h.symm Bool.false_ne_true⟩
  · exact ⟨rfl, fun h => absurd h Bool.false_ne_true, fun _ => ⟨rfl, rfl⟩⟩

/-! ### The start of a take -/

section
variable {s : State}

theorem taskTake_barred (h : s.takeRuns = false) : Yields .taskTake s s :=
  congrArg (answer s) (if_neg (by simp only [h, Bool.false_and, Bool.false_eq_true, not_false_eq_true]))

theorem taskTake_starts (h : s.takeRuns = true) (hp : s.sy.phase = .idle) : Yields .taskTake s s.startTake :=
  congrArg (answer s) (if_pos (by simp only [h, hp, decide_true, Bool.and_self]))

theorem takeRetryWait_ends (h : s.takeRuns = false) (hp : s.sy.phase = .waiting) : Yields .takeRetryWait s (s.takePhase .idle) :=
  congrArg (answer s) ((if_pos hp).trans (if_neg (ne_true_of_eq_false h)))

theorem takeRetryWait_starts (h : s.takeRuns = true) (hp : s.sy.phase = .waiting) : Yields .takeRetryWait s s.startTake :=
  congrArg (answer s) ((if_pos hp).trans (if_pos h))

theorem takeRetryWait_elsewhere (hp : s.sy.phase ≠ .waiting) : Yields .takeRetryWait s s := congrArg (answer s) (if_neg hp)

theorem startTake_remote (h : nameNode (s.sy.takeObj.setWidth 64) ≠ s.straps.nodeId) :
    s.startTake = (s.sendPacket 5 (s.takePacket (nameNode (s.sy.takeObj.setWidth 64)) 2 s.sy.takeObj
      { TakeReply.refused with status := 0 })).takePhase (.peeked s.sy.takeObj) := if_neg h

theorem startTake_nothing (h : nameNode (s.sy.takeObj.setWidth 64) = s.straps.nodeId)
    (hr : (s.peekObj (s.sy.takeObj.setWidth 13) true).status ≠ 0) : s.startTake = s.takePhase .waiting := (if_pos h).trans (if_pos hr)

/-- The take of an object starts on TASK_TAKE, or at the end of its wait. -/
theorem take_starts (h : s.takeRuns = true) (hp : s.sy.phase = .idle ∨ s.sy.phase = .waiting) :
    Yields (if s.sy.phase = .idle then .taskTake else .takeRetryWait) s s.startTake := by
  rcases hp with hp | hp
  · rw [if_pos hp]
    exact taskTake_starts h hp
  · rw [if_neg (by simp only [hp, reduceCtorEq, not_false_eq_true])]
    exact takeRetryWait_starts h hp

/-! ### Replies (R289 steps 2 to 4) -/

section
variable {p : Packet} (hb : s.fab.bad = false)
include hb

theorem peekreply_unawaited (h : s.sy.phase ≠ .peeked (packetName p)) : Yields (.peekreply p) s s :=
  congrArg (answer s) ((received_good hb _).trans (if_neg h))

theorem peekreply_refused (h : s.sy.phase = .peeked (packetName p)) (hr : (packetReply p).status ≠ 0) :
    Yields (.peekreply p) s (s.takePhase .waiting) :=
  congrArg (answer s) ((received_good hb _).trans ((if_pos h).trans (if_pos hr)))

/-- An entry is scored, and taken where it qualifies. -/
theorem peekreply_judged (h : s.sy.phase = .peeked (packetName p)) (hr : (packetReply p).status = 0) {j : State × Bool}
    (hj : s.judge (packetName p) (packetReply p).desc = j) : Yields (.peekreply p) s (if j.2 then
      (j.1.sendPacket 5 (j.1.takePacket (nameNode ((packetName p).setWidth 64)) 4 (packetName p)
        { packetReply p with entry := 0, desc := 0 })).takePhase (.taking (packetName p) (packetReply p).seq)
      else j.1.takePhase .waiting) := by
  subst hj
  exact congrArg (answer s) ((received_good hb _).trans ((if_pos h).trans (if_neg (not_not.2 hr))))

theorem takereply_unawaited (h : ∀ q, s.sy.phase ≠ .taking (packetName p) q) : Yields (.takereply p) s s := by
  refine congrArg (answer s) ((received_good hb _).trans ?_)
  dsimp only
  split
  · next obj q hp =>
    refine if_neg fun ho => h q ?_
    rw [hp, ho]
  · rfl

variable {q : BitVec 32} (h : s.sy.phase = .taking (packetName p) q)
include h

theorem takereply_awaited : Yields (.takereply p) s (if (packetReply p).status = 0 then s.accept (packetReply p).entry
    else if (packetReply p).status = 2 then (if s.takeRuns then s.startTake else s.takePhase .idle)
    else s.takePhase .waiting) := by
  refine congrArg (answer s) ((received_good hb _).trans ?_)
  simp only [h, if_true]

theorem takereply_accepted (hr : (packetReply p).status = 0) : Yields (.takereply p) s (s.accept (packetReply p).entry) := by
  have hy := takereply_awaited hb h
  rwa [if_pos hr] at hy

theorem takereply_changed (hr : (packetReply p).status = 2) (ht : s.takeRuns = false) : Yields (.takereply p) s (s.takePhase .idle) := by
  have hy := takereply_awaited hb h
  rwa [if_neg (by omega), if_pos hr, if_neg (ne_true_of_eq_false ht)] at hy

theorem takereply_failed (h0 : (packetReply p).status ≠ 0) (h2 : (packetReply p).status ≠ 2) :
    Yields (.takereply p) s (s.takePhase .waiting) := by
  have hy := takereply_awaited hb h
  rwa [if_neg h0, if_neg h2] at hy

end

/-- A taken entry ends the take; its TSB joins the ready list. -/
theorem accept_eq (h : s.bm.ready.length < 64) (e : Word) : ∃ c n, s.accept e = { s with
    core := c
    bm := { s.bm with ready := s.bm.ready ++
      [{ tsb := BitVec.ofNat 37 (e.toNat / 1024), subpri := BitVec.ofNat 4 e.toNat, tilewait := false }] }
    sy := { s.sy with refused := n, phase := .idle } } := by
  exact ⟨_, _, if_neg (Nat.not_le.2 h)⟩

/-! ### The object's unit (R289 steps 1 and 3) -/

section
variable {p : Packet} (hb : s.fab.bad = false) (hn : nameNode ((packetName p).setWidth 64) = s.straps.nodeId)
include hb hn

theorem peek_here : Yields (.peek p) s ((if (s.peekObj ((packetName p).setWidth 13) ((packetWord p 0).getLsbD 56)).status = 0
      then s.peekNote ((packetName p).setWidth 13) else s).sendPacket 5
    (s.takePacket (packetSender p) 3 (packetName p) (s.peekObj ((packetName p).setWidth 13) ((packetWord p 0).getLsbD 56)))) := by
  refine congrArg (answer s) ((received_good hb _).trans ?_)
  simp only [hn, beq_self_eq_true, if_true, Bool.true_and, beq_iff_eq]

theorem take_here {t : State} {r : TakeReply} (ht : s.takeObj ((packetName p).setWidth 13) ((packetWord p 0).getLsbD 56)
      (BitVec.ofNat 32 ((packetWord p 2).toNat / 2 ^ 32)) = (t, r)) :
    Yields (.take p) s (t.sendPacket 5 (t.takePacket (packetSender p) 5 (packetName p) r)) := by
  refine congrArg (answer s) ((received_good hb _).trans ?_)
  simp only [hn, beq_self_eq_true, if_true, ht]

end

section
variable {n : BitVec 13} {sup : Bool}

theorem takeObj_refused (seq : BitVec 32) (h : (s.peekObj n sup).status ≠ 0) : s.takeObj n sup seq = (s, s.peekObj n sup) := if_pos h

theorem takeObj_moved {seq : BitVec 32} (h : (s.peekObj n sup).status = 0) (hs : (s.peekObj n sup).seq ≠ seq) :
    s.takeObj n sup seq = (s, { s.peekObj n sup with status := 2 }) := (if_neg (not_not.2 h)).trans (if_pos hs)

theorem takeObj_taken {seq : BitVec 32} (h : (s.peekObj n sup).status = 0) (hs : (s.peekObj n sup).seq = seq) :
    s.takeObj n sup seq = (s.setObj n ((s.obj n).withHalves ((s.obj n).hi + 1) ((s.obj n).lo - 1)), s.peekObj n sup) :=
  (if_neg (not_not.2 h)).trans (if_neg (not_not.2 hs))

end

end

/-! ### The statement -/

/-- Settles O51: the take by its phase and by what each reply tells, and the unit by what its PEEK finds. -/
theorem taskTake : Obligations.TaskTake := by
  intro s p phase r j
  have hj0 : s.judge (packetName p) r.desc = j := rfl
  clear_value j
  obtain ⟨hjb, hjt, hjr⟩ := hj0 ▸ judge_counts s (packetName p) r.desc
  refine ⟨fun h => ⟨taskTake_barred h, takeRetryWait_ends h⟩, fun h hp hn => ?_,
    fun h hp hn hr => (taskTake_starts h hp).trans (congrArg (answer s) (startTake_nothing hn hr)), takeRetryWait_elsewhere,
    fun hb hp => ⟨peekreply_refused hb hp, fun hr hj => ?_, fun hr hj => ?_⟩, peekreply_unawaited,
    fun q hb hp => ⟨fun hr hl => ?_, takereply_changed hb hp, takereply_failed hb hp⟩, takereply_unawaited,
    fun hb hn => ⟨peek_here hb hn, fun hr => take_here hb hn (takeObj_refused _ hr), fun hr hq => ?_, fun hr hq => ?_⟩⟩
  · have hy := take_starts h hp
    rw [startTake_remote hn] at hy
    exact ⟨_, hy, rfl, rfl⟩
  · have hy := peekreply_judged hb hp hr hj0
    rw [if_neg (ne_true_of_eq_false hj)] at hy
    exact ⟨_, hy, rfl, hjr hj⟩
  · have hy := peekreply_judged hb hp hr hj0
    rw [if_pos hj] at hy
    exact ⟨_, hy, rfl, hjb, hjt hj⟩
  · obtain ⟨c, n, ha⟩ := accept_eq hl r.entry
    have hy := takereply_accepted hb hp hr
    rw [ha] at hy
    exact ⟨_, hy, rfl, rfl, rfl⟩
  · exact ⟨_, take_here hb hn (takeObj_moved hr hq), rfl⟩
  · exact ⟨_, take_here hb hn (takeObj_taken hr hq), rfl, rfl⟩

end Sys2Proof.Machine
end

section
/-! ## Mailboxes (13 R290, R291) -/

namespace Sys2Proof.Machine

section
variable {s : State} {ch : BitVec 4}

/-- The channel just replaced. -/
theorem setMailbox_self (s : State) (c : Fin 16) (m : Mailbox) : (s.setMailbox c m).mb.ch[c] = m := Vector.getElem_set_self c.isLt

/-! ### Sending (R291 steps 1 and 2) -/

theorem send_full (h : s.mb.ch[chanOf ch].outFull = true) : Yields (.send ch) s s := congrArg (answer s) (if_pos h)

theorem send_marks (h : s.mb.ch[chanOf ch].outFull = false) :
    Yields (.send ch) s (s.setMailbox (chanOf ch) { s.mb.ch[chanOf ch] with outFull := true }) :=
  congrArg (answer s) (if_neg (ne_true_of_eq_false h))

theorem mailboxSendPacket_waits (h : (s.mb.ch[chanOf ch].outFull && s.mb.ch[chanOf ch].credit) = false) :
    Yields (.mailboxSendPacket ch) s s := congrArg (answer s) (if_neg (ne_true_of_eq_false h))

theorem mailboxSendPacket_leaves (h : (s.mb.ch[chanOf ch].outFull && s.mb.ch[chanOf ch].credit) = true) : Yields (.mailboxSendPacket ch) s
    ((s.setMailbox (chanOf ch) { s.mb.ch[chanOf ch] with outFull := false, credit := false }).sendPacket 6
      (s.mailPacket (chanOf ch) (s.mb.ch[chanOf ch].outSlot.setWidth 768))) := congrArg (answer s) (if_pos h)

/-! ### Releasing (R291 step 4) -/

theorem mailboxRelease_empty (h : s.mb.ch[chanOf ch].inFull = false) : Yields (.mailboxRelease ch) s s :=
  congrArg (answer s) (if_pos (by rw [h]; rfl))

theorem mailboxRelease_full (h : s.mb.ch[chanOf ch].inFull = true) : Yields (.mailboxRelease ch) s
    ((s.setMailbox (chanOf ch) { s.mb.ch[chanOf ch] with inFull := false, inPois := false }).sendPacket 7 (s.mailPacket (chanOf ch) 0)) :=
  congrArg (answer s) (if_neg (by rw [h]; exact Bool.false_ne_true))

/-! ### Notices (R291) -/

theorem mailNotice_eq (s : State) (c : Fin 16) (ev : Nat) : ∃ b w d, s.mailNotice c ev = { s with bm := b, pwr := w, dep := d } := by
  unfold State.mailNotice
  split
  · exact ⟨_, _, _, rfl⟩
  · obtain ⟨_, _, e⟩ := setEvent_eq s ev
    exact ⟨_, _, _, e⟩

theorem mailNotice_mb (s : State) (c : Fin 16) (ev : Nat) : (s.mailNotice c ev).mb = s.mb := by
  obtain ⟨_, _, _, e⟩ := mailNotice_eq s c ev
  rw [e]

theorem mailNotice_channel (s : State) (c : Fin 16) (m : Mailbox) (ev : Nat) : ((s.setMailbox c m).mailNotice c ev).mb.ch[c] = m := by
  rw [mailNotice_mb]
  exact setMailbox_self s c m

theorem mailNotice_event {c : Fin 16} {ev : Nat} (hc : c.val < 8) (hl : s.pwr.latching = false) (he : ev < 64) :
    (s.mailNotice c ev).bm.evpend.getLsbD ev = true := by
  rw [State.mailNotice, secureChan, decide_eq_false (Nat.not_le.2 hc)]
  exact setEvent_pending hl he

theorem mailNotice_vector {c : Fin 16} (hc : 8 ≤ c.val) (ev : Nat) : (s.mailNotice c ev).dep.ipend.getLsbD 7 = true := by
  rw [State.mailNotice, secureChan, decide_eq_true hc]
  exact raiseVector_pending s (by decide)

/-! ### Packets that arrive (R291 steps 3 and 5) -/

/-- The state in which an inbound slot holds a message. -/
def State.mailFilled (s : State) (c : Fin 16) (slot : BitVec 512) : State :=
  s.setMailbox c { s.mb.ch[c] with inSlot := slot, inFull := true, inPois := false }

/-- A channel takes packets while it is enabled, a secure one only secure packets. -/
theorem not_taken_iff {en sec : Bool} {c : Fin 16} : (!en || (secureChan c && !sec)) = true ↔ en = false ∨ (8 ≤ c.val ∧ sec = false) := by
  simp only [secureChan, Bool.or_eq_true, Bool.not_eq_true', Bool.and_eq_true, decide_eq_true_eq]

section
variable {p : Packet} (hb : s.fab.bad = false) (hch : p.addr.setWidth 4 = ch)
include hb hch

theorem mailbox_dropped (h : (!s.mb.ch[chanOf ch].en || (secureChan (chanOf ch) && !p.sec) || s.mb.ch[chanOf ch].inFull) = true) :
    Yields (.mailbox p) s s.mailDrop := by
  subst hch
  exact congrArg (answer s) ((received_good hb _).trans (if_pos h))

theorem mailbox_taken (h : (!s.mb.ch[chanOf ch].en || (secureChan (chanOf ch) && !p.sec) || s.mb.ch[chanOf ch].inFull) = false) :
    Yields (.mailbox p) s
      (let t := (s.mailFilled (chanOf ch) (p.inl.setWidth 512)).mailNotice (chanOf ch) (33 + (chanOf ch).val)
       if secureChan (chanOf ch) then t else t.wakeCore) := by
  subst hch
  exact congrArg (answer s) ((received_good hb _).trans (if_neg (ne_true_of_eq_false h)))

theorem credit_dropped (h : (!s.mb.ch[chanOf ch].en || (secureChan (chanOf ch) && !p.sec)) = true) : Yields (.credit p) s s.mailDrop := by
  subst hch
  exact congrArg (answer s) ((received_good hb _).trans (if_pos h))

theorem credit_taken (h : (!s.mb.ch[chanOf ch].en || (secureChan (chanOf ch) && !p.sec)) = false) :
    Yields (.credit p) s ((s.setMailbox (chanOf ch) { s.mb.ch[chanOf ch] with credit := true }).mailNotice (chanOf ch) 41) := by
  subst hch
  exact congrArg (answer s) ((received_good hb _).trans (if_neg (ne_true_of_eq_false h)))

end

/-- A wake source leaves everything but power. -/
theorem wakeUnless_eq (b : Bool) (t : State) : ∃ w, (if b then t else t.wakeCore) = { t with pwr := w } := by
  cases b with
  | true => exact ⟨_, rfl⟩
  | false => exact ⟨_, rfl⟩

/-! ### MBCFG (R291) -/

/-- The state with a channel configured. -/
def State.mailSet (s : State) (c : Fin 16) (v : Word) : State :=
  s.setMailbox c { s.mb.ch[c] with
    en := v.getLsbD 63, pchan := v.extractLsb' 24 4, pnode := v.setWidth 24, credit := s.mb.ch[c].credit && v.getLsbD 63 }

theorem mailSet_channel (s : State) (c : Fin 16) (v : Word) :
    let x := (s.mailSet c v).mb.ch[c]
    x.en = v.getLsbD 63 ∧ x.pchan = v.extractLsb' 24 4 ∧ x.pnode = v.setWidth 24 ∧ x.credit = (s.mb.ch[c].credit && v.getLsbD 63)
      ∧ x.outSlot = s.mb.ch[c].outSlot := by
  simp only [State.mailSet, setMailbox_self, and_self]

theorem mbcfgWrite_yields (s : State) (ch : BitVec 4) (v : Word) : Yields (.mbcfgWrite ch v) s
    (if (v.getLsbD 63 && !s.mb.ch[chanOf ch].en && !s.mb.ch[chanOf ch].inFull) = true
      then (s.mailSet (chanOf ch) v).sendPacket 7 ((s.mailSet (chanOf ch) v).mailPacket (chanOf ch) 0) else s.mailSet (chanOf ch) v) := rfl

theorem mailPacket_mailSet (s : State) (c : Fin 16) (v : Word) : (s.mailSet c v).mailPacket c 0 = { s.packetTo (v.setWidth 24) with
    sec := decide (8 ≤ c.val), addr := (v.extractLsb' 24 4).setWidth 47 } := by
  have h : (s.mailSet c v).mb.ch[c] = _ := setMailbox_self s c _
  simp only [State.mailPacket, h]
  rfl

end

/-! ### The statement -/

/-- Settles O52: each command by the flags of its channel. -/
theorem mailboxes : Obligations.Mailboxes := by
  intro s ch p v c m put
  have hself (x : Mailbox) : (s.setMailbox c x).mb.ch[c] = x := setMailbox_self s c x
  refine ⟨send_full, send_marks, mailboxSendPacket_waits, mailboxSendPacket_leaves, mailboxRelease_empty, fun h => ?_,
    fun hb hch => ⟨fun hen hsec => ?_, fun h => ?_⟩, ?_⟩
  · refine ⟨_, mailboxRelease_full h, ?_, ?_, rfl⟩
    · exact congrArg Mailbox.inFull (hself _)
    · exact congrArg Mailbox.inPois (hself _)
  · have ht : (!m.en || (secureChan c && !p.sec)) = false := by
      rw [← Bool.not_eq_true, not_taken_iff, hen]
      rintro (h | ⟨h, hs⟩)
      · cases h
      · rw [hsec h] at hs
        cases hs
    refine ⟨fun hf => ?_, fun hf => mailbox_dropped hb hch (by rw [hf, Bool.or_true]), ?_⟩
    · have hy := mailbox_taken hb hch (by rw [ht, hf]; rfl)
      obtain ⟨w, he⟩ := wakeUnless_eq (secureChan c) ((s.mailFilled c (p.inl.setWidth 512)).mailNotice c (33 + c.val))
      dsimp only at hy
      rw [he] at hy
      refine ⟨_, hy, ?_, ?_, fun hc hl => ?_, fun hc => mailNotice_vector hc _⟩
      · exact congrArg Mailbox.inFull (mailNotice_channel s c _ _)
      · exact congrArg Mailbox.inSlot (mailNotice_channel s c _ _)
      · exact (hardwire_evpend _ _ (by omega)).trans (mailNotice_event hc hl (by omega))
    · refine ⟨_, credit_taken hb hch ht, ?_, fun hc hl => ?_⟩
      · exact congrArg Mailbox.credit (mailNotice_channel s c _ _)
      · exact (hardwire_evpend _ _ (by decide)).trans (mailNotice_event hc hl (by decide))
  · have ht := (not_taken_iff).2 h
    exact ⟨mailbox_dropped hb hch (by rw [ht]; rfl), credit_dropped hb hch ht⟩
  · have hy := mbcfgWrite_yields s ch v
    obtain ⟨hen, hpc, hpn, hcr, hout⟩ := mailSet_channel s c v
    split at hy
    · next hn =>
      refine ⟨_, hy, hen, hpc, hpn, hcr, hout, fun h => absurd (hn.symm.trans h) Bool.false_ne_true.symm, fun _ => ?_⟩
      rw [mailPacket_mailSet]
      rfl
    · next hn => exact ⟨_, hy, hen, hpc, hpn, hcr, hout, fun _ => rfl, fun h => absurd h hn⟩

end Sys2Proof.Machine
end

section
/-! ## Tram channels: the ring, the start and the end of a descriptor, HALT and EN (13 R292 to R299) -/

namespace Sys2Proof.Machine

/-- The channel just replaced. -/
theorem setChannel_self (s : State) (c : Fin 32) (x : Channel) : (s.setChannel c x).tr.ch[c] = x := Vector.getElem_set_self c.isLt

section
variable {s : State} {ch : BitVec 5}

/-! ### The doorbell (R292, R293) -/

theorem trhead_moves (h : ¬(tramOf ch = 31 ∧ s.journalHolds = true)) (head : BitVec 12) :
    Yields (.trhead ch head) s (s.setChannel (tramOf ch) { s.tr.ch[tramOf ch] with head := head }) := congrArg (answer s) (if_neg h)

theorem trhead_ignored (hc : tramOf ch = 31) (h : s.journalHolds = true) (head : BitVec 12) : Yields (.trhead ch head) s s :=
  congrArg (answer s) (if_pos ⟨hc, h⟩)

/-! ### The start of a descriptor (R292, R295) -/

/-- A channel starts nothing: it does not run, its ring holds nothing, or the journal has it. -/
def State.startBarred (s : State) (c : Fin 32) : Bool :=
  let x := s.tr.ch[c]
  !x.en || x.halt || !x.hasRing || x.index x.tail == x.index x.head || (c == 31 && s.jnl.jch)

/-- The address of the next descriptor of a channel. -/
def State.ringSlot (s : State) (c : Fin 32) : Nat := (s.tr.ch[c]).ring.toNat * 4096 + 64 * (s.tr.ch[c]).index (s.tr.ch[c]).tail

/-- The next descriptor of a channel. -/
def State.ringDesc (s : State) (c : Fin 32) : BitVec 512 := BitVec.ofNat 512 (s.mem.readNat (s.ringSlot c) 64)

/-- The next descriptor has been read from the ring. -/
def State.slotRead (s : State) (c : Fin 32) : State := s.portRead 4 false (s.typeOf 4 (s.ringSlot c)) (s.ringSlot c) 64

/-- A descriptor that starts: one that breaks its layout has its accesses behind it, with status 6. -/
def openedDesc (d : BitVec 512) : TramOpen :=
  { desc := d, issued := !descOk d, ending := false, noRecord := false, waits := [], status := if descOk d then 0 else 6, bytes := 0, result := 0 }

theorem openedDesc_eq (d : BitVec 512) : openedDesc d =
    let st : Nat := if !descOk d then 6 else 0
    { desc := d, issued := decide (st ≠ 0), ending := false, noRecord := false, waits := [], status := BitVec.ofNat 4 st, bytes := 0, result := 0 } := by
  unfold openedDesc
  cases descOk d <;> rfl

/-- A channel with the slot of its next descriptor used. -/
def Channel.opened (x : Channel) (d : BitVec 512) : Channel :=
  { x with tail := BitVec.ofNat 12 ((x.index x.tail + 1) % 2 ^ x.log2len.toNat), opens := x.opens ++ [openedDesc d] }

theorem descriptorStart_barred (h : s.startBarred (tramOf ch) = true) : Yields (.descriptorStart ch) s s := congrArg (answer s) (if_pos h)

/-- With the ring in a normal region, the descriptor is read; FENCE holds it behind earlier ones. -/
theorem descriptorStart_read (hb : s.startBarred (tramOf ch) = false) (hr : s.tramRegion (s.ringSlot (tramOf ch)) 4 = true) :
    Yields (.descriptorStart ch) s
      (if descField (s.ringDesc (tramOf ch)) 0 10 1 = 1 ∧ (s.tr.ch[tramOf ch]).opens ≠ [] then s.slotRead (tramOf ch)
       else (s.slotRead (tramOf ch)).setChannel (tramOf ch) ((s.tr.ch[tramOf ch]).opened (s.ringDesc (tramOf ch)))) := by
  refine congrArg (answer s) ((if_neg (ne_true_of_eq_false hb)).trans ?_)
  have hr' : s.tramRegion ((s.tr.ch[tramOf ch]).ring.toNat * 4096 + 64 * (s.tr.ch[tramOf ch]).index (s.tr.ch[tramOf ch]).tail) 4 = true := hr
  simp only [hr', Bool.true_and, if_true, Bool.not_true, Bool.false_eq_true, if_false]
  unfold Channel.opened
  rw [openedDesc_eq]
  exact if_congr (by simp [State.ringDesc, State.ringSlot]) rfl rfl

theorem opened_tail {x : Channel} (h : x.hasRing = true) (d : BitVec 512) :
    (x.opened d).tail.toNat = (x.index x.tail + 1) % 2 ^ x.log2len.toNat := by
  simp only [Channel.hasRing, Bool.and_eq_true, decide_eq_true_eq] at h
  have hp : 2 ^ x.log2len.toNat ≤ 2 ^ 12 := Nat.pow_le_pow_right (by decide) h.2
  exact Nat.mod_eq_of_lt (Nat.lt_of_lt_of_le (Nat.mod_lt _ (Nat.two_pow_pos _)) hp)

theorem startBarred_eq_false (he : (s.tr.ch[tramOf ch]).en = true) (hh : (s.tr.ch[tramOf ch]).halt = false)
    (hr : (s.tr.ch[tramOf ch]).hasRing = true) (hi : (s.tr.ch[tramOf ch]).index (s.tr.ch[tramOf ch]).tail ≠ (s.tr.ch[tramOf ch]).index (s.tr.ch[tramOf ch]).head)
    (hj : tramOf ch = 31 → s.jnl.jch = false) : s.startBarred (tramOf ch) = false := by
  simp only [State.startBarred, he, hh, hr, beq_eq_false_iff_ne.2 hi, Bool.not_true, Bool.or_false, Bool.false_or, Bool.and_eq_false_iff,
    beq_eq_false_iff_ne]
  exact or_iff_not_imp_left.2 fun h => hj (not_not.1 h)

/-! ### The end of a descriptor (R298, R299) -/

/-- BYTES of a descriptor that has not failed is its length. -/
def TramOpen.finished (o : TramOpen) : TramOpen :=
  if 2 ≤ o.status.toNat then o else { o with bytes := BitVec.ofNat 40 (descLen o.desc) }

theorem finished_keeps (o : TramOpen) : o.finished.desc = o.desc ∧ o.finished.noRecord = o.noRecord ∧ o.finished.status = o.status := by
  unfold TramOpen.finished
  split <;> exact ⟨rfl, rfl, rfl⟩

theorem descriptorComplete_none (h : (s.tr.ch[tramOf ch]).opens = []) : Yields (.descriptorComplete ch) s s := by
  simp only [Yields, exec, execDescriptorComplete, h, answer]

section
variable {o : TramOpen} {q : List TramOpen} (h : (s.tr.ch[tramOf ch]).opens = o :: q)
include h

theorem descriptorComplete_waits (hw : o.issued = false ∨ o.waits ≠ []) : Yields (.descriptorComplete ch) s s := by
  have hc : (!o.issued || !o.waits.isEmpty) = true := by simpa using hw
  simp only [Yields, exec, execDescriptorComplete, h, answer, hc, if_true]

/-- A descriptor without a completion record ends once its accesses are made. -/
theorem descriptorComplete_unrecorded (hi : o.issued = true) (hw : o.waits = []) (hr : descField o.desc 0x28 4 60 = 0 ∨ o.noRecord = true) :
    Yields (.descriptorComplete ch) s (s.completeDesc (tramOf ch) o.finished q) := by
  obtain ⟨hd, hn, -⟩ := finished_keeps o
  have hx : s.writeRecord (tramOf ch) o.finished ((s.tr.ch[tramOf ch]).done + 1) = .ok s 0 .cached := by
    refine if_pos ?_
    rw [hd, hn]
    exact hr.imp_left fun hz => by rw [hz, Nat.zero_mul]
  have hc : ¬(!o.issued || !o.waits.isEmpty) = true := by
    rw [hi, hw]
    exact Bool.false_ne_true
  refine congrArg (answer s) ?_
  dsimp only
  rw [h]
  refine (if_neg hc).trans ?_
  change (match s.writeRecord (tramOf ch) o.finished ((s.tr.ch[tramOf ch]).done + 1) with
    | .hold s => s
    | .fail s st => s.completeDesc (tramOf ch) (o.finished.failed st o.finished.bytes.toNat) q
    | .ok s _ _ => s.completeDesc (tramOf ch) o.finished q) = _
  rw [hx]

end

theorem settleJch_eq (s : State) : ∃ j, s.settleJch = { s with jnl := j } := by
  unfold State.settleJch
  dsimp only
  split
  · split
    · exact ⟨_, rfl⟩
    · exact ⟨_, rfl⟩
  · exact ⟨_, rfl⟩

theorem settleJch_tr (s : State) : s.settleJch.tr = s.tr := by
  obtain ⟨_, e⟩ := settleJch_eq s
  rw [e]

/-- The channel after the end of its oldest descriptor: DONE advances, and a status of 2 or above halts. -/
def Channel.completed (x : Channel) (o : TramOpen) (rest : List TramOpen) : Channel :=
  { x with done := x.done + 1, opens := rest, halt := x.halt || decide (2 ≤ o.status.toNat)
           last := if decide (2 ≤ o.status.toNat) then o.status else x.last }

section
variable {o : TramOpen} (hp : descField o.desc 0x20 63 1 = 0) (c : Fin 32) (rest : List TramOpen)
include hp

/-- A descriptor without a post ends with at most an event. -/
theorem completeDesc_quiet : s.completeDesc c o rest =
    (if descField o.desc 0 11 1 = 1 ∨ decide (2 ≤ o.status.toNat) = true then (s.setChannel c ((s.tr.ch[c]).completed o rest)).setEvent 43
     else s.setChannel c ((s.tr.ch[c]).completed o rest)).settleJch := by
  have hn : ¬descField o.desc 0x20 63 1 = 1 := by
    rw [hp]
    exact Nat.zero_ne_one
  simp only [State.completeDesc, if_neg hn]
  rfl

theorem completeDesc_channel : (s.completeDesc c o rest).tr.ch[c] = (s.tr.ch[c]).completed o rest := by
  rw [completeDesc_quiet hp]
  obtain ⟨_, _, e⟩ := setEvent_eq (s.setChannel c ((s.tr.ch[c]).completed o rest)) 43
  rw [settleJch_tr, e]
  split <;> exact setChannel_self ..

theorem completeDesc_event (hs : 2 ≤ o.status.toNat) (hl : s.pwr.latching = false) :
    (s.completeDesc c o rest).bm.evpend.getLsbD 43 = true := by
  rw [completeDesc_quiet hp, if_pos (.inr (decide_eq_true hs))]
  obtain ⟨_, ej⟩ := settleJch_eq ((s.setChannel c ((s.tr.ch[c]).completed o rest)).setEvent 43)
  rw [ej]
  exact setEvent_pending (s := s.setChannel c ((s.tr.ch[c]).completed o rest)) hl (by decide)

end

/-! ### TRSTAT and TRCFG (R299) -/

section
variable {v : Word}

theorem trstatWrite_ignored (h : v.getLsbD 31 = false) : Yields (.trstatWrite v) s s := congrArg (answer s) (if_neg (ne_true_of_eq_false h))

/-- A channel that HALT holds no longer. -/
def Channel.resumed (x : Channel) : Channel := { x with halt := false }

theorem trstatWrite_resumes (h : v.getLsbD 31 = true) : Yields (.trstatWrite v) s
    (s.setChannel (tramOf s.tr.sel) (s.tr.ch[tramOf s.tr.sel]).resumed).settleJch := congrArg (answer s) (if_pos h)

/-- The descriptors of a channel after EN is given: those with accesses to make end where it is cleared. -/
def Channel.opensAt (x : Channel) (en : Bool) : List TramOpen := if x.en && !en then x.opens.map TramOpen.abort else x.opens

theorem opensAt_kept {x : Channel} {en : Bool} (h : x.en = false ∨ en = true) : x.opensAt en = x.opens :=
  if_neg (by rcases h with h | h <;> simp [h])

theorem opensAt_cleared {x : Channel} {en : Bool} (hx : x.en = true) (he : en = false) : x.opensAt en = x.opens.map TramOpen.abort :=
  if_pos (by rw [hx, he]; rfl)

/-- A channel with TRCFG written. -/
def Channel.configured (x : Channel) (v : Word) : Channel :=
  { x with en := v.getLsbD 63, pa := v.getLsbD 62, opens := x.opensAt (v.getLsbD 63) }

theorem dropTramWaiter_unless (s : State) (c : Fin 32) (b : Bool) : ∃ xl, (if b then s else s.dropTramWaiter c) = { s with xl := xl } := by
  cases b with
  | true => exact ⟨_, rfl⟩
  | false => exact ⟨_, rfl⟩

theorem trcfgWrite_yields (s : State) (v : Word) : ∃ xl, Yields (.trcfgWrite v) s
    (({ s with xl := xl } : State).setChannel (tramOf s.tr.sel) ((s.tr.ch[tramOf s.tr.sel]).configured v)) := by
  obtain ⟨xl, e⟩ := dropTramWaiter_unless s (tramOf s.tr.sel) (((s.tr.ch[tramOf s.tr.sel]).opensAt (v.getLsbD 63)).any (fun o => !o.issued))
  exact ⟨xl, congrArg (fun t : State => answer s (t.setChannel (tramOf s.tr.sel) ((s.tr.ch[tramOf s.tr.sel]).configured v))) e⟩

end

/-- How the clearing of EN ends a descriptor: with status 7 where it stands at the boundary of a 4 KB unit, else at the unit's end. -/
theorem abort_eq (o : TramOpen) : o.abort = if o.issued = true then o
    else if o.bytes.toNat % 4096 = 0 then { o with issued := true, status := if 2 ≤ o.status.toNat then o.status else 7 }
    else { o with ending := true } := by
  unfold TramOpen.abort TramOpen.failed
  by_cases hs : 2 ≤ o.status.toNat
  · simp only [if_pos hs]
  · simp only [if_neg hs, BitVec.ofNat_toNat, BitVec.setWidth_eq]
    rfl

end

/-! ### The statement -/

/-- Settles O53: the start by what bars it and by FENCE, the end by the oldest descriptor, the registers by what is written. -/
theorem tramChannels : Obligations.TramChannels := by
  intro s ch head v c x pa d
  refine ⟨fun h => trhead_moves h head, fun hc h => trhead_ignored hc h head, fun h => descriptorStart_barred ?_,
    fun he hh hr hi hj ht hf => ?_, fun he hh hr hi hj ho ht hf => ?_, descriptorComplete_none,
    fun o q ho => ⟨descriptorComplete_waits ho, fun hi hw hr hp => ?_⟩, trstatWrite_ignored, fun h => ?_, ?_⟩
  · simp only [State.startBarred, Bool.or_eq_true, Bool.not_eq_true', beq_iff_eq]
    rcases h with h | h | h
    · exact .inl (.inl (.inl (.inl h)))
    · exact .inl (.inl (.inl (.inr h)))
    · exact .inl (.inr h)
  · have hy := descriptorStart_read (startBarred_eq_false he hh hr hi hj) ht
    rw [if_neg fun hn => hn.2 (hf hn.1)] at hy
    have hx : ((s.slotRead c).setChannel c (x.opened d)).tr.ch[c] = x.opened d := setChannel_self ..
    refine ⟨_, hy, (congrArg (fun y : Channel => y.tail.toNat) hx).trans (opened_tail hr d), congrArg Channel.opens hx, ?_⟩
    exact (portRead_fetched ..).sameMemory
  · have hy := descriptorStart_read (startBarred_eq_false he hh hr hi hj) ht
    rwa [if_pos ⟨hf, ho⟩] at hy
  · obtain ⟨hd, -, hs⟩ := finished_keeps o
    have hp' : descField o.finished.desc 0x20 63 1 = 0 := hd ▸ hp
    have hx := completeDesc_channel (s := s) hp' c q
    refine ⟨_, descriptorComplete_unrecorded ho hi hw hr, congrArg Channel.opens hx, congrArg Channel.done hx, fun h => ?_, fun h => ?_⟩
    all_goals
      rw [← hs] at h
    · have hn := Nat.not_le.2 h
      exact ⟨(congrArg Channel.halt hx).trans (by rw [Channel.completed, decide_eq_false hn, Bool.or_false]),
        (congrArg Channel.last hx).trans (if_neg (by simpa using h))⟩
    · rw [← hs]
      exact ⟨(congrArg Channel.halt hx).trans (by rw [Channel.completed, decide_eq_true h, Bool.or_true]),
        (congrArg Channel.last hx).trans (if_pos (decide_eq_true h)),
        fun hl => (hardwire_evpend _ _ (by decide)).trans (completeDesc_event hp' c q h hl)⟩
  · have hx := setChannel_self s (tramOf s.tr.sel) (s.tr.ch[tramOf s.tr.sel]).resumed
    refine ⟨_, trstatWrite_resumes h, ?_, ?_⟩
    all_goals rw [hardwire_tr, settleJch_tr, hx]
    · rfl
    · rfl
  · obtain ⟨xl, hy⟩ := trcfgWrite_yields s v
    have hx := setChannel_self { s with xl := xl } (tramOf s.tr.sel) ((s.tr.ch[tramOf s.tr.sel]).configured v)
    refine ⟨_, hy, congrArg Channel.en hx, congrArg Channel.pa hx, fun he hn => (congrArg Channel.opens hx).trans ?_,
      fun h => (congrArg Channel.opens hx).trans (opensAt_kept h)⟩
    exact (opensAt_cleared he hn).trans (congrArg (List.map · _) (funext abort_eq))

end Sys2Proof.Machine
end

section
/-! SUPPORT. What an engine reads and writes in memory: bytes, granules and their poison (03 R66, 16 R352 to R354), and the accesses of the
tram engine at normal addresses (13 R294). -/

namespace Sys2Proof.Machine

/-! ### Numbers read byte by byte -/

theorem readNat_congr {m x : Mem} {pa n : Nat} (h : ∀ i < n, x.byte (pa + i) = m.byte (pa + i)) : x.readNat pa n = m.readNat pa n := by
  induction n generalizing pa with
  | zero => rfl
  | succ n ih =>
    have ht : x.readNat (pa + 1) n = m.readNat (pa + 1) n := ih fun i hi => by
      rw [Nat.add_assoc, Nat.add_comm 1 i]
      exact h (i + 1) (by omega)
    have hb : x.byte pa = m.byte pa := h 0 (by omega)
    simp only [Mem.readNat, ht, hb]

theorem readNat_lt (m : Mem) (pa n : Nat) : m.readNat pa n < 256 ^ n := by
  induction n generalizing pa with
  | zero => exact Nat.one_pos
  | succ n ih =>
    have hb := (m.byte pa).isLt
    have hn := ih (pa + 1)
    rw [Nat.pow_succ]
    simp only [Mem.readNat]
    omega

theorem readNat_add (m : Mem) (pa k n : Nat) : m.readNat pa (k + n) = m.readNat pa k + 256 ^ k * m.readNat (pa + k) n := by
  induction k generalizing pa with
  | zero => simp only [Nat.zero_add, Mem.readNat, Nat.pow_zero, Nat.one_mul, Nat.add_zero]
  | succ k ih =>
    rw [show k + 1 + n = k + n + 1 by omega]
    simp only [Mem.readNat]
    rw [ih (pa + 1), show pa + 1 + k = pa + (k + 1) by omega, Nat.mul_add, Nat.pow_succ', Nat.mul_assoc, Nat.add_assoc]

/-- Bytes that are those of a number read as the number. -/
theorem readNat_of_bytes {m : Mem} {pa n v : Nat} (h : ∀ i < n, m.byte (pa + i) = BitVec.ofNat 8 (v / 256 ^ i)) :
    m.readNat pa n = v % 256 ^ n := by
  induction n generalizing pa v with
  | zero => rw [Nat.pow_zero, Nat.mod_one]; rfl
  | succ n ih =>
    have hb : (m.byte pa).toNat = v % 256 := by
      rw [show m.byte pa = _ from h 0 (by omega), Nat.pow_zero, Nat.div_one, BitVec.toNat_ofNat]
    have ht : m.readNat (pa + 1) n = v / 256 % 256 ^ n := ih fun i hi => by
      rw [show pa + 1 + i = pa + (i + 1) by omega, h (i + 1) (by omega), Nat.pow_succ', Nat.div_div_eq_div_mul]
    simp only [Mem.readNat, hb, ht]
    rw [Nat.pow_succ', Nat.mod_mul]

/-! ### Granules (16 R352 to R354) -/

theorem two_pow_bytes {w n : Nat} (h : w = 8 * n) : 2 ^ w = 256 ^ n := by
  subst h
  exact Nat.pow_mul 2 8 n

theorem toNat_lt_bytes {w n : Nat} (h : w = 8 * n) (d : BitVec w) : d.toNat < 256 ^ n := by
  rw [← two_pow_bytes h]
  exact d.isLt

theorem toNat_ofNat_bytes {w n : Nat} (h : w = 8 * n) (v : Nat) : (BitVec.ofNat w v).toNat = v % 256 ^ n := by
  rw [← two_pow_bytes h]
  exact BitVec.toNat_ofNat v w

/-- A line that an engine has written gives its granule's bytes. -/
theorem byte_putEngine {m : Mem} (h : Memory.wf m = true) (l : CacheLine) (a : Nat) :
    (m.putEngine l).byte a = if a / 64 = l.granule then l.byte (a % 64) else m.byte a := by
  unfold Mem.putEngine
  split
  · exact byte_putLine h _ a
  · next hc => exact byte_toStore h hc a

theorem readNat_engineGranule {m : Mem} (h : Memory.wf m = true) {pa : Nat} (ha : pa % 64 = 0) (data : BitVec 512) (p : Bool) :
    (m.engineGranule (pa / 64) data p).readNat pa 64 = data.toNat := by
  rw [readNat_of_bytes (v := data.toNat), Nat.mod_eq_of_lt (toNat_lt_bytes (n := 64) rfl data)]
  intro i hi
  have hg : (pa + i) / 64 = pa / 64 := by omega
  have hm : (pa + i) % 64 = i := by omega
  unfold Mem.engineGranule
  rw [byte_putEngine h, if_pos hg, hm, byte_eq_ofNat]

/-- What the agents see of a granule's poison is its line's, where a cache holds it dirty. -/
theorem poisoned_of_dirty {m : Mem} {g : Nat} {l : CacheLine} (h : m.dirty g = some l) : m.poisoned g = l.poison := by
  simp only [Mem.poisoned, h]

theorem dirty_of_cache {m : Mem} {g : Nat} {l : CacheLine} (h : lineFind g m.cache = some l) : m.dirty g = some l := by
  simp only [Mem.dirty, h]

theorem dirty_of_tsc {m : Mem} {g : Nat} (h : lineFind g m.cache = none) : m.dirty g = lineFind g m.tsc := by
  simp only [Mem.dirty, h]

theorem setBackLine_poison (m : Mem) (l : CacheLine) :
    nsMem l.granule (m.setBackLine l).poison = l.poison := by
  have hp : nsMem l.granule ((m.setBackNat (64 * l.granule) l.data.toNat 64).setBackPoison l.granule l.poison).poison = l.poison := by
    unfold Mem.setBackPoison
    dsimp only
    cases l.poison with
    | true => rw [if_pos rfl, nsMem_nsInsert, beq_self_eq_true, Bool.true_or]
    | false => rw [if_neg Bool.false_ne_true, nsMem_nsErase, bne_self_eq_false, Bool.false_and]
  unfold Mem.setBackLine
  dsimp only
  split <;> exact hp

/-- A line that an engine has written gives its granule's poison: clean data clears it. -/
theorem poisoned_putEngine (m : Mem) (l : CacheLine) : (m.putEngine l).poisoned l.granule = l.poison := by
  unfold Mem.putEngine
  split
  · next x _ => exact poisoned_of_dirty (l := { l with l1 := x.l1 }) (dirty_of_cache (lineFind_linePut_self { l with l1 := x.l1 } _))
  · next hc =>
    dsimp only
    unfold Mem.toStore
    split
    · have hn : lineFind l.granule (m.setBackLine l).cache = none := by rwa [setBackLine_cache]
      simp only [Mem.poisoned, Mem.dirty, hn, lineFind_lineErase_self, nsMem_nsErase, bne_self_eq_false, Bool.false_and, Bool.false_or]
      exact setBackLine_poison m l
    · dsimp only
      have hs : lineFind l.granule (linePut { l with l1 := false } (if 16 ≤ (m.storeWays (l.granule / 2)).length
          then m.evictStore (victimOf (m.storeWays (l.granule / 2))) else m).tsc) = some { l with l1 := false } :=
        lineFind_linePut_self { l with l1 := false } _
      refine poisoned_of_dirty (l := { l with l1 := false }) ((dirty_of_tsc ?_).trans hs)
      dsimp only
      split
      · rwa [evictStore_cache]
      · exact hc

/-! ### What reads leave (03 R66) -/

section
variable {s t : State} (h : Fetched s t)
include h

theorem Fetched.readNat (pa n : Nat) : t.mem.readNat pa n = s.mem.readNat pa n := by
  obtain ⟨_, _, _, _, rfl⟩ := h
  exact readNat_congr fun _ _ => rfl

theorem Fetched.poisoned (g : Nat) : t.mem.poisoned g = s.mem.poisoned g := by
  obtain ⟨_, _, _, _, rfl⟩ := h
  rfl

theorem Fetched.wf : Memory.wf t.mem = Memory.wf s.mem := by
  obtain ⟨_, _, _, _, rfl⟩ := h
  rfl

theorem Fetched.tr : t.tr = s.tr := by
  obtain ⟨_, _, _, _, rfl⟩ := h
  rfl

theorem Fetched.fab : t.fab = s.fab := by
  obtain ⟨_, _, _, _, rfl⟩ := h
  rfl

theorem Fetched.straps : t.straps = s.straps := by
  obtain ⟨_, _, _, _, rfl⟩ := h
  rfl

theorem Fetched.tramRegion (pa mt : Nat) : t.tramRegion pa mt = s.tramRegion pa mt := by
  obtain ⟨_, _, _, _, rfl⟩ := h
  rfl

theorem Fetched.unbacked (pa : Nat) : t.unbacked pa = s.unbacked pa := by
  obtain ⟨_, _, _, _, rfl⟩ := h
  rfl

theorem Fetched.waitsForFill (pa : Nat) : t.waitsForFill pa = s.waitsForFill pa := by
  obtain ⟨_, _, _, _, rfl⟩ := h
  rfl

theorem Fetched.typeOf (mt pa : Nat) : t.typeOf mt pa = s.typeOf mt pa := by
  obtain ⟨_, _, _, _, rfl⟩ := h
  rfl

theorem Fetched.inLog (pa : Nat) : t.inLog pa = s.inLog pa := by
  obtain ⟨_, _, _, _, rfl⟩ := h
  rfl

end

/-! ### Accesses at normal addresses (13 R294) -/

/-- Backed normal memory that waits for no zero-fill. -/
def UsableAt (s : State) (a : Nat) : Prop := s.tramRegion a 4 = true ∧ s.unbacked a = false ∧ s.waitsForFill a = false

theorem UsableAt.fetched {s t : State} {a : Nat} (u : UsableAt s a) (h : Fetched s t) : UsableAt t a := by
  obtain ⟨hr, hu, hw⟩ := u
  exact ⟨(h.tramRegion a 4).trans hr, (h.unbacked a).trans hu, (h.waitsForFill a).trans hw⟩

/-- A normal address of the physical map is coherent. -/
theorem typeOf_normal {s : State} {a : Nat} (h : s.tramRegion a 4 = true) : s.typeOf 4 a = .cached ∨ s.typeOf 4 a = .scratch := by
  unfold State.tramRegion at h
  unfold State.typeOf
  split at h
  · next hs => exact .inr (if_pos hs)
  · next hs =>
    left
    simp only [if_neg hs]
    simp only [Bool.and_eq_true] at h
    obtain ⟨-, h⟩ := h
    cases hr : s.region a with
    | none => rfl
    | some r =>
      rw [hr] at h
      simp only [Bool.and_eq_true, Bool.not_eq_true'] at h
      simp only [h.1, Bool.false_eq_true, if_false]

/-- A read of the tram engine at a normal address. -/
theorem tramRead_normal {s : State} {a : Nat} (hr : s.tramRegion a 4 = true) (hu : s.unbacked a = false) (n : Nat) :
    s.tramRead (s.typeOf 4 a) a n = (s.portRead 4 false (s.typeOf 4 a) a n, s.mem.readNat a n, s.mem.poisoned (a / 64)) := by
  have hf := portRead_fetched s 4 false (s.typeOf 4 a) a n
  refine (if_neg (ne_true_of_eq_false hu)).trans ?_
  rw [← hf.readNat a n, ← hf.poisoned]
  rcases typeOf_normal hr with h | h <;> rw [h] <;> rfl

/-- `t` is `s` after reads and one clean write of the granule at `a`. -/
def GranulePut (s t : State) (a v : Nat) : Prop :=
  ∃ u, Fetched s u ∧ t = { u with mem := u.mem.engineGranule (a / 64) (BitVec.ofNat 512 v) false }

/-- A clean write of a whole granule by the tram engine at a normal address. -/
theorem tramWrite_granule {s : State} {a : Nat} (u : UsableAt s a) (ha : a % 64 = 0) (v : Nat) :
    GranulePut s (s.tramWrite (s.typeOf 4 a) a 64 v false) a v := by
  obtain ⟨hr, hu, -⟩ := u
  refine ⟨s, .refl s, (if_neg (ne_true_of_eq_false hu)).trans ((if_pos ⟨rfl, ha⟩).trans ?_)⟩
  rcases typeOf_normal hr with h | h <;> rw [h] <;> rfl

section
variable {s t : State} {a v : Nat} (h : GranulePut s t a v)
include h

theorem GranulePut.after {r : State} (hf : Fetched r s) : GranulePut r t a v := by
  obtain ⟨u, hu, e⟩ := h
  exact ⟨u, hf.trans hu, e⟩

theorem GranulePut.readNat (hw : Memory.wf s.mem = true) (ha : a % 64 = 0) : t.mem.readNat a 64 = v % 256 ^ 64 := by
  obtain ⟨u, hu, rfl⟩ := h
  exact (readNat_engineGranule (hu.wf.trans hw) ha _ _).trans (toNat_ofNat_bytes (n := 64) rfl v)

theorem GranulePut.wf (hw : Memory.wf s.mem = true) : Memory.wf t.mem = true := by
  obtain ⟨u, hu, rfl⟩ := h
  exact Memory.wf_engineGranule _ _ _ (hu.wf.trans hw)

theorem GranulePut.clean : t.mem.poisoned (a / 64) = false := by
  obtain ⟨u, hu, rfl⟩ := h
  exact poisoned_putEngine u.mem { granule := a / 64, data := BitVec.ofNat 512 v, poison := false, l1 := false }

theorem GranulePut.tr : t.tr = s.tr := by
  obtain ⟨u, hu, rfl⟩ := h
  exact hu.tr

theorem GranulePut.fab : t.fab = s.fab := by
  obtain ⟨u, hu, rfl⟩ := h
  exact hu.fab

theorem GranulePut.straps : t.straps = s.straps := by
  obtain ⟨u, hu, rfl⟩ := h
  exact hu.straps

end

/-! ### Addresses of a channel with PA set (13 R294) -/

section
variable {s : State} {c : Fin 32} (hp : (s.tr.ch[c]).pa = true)
include hp

theorem tramAddr_physical {a : Nat} (ha : a < 2 ^ 47) (hr : s.tramRegion a 4 = true) (hw : s.waitsForFill a = false) (part : TramPart)
    (kind : AccKind) : s.tramAddr c part a kind = .ok s a (s.typeOf 4 a) := by
  refine (if_pos hp).trans ((if_pos ha).trans ?_)
  unfold State.tramFinal
  rw [hr, hw]
  rfl

/-- A read within a granule by a channel. -/
theorem fetchBytes_within {a n : Nat} (ha : a < 2 ^ 47) (u : UsableAt s a) (hn : n ≤ 64 - a % 64) :
    ∃ t, Fetched s t ∧ s.fetchBytes c a n = .ok (t, s.mem.readNat a n, s.mem.poisoned (a / 64)) := by
  obtain ⟨hr, hu, hw⟩ := u
  refine ⟨s.portRead 4 false (s.typeOf 4 a) a n, portRead_fetched .., ?_⟩
  simp only [State.fetchBytes, tramAddr_physical hp ha hr hw, Nat.min_eq_left hn, Nat.le_refl, if_true, tramRead_normal hr hu]

end

end Sys2Proof.Machine
end

section
/-! ## The operations of tram descriptors (13 R295, R296, R299, Table 13.8) -/

namespace Sys2Proof.Machine

/-! ### Whose turn it is (R292) -/

/-- Channel `c` has the turn, runs on physical addresses, and its one open descriptor `o` has made no access. -/
structure Serving (s : State) (c : Fin 32) (o : TramOpen) : Prop where
  /-- TRCFG.EN. -/
  en : (s.tr.ch[c]).en = true
  /-- The turn. -/
  turn : s.tramTurn = some c
  /-- TRCFG.PA. -/
  pa : (s.tr.ch[c]).pa = true
  /-- The descriptor. -/
  opens : (s.tr.ch[c]).opens = [o]
  /-- It has accesses to make. -/
  issued : o.issued = false
  /-- EN has not been cleared. -/
  ending : o.ending = false
  /-- No reply is awaited. -/
  waits : o.waits = []
  /-- It has not failed. -/
  status : o.status = 0
  /-- It is at its start. -/
  bytes : o.bytes = 0

/-- The state in which a channel's unit is the one served. -/
def State.serving (s : State) (c : Fin 32) : State := { s with tr := { s.tr with served := c } }

@[simp] theorem serving_mem (s : State) (c : Fin 32) : (s.serving c).mem = s.mem := rfl

section
variable {s : State} {c : Fin 32} {o : TramOpen} {op : Nat} {f : State → TramOpen → State}

theorem tramOp_idle (h : (s.tr.ch[c]).current = none ∨ s.tramTurn ≠ some c) : s.tramOp c op f = s := by
  unfold State.tramOp
  split
  · next o ho =>
    refine if_neg fun hx => ?_
    rcases h with h | h
    · rw [h] at ho
      cases ho
    · exact h hx.2
  · rfl

theorem tramOp_other (h : (s.tr.ch[c]).current = some o) (ho : descOp o.desc ≠ op) : s.tramOp c op f = s := by
  simp only [State.tramOp, h, ho, false_and, if_false]

theorem Serving.tramOp (h : Serving s c o) (ho : descOp o.desc = op) : s.tramOp c op f = f (s.serving c) o := by
  have hc : (s.tr.ch[c]).current = some o := by
    unfold Channel.current
    rw [h.opens, h.en, List.find?_cons_of_pos (by rw [h.issued]; rfl)]
    rfl
  simp only [State.tramOp, hc, ho, h.turn, and_self, if_true, State.serving]

theorem Serving.move (h : Serving s c o) (u : State) : o.move u = { s := u, done := 0, poison := false } := by
  simp [TramOpen.move, h.bytes, h.status]

/-- What an operation notes of the descriptor that it has ended. -/
theorem Serving.noteIssued (h : Serving s c o) {u : State} (hu : u.tr.ch = s.tr.ch) (st b : Nat) (r : Word)
    (w : List (BitVec 12 × Nat × Nat)) : ((u.noteIssued c st b r w).tr.ch[c]).opens =
      [{ o with issued := true, status := BitVec.ofNat 4 st, bytes := BitVec.ofNat 40 b, result := r, waits := w }] := by
  have ho : (u.tr.ch[c]).opens = [o] := by
    rw [hu]
    exact h.opens
  have hs : ¬2 ≤ o.status.toNat := by
    rw [h.status]
    decide
  refine (congrArg Channel.opens (setChannel_self u c _)).trans ?_
  simp only [ho, setOldest, h.issued, Bool.false_eq_true, if_false, TramOpen.failed, hs, h.ending]

theorem note_done {m : Move} (h : descLen o.desc ≤ m.done) (hp : m.poison = false) (r : Word) (w : List (BitVec 12 × Nat × Nat)) :
    (TramEnd.done m).note c o r w = m.s.noteIssued c 0 m.done r w := by
  refine (if_pos h).trans ?_
  rw [hp]
  rfl

end

/-! ### A granule copied -/

/-- Backed normal memory with a clean granule that waits for no zero-fill. -/
def CleanAt (s : State) (a : Nat) : Prop :=
  s.tramRegion a 4 = true ∧ s.unbacked a = false ∧ s.waitsForFill a = false ∧ s.mem.poisoned (a / 64) = false

theorem CleanAt.usable {s : State} {a : Nat} (h : CleanAt s a) : UsableAt s a := ⟨h.1, h.2.1, h.2.2.1⟩

theorem CleanAt.fetched {s t : State} {a : Nat} (h : CleanAt s a) (k : Fetched s t) : CleanAt t a := by
  obtain ⟨hr, hu, hw⟩ := h.usable.fetched k
  exact ⟨hr, hu, hw, (k.poisoned _).trans h.2.2.2⟩

theorem repeatBytes_once {v : Nat} (h : v < 256 ^ 64) : repeatBytes v 64 64 = v := by
  have h' : v < 2 ^ (8 * 64) := by rwa [two_pow_bytes rfl]
  unfold repeatBytes
  rw [if_neg (by decide), show (64 + 64 - 1) / 64 = 1 from rfl]
  simp only [List.range_one, List.foldl_cons, List.foldl_nil, Nat.mul_zero, Nat.pow_zero, Nat.mul_one, Nat.zero_add]
  exact Nat.mod_eq_of_lt h'

theorem pa_fetched {s t : State} {c : Fin 32} (hp : (s.tr.ch[c]).pa = true) (h : Fetched s t) : (t.tr.ch[c]).pa = true := by
  rw [h.tr]
  exact hp

section
variable {s : State} {c : Fin 32} (hp : (s.tr.ch[c]).pa = true)
include hp

/-- A clean read within a granule by a channel. -/
theorem fetchBytes_clean {a n : Nat} (ha : a < 2 ^ 47) (h : CleanAt s a) (hn : n ≤ 64 - a % 64) :
    ∃ t, Fetched s t ∧ s.fetchBytes c a n = .ok (t, s.mem.readNat a n, false) := by
  obtain ⟨t, ht, e⟩ := fetchBytes_within hp ha h.usable hn
  exact ⟨t, ht, by rw [e, h.2.2.2]⟩

/-- A copy of one aligned granule onto another. -/
theorem moveBytes_granule {src dst : Nat} (hs : src < 2 ^ 47) (hd : dst < 2 ^ 47) (as : src % 64 = 0) (ad : dst % 64 = 0)
    (ks : CleanAt s src) (kd : UsableAt s dst) (done : Nat) (p : Bool) : ∃ t, GranulePut s t dst (s.mem.readNat src 64) ∧
      State.moveBytes c src dst 64 true 64 { s := s, done := done, poison := p } = .done { s := t, done := done + 64, poison := p } := by
  obtain ⟨u, hu, he⟩ := fetchBytes_clean hp hs ks (n := 64) (by omega)
  obtain ⟨hr, hb, hw⟩ := kd.fetched hu
  have hk : (if src < dst ∧ dst - src < 64 then dst - src else 64) = 64 := if_neg (by omega)
  have ha := tramAddr_physical (pa_fetched hp hu) hd hr hw .data .store
  refine ⟨_, (tramWrite_granule (kd.fetched hu) ad _).after hu, ?_⟩
  have hpc : State.movePiece c src dst 64 true { s := s, done := done, poison := p } =
      .ok { s := u.tramWrite (u.typeOf 4 dst) dst 64 (s.mem.readNat src 64) false, done := done + 64, poison := p } := by
    simp only [State.movePiece, hk, he, Bool.not_true, Bool.false_eq_true, if_false, ha, Bool.or_false,
      repeatBytes_once (readNat_lt s.mem src 64)]
  have hmin : Nat.min 64 (64 - dst % 64) = 64 := by rw [ad]; rfl
  unfold State.moveBytes
  simp only [hmin, hpc]
  rw [if_neg (by decide)]
  rfl

/-- One granule of a reduce. -/
theorem reduceGranule_clean (r : RedOp) {src dst : Nat} (hs : src < 2 ^ 47) (hd : dst < 2 ^ 47) (as : src % 64 = 0) (ad : dst % 64 = 0)
    (ks : CleanAt s src) (kd : CleanAt s dst) (done : Nat) : ∃ t,
      GranulePut s t dst (reduceBytes r dst (s.mem.readNat dst 64) (s.mem.readNat src 64) (64 / redSize r.fmt)) ∧
      State.reduceGranule c r src dst { s := s, done := done, poison := false } = .ok { s := t, done := done + 64, poison := false } := by
  obtain ⟨u, hu, he⟩ := fetchBytes_clean hp hs ks (n := 64) (by omega)
  obtain ⟨hr, hb, hw, hc⟩ := kd.fetched hu
  have ha := tramAddr_physical (pa_fetched hp hu) hd hr hw .data .atomic
  have hq := portRead_fetched u 4 false (u.typeOf 4 dst) dst 64
  have hx := tramWrite_granule ((kd.fetched hu).usable.fetched hq) ad
    (reduceBytes r dst (s.mem.readNat dst 64) (s.mem.readNat src 64) (64 / redSize r.fmt))
  rw [hq.typeOf] at hx
  refine ⟨_, hx.after (hu.trans hq), ?_⟩
  simp only [State.reduceGranule, he, ha, tramRead_normal hr hb, hc, hu.readNat, Bool.or_false]

end

/-! ### How an operation ends -/

theorem unitLeft_one {d : BitVec 512} (hl : descLen d = 64) : unitLeft 0 (descLen d) = 64 := by
  rw [hl]
  rfl

/-- The descriptor has ended, its channel having been served. -/
def EndedWith (c : Fin 32) (o : TramOpen) (t : State) (st bytes : Nat) (result : Word) : Prop := t.tr.served = c
  ∧ (t.tr.ch[c]).opens = [{ o with issued := true, status := BitVec.ofNat 4 st, bytes := BitVec.ofNat 40 bytes, result := result, waits := [] }]

theorem CleanAt.served {s u : State} {a : Nat} {c : Fin 32} (h : CleanAt s a) (k : Fetched (s.serving c) u) : CleanAt u a :=
  CleanAt.fetched (s := s.serving c) h k

section
variable {s : State} {ch : BitVec 5} {o : TramOpen} (h : Serving s (tramOf ch) o)
include h

/-- An operation that ends its descriptor with no reply awaited. -/
theorem Serving.ends {cmd : Instr} {u : State} {st b : Nat} {r : Word} (hu : u.tr = (s.serving (tramOf ch)).tr)
    (hy : Yields cmd s (u.noteIssued (tramOf ch) st b r [])) :
    ∃ t, exec cmd s = .next t ∧ EndedWith (tramOf ch) o t st b r ∧ t.mem = u.mem :=
  ⟨_, hy, ⟨(congrArg Tram.served hu : u.tr.served = _), h.noteIssued (congrArg Tram.ch hu : u.tr.ch = _) st b r []⟩, rfl⟩

theorem Serving.served_pa {u : State} (hu : Fetched (s.serving (tramOf ch)) u) : (u.tr.ch[tramOf ch]).pa = true :=
  pa_fetched (s := s.serving (tramOf ch)) h.pa hu

theorem Serving.bytesNat : o.bytes.toNat = 0 := by
  rw [h.bytes]
  rfl

/-- A unit of 64 bytes done completes a descriptor of 64 bytes. -/
theorem Serving.note_unit (hl : descLen o.desc = 64) (u : State) : (TramEnd.done { s := u, done := 0 + 64, poison := false }).note (tramOf ch) o 0
    o.waits = u.noteIssued (tramOf ch) 0 64 0 [] := by
  rw [h.waits]
  exact note_done (Nat.le_of_eq hl) rfl 0 []

/-! ### COPY and COPY_REDUCE -/

theorem Serving.copy_granule (ho : descOp o.desc = 1) (hl : descLen o.desc = 64) (hs : descSrc o.desc < 2 ^ 47) (hd : descDst o.desc < 2 ^ 47)
    (as : descSrc o.desc % 64 = 0) (ad : descDst o.desc % 64 = 0) (ks : CleanAt s (descSrc o.desc)) (kd : CleanAt s (descDst o.desc)) :
    ∃ u, GranulePut (s.serving (tramOf ch)) u (descDst o.desc) (s.mem.readNat (descSrc o.desc) 64)
      ∧ Yields (.copy ch) s (u.noteIssued (tramOf ch) 0 64 0 []) := by
  obtain ⟨u, hu, he⟩ := moveBytes_granule (s := s.serving (tramOf ch)) h.pa hs hd as ad ks kd.usable 0 false
  have hw : (!(descDst o.desc == 0 && !((s.serving (tramOf ch)).tr.ch[tramOf ch]).pa)) = true := by
    rw [show ((s.serving (tramOf ch)).tr.ch[tramOf ch]).pa = true from h.pa, Bool.not_true, Bool.and_false]
    rfl
  have hc : State.tramCopy (tramOf ch) o.desc (o.move (s.serving (tramOf ch))) = .done { s := u, done := 0 + 64, poison := false } := by
    rw [h.move]
    unfold State.tramCopy
    simp only [unitLeft_one hl, hw, Nat.add_zero]
    exact he
  refine ⟨u, hu, congrArg (answer s) ((h.tramOp ho).trans ?_)⟩
  rw [hc]
  exact h.note_unit hl u

theorem Serving.copyReduce_granule (ho : descOp o.desc = 2) (hl : descLen o.desc = 64) (hs : descSrc o.desc < 2 ^ 47) (hd : descDst o.desc < 2 ^ 47)
    (as : descSrc o.desc % 64 = 0) (ad : descDst o.desc % 64 = 0) (ks : CleanAt s (descSrc o.desc)) (kd : CleanAt s (descDst o.desc)) :
    ∃ u, GranulePut (s.serving (tramOf ch)) u (descDst o.desc) (reduceBytes (descRed o.desc) (descDst o.desc) (s.mem.readNat (descDst o.desc) 64)
        (s.mem.readNat (descSrc o.desc) 64) (64 / redSize (descRed o.desc).fmt))
      ∧ Yields (.copyReduce ch) s (u.noteIssued (tramOf ch) 0 64 0 []) := by
  obtain ⟨u, hu, he⟩ := reduceGranule_clean (s := s.serving (tramOf ch)) h.pa (descRed o.desc) hs hd as ad ks kd 0
  have hc : State.tramReduce (tramOf ch) (descRed o.desc) (descSrc o.desc) (descDst o.desc) 1 (o.move (s.serving (tramOf ch))) =
      .done { s := u, done := 0 + 64, poison := false } := by
    rw [h.move]
    unfold State.tramReduce
    rw [he]
    rfl
  refine ⟨u, hu, congrArg (answer s) ((h.tramOp ho).trans ?_)⟩
  simp only [h.bytesNat, unitLeft_one hl, Nat.add_zero, Nat.div_self (Nat.succ_pos 63), hc]
  exact h.note_unit hl u

/-! ### GATHER -/

/-- The check of a list of one address. -/
theorem Serving.gatherAligned_one {list : Nat} {u : State} (hf : (s.serving (tramOf ch)).fetchBytes (tramOf ch) list 8 = .ok (u, s.mem.readNat list 8, false)) :
    State.gatherAligned (tramOf ch) 64 list 1 (o.move (s.serving (tramOf ch))) =
      if s.mem.readNat list 8 % 64 ≠ 0 then .error (.fail { s := u, done := 0, poison := false } 6)
      else .ok { s := u, done := 0, poison := false } := by
  rw [h.move]
  unfold State.gatherAligned
  rw [hf]
  rfl

section
variable (ho : descOp o.desc = 3) (hl : descLen o.desc = 64) (hg : descGlog o.desc = 6)
include ho hl hg

theorem Serving.gather_ends {e : TramEnd} (ha : State.gatherAligned (tramOf ch) 64 (descSrc o.desc) 1 (o.move (s.serving (tramOf ch))) = .error e) :
    Yields (.gather ch) s (e.note (tramOf ch) o 0 []) := by
  refine congrArg (answer s) ((h.tramOp ho).trans ?_)
  simp only [h.bytesNat, if_true, hg, hl, Nat.reducePow, ha, h.waits]

theorem Serving.gather_moves {m : Move} (ha : State.gatherAligned (tramOf ch) 64 (descSrc o.desc) 1 (o.move (s.serving (tramOf ch))) = .ok m) :
    Yields (.gather ch) s ((State.tramGather (tramOf ch) 64 (descSrc o.desc) (descDst o.desc) 64 64 m).note (tramOf ch) o 0 []) := by
  refine congrArg (answer s) ((h.tramOp ho).trans ?_)
  have hk : unitLeft 0 64 = 64 := rfl
  simp only [h.bytesNat, if_true, hg, hl, hk, Nat.reducePow, ha, h.waits]

theorem Serving.gather_misaligned (hs : descSrc o.desc < 2 ^ 47)
    (as : descSrc o.desc % 64 = 0) (ks : CleanAt s (descSrc o.desc)) (hx : s.mem.readNat (descSrc o.desc) 8 % 64 ≠ 0) :
    ∃ u, Fetched (s.serving (tramOf ch)) u ∧ Yields (.gather ch) s (u.noteIssued (tramOf ch) 6 0 0 []) := by
  obtain ⟨u, hu, hf⟩ := fetchBytes_clean (s := s.serving (tramOf ch)) (n := 8) h.pa hs ks (by omega)
  refine ⟨u, hu, h.gather_ends ho hl hg ((h.gatherAligned_one hf).trans (if_pos hx))⟩

theorem Serving.gather_granule (hs : descSrc o.desc < 2 ^ 47)
    (hd : descDst o.desc < 2 ^ 47) (as : descSrc o.desc % 64 = 0) (ad : descDst o.desc % 64 = 0) (ks : CleanAt s (descSrc o.desc))
    (kd : CleanAt s (descDst o.desc)) (hx : s.mem.readNat (descSrc o.desc) 8 % 64 = 0) (ha : s.mem.readNat (descSrc o.desc) 8 < 2 ^ 47)
    (ka : CleanAt s (s.mem.readNat (descSrc o.desc) 8)) :
    ∃ u, GranulePut (s.serving (tramOf ch)) u (descDst o.desc) (s.mem.readNat (s.mem.readNat (descSrc o.desc) 8) 64)
      ∧ Yields (.gather ch) s (u.noteIssued (tramOf ch) 0 64 0 []) := by
  have h8 : 8 ≤ 64 - descSrc o.desc % 64 := by omega
  obtain ⟨u, hu, hf⟩ := fetchBytes_clean (s := s.serving (tramOf ch)) (n := 8) h.pa hs ks h8
  obtain ⟨v, hv, hg2⟩ := fetchBytes_clean (s := u) (n := 8) (h.served_pa hu) hs (ks.served hu) h8
  have huv := hu.trans hv
  obtain ⟨w, hw, hm⟩ := moveBytes_granule (s := v) (h.served_pa huv) ha hd hx ad (ka.served huv)
    (kd.served huv).usable 0 false
  rw [huv.readNat] at hw
  rw [hu.readNat] at hg2
  have hy := h.gather_moves ho hl hg ((h.gatherAligned_one hf).trans (if_neg (not_not_intro hx)))
  have ht : State.tramGather (tramOf ch) 64 (descSrc o.desc) (descDst o.desc) 64 64 { s := u, done := 0, poison := false } =
      .done { s := w, done := 0 + 64, poison := false } := by
    unfold State.tramGather
    rw [if_neg (by decide)]
    have hk : Nat.min 64 64 = 64 := rfl
    simp only [Nat.zero_div, Nat.zero_mod, Nat.mul_zero, Nat.add_zero, Nat.sub_zero, hg2, hk, Bool.or_false]
    rw [serving_mem, if_neg (not_not_intro hx), hm]
    rfl
  rw [ht, note_done (Nat.le_of_eq hl) rfl] at hy
  exact ⟨w, hw.after huv, hy⟩

end

/-! ### JOURNAL_APPEND (10 R244) -/

section
variable (hs : descSrc o.desc < 2 ^ 47) (as : descSrc o.desc % 64 = 0) (ks : CleanAt s (descSrc o.desc))
  (hd : descDst o.desc < 2 ^ 47) (hr : s.tramRegion (descDst o.desc) 4 = true) (hw : s.waitsForFill (descDst o.desc) = false)
include hs as ks hd hr hw

/-- JOURNAL_APPEND reads its source, and its destination tells whether it is written. -/
theorem Serving.append_fetches : ∃ u, Fetched (s.serving (tramOf ch)) u ∧ State.tramAppend (s.serving (tramOf ch)) (tramOf ch) o.desc =
    if s.inLog (descDst o.desc) then .done ⟨u.logWrite (descDst o.desc) (BitVec.ofNat 512 (s.mem.readNat (descSrc o.desc) 64)) false, 64, false⟩
    else .fail { s := u, done := 0, poison := false } 8 := by
  obtain ⟨u, hu, he⟩ := fetchBytes_clean (s := s.serving (tramOf ch)) (n := 64) h.pa hs ks (by omega)
  have ha := tramAddr_physical (h.served_pa hu) hd ((hu.tramRegion _ _).trans hr) ((hu.waitsForFill _).trans hw)
    .data .store
  refine ⟨u, hu, ?_⟩
  simp only [State.tramAppend, he, ha, hu.inLog]
  rfl

theorem Serving.append_refused (ho : descOp o.desc = 7) (hi : s.inLog (descDst o.desc) = false) :
    ∃ u, Fetched (s.serving (tramOf ch)) u ∧ Yields (.journalAppend ch) s (u.noteIssued (tramOf ch) 8 0 0 []) := by
  obtain ⟨u, hu, he⟩ := h.append_fetches hs as ks hd hr hw
  refine ⟨u, hu, congrArg (answer s) ((h.tramOp ho).trans ?_)⟩
  rw [he, if_neg (ne_true_of_eq_false hi), h.waits]
  rfl

theorem Serving.append_logged (ho : descOp o.desc = 7) (hi : s.inLog (descDst o.desc) = true) (hl : descLen o.desc = 64) :
    ∃ u, Fetched (s.serving (tramOf ch)) u ∧ Yields (.journalAppend ch) s
      ((u.logWrite (descDst o.desc) (BitVec.ofNat 512 (s.mem.readNat (descSrc o.desc) 64)) false).noteIssued (tramOf ch) 0 64 0 []) := by
  obtain ⟨u, hu, he⟩ := h.append_fetches hs as ks hd hr hw
  refine ⟨u, hu, congrArg (answer s) ((h.tramOp ho).trans ?_)⟩
  rw [he, if_pos hi, h.waits]
  exact note_done (Nat.le_of_eq hl) rfl 0 []

end

end

theorem backByte_setBackPoison (m : Mem) (g : Nat) (p : Bool) (a : Nat) : (m.setBackPoison g p).backByte a = m.backByte a := rfl

theorem backByte_portWrite (m : Mem) (src : BitVec 3) (pa n v a : Nat) : (m.portWrite src pa n v).backByte a = (m.setBackNat pa v n).backByte a := rfl

/-- A record in the log tier stands in memory itself. -/
theorem backByte_logWrite {s : State} (h : Memory.wf s.mem = true) (pa v : Nat) (p : Bool) {k : Nat} (hk : k < 64) :
    (s.logWrite pa (BitVec.ofNat 512 v) p).mem.backByte (pa + k) = BitVec.ofNat 8 (v % 256 ^ 64 / 256 ^ k) := by
  unfold State.logWrite
  dsimp only
  rw [backByte_setBackPoison, backByte_portWrite, backByte_setBackNat (Memory.wf_dropLine _ h) _ _ hk, toNat_ofNat_bytes (n := 64) rfl v]

theorem not_inScratch_of_inLog {s : State} {pa : Nat} (h : s.inLog pa = true) : inScratch pa = false := by
  unfold State.inLog at h
  rw [Bool.and_eq_true] at h
  exact Bool.not_eq_true' _ ▸ h.1

theorem logWrite_tr (s : State) (pa : Nat) (data : BitVec 512) (p : Bool) : (s.logWrite pa data p).tr = s.tr := by
  unfold State.logWrite
  dsimp only
  split <;> rfl

/-! ### DIGEST (10 R244) -/

theorem pow_words {w n : Nat} (h : w = 8 * n) (m : Nat) : 2 ^ (w * (m + 1)) = 256 ^ n * 2 ^ (w * m) := by
  rw [Nat.mul_succ, Nat.pow_add, two_pow_bytes h, Nat.mul_comm]

/-- The place of a block's granule, below the one after it. -/
theorem blockPlace_succ {n : Nat} (h : n + 1 ≤ 64) : 2 ^ (512 * (64 - n)) = 256 ^ 64 * 2 ^ (512 * (64 - (n + 1))) := by
  rw [show 64 - n = 64 - (n + 1) + 1 by omega, pow_words (n := 64) rfl]

theorem readNat_granules (m : Mem) (a n : Nat) : m.readNat a (64 * (n + 1)) = m.readNat a 64 + 256 ^ 64 * m.readNat (a + 64) (64 * n) := by
  rw [Nat.mul_succ, Nat.add_comm (64 * n), readNat_add]

section
variable {s : State} {c : Fin 32} (hp : (s.tr.ch[c]).pa = true)
include hp

/-- Granules read one after another are the number that their bytes are. -/
theorem readBlock_clean {addr n : Nat} (hn : n ≤ 64) (ha : addr % 64 = 0) (hb : addr + 64 * n ≤ 2 ^ 47) (hk : ∀ k < n, CleanAt s (addr + 64 * k))
    (done acc : Nat) : ∃ t, Fetched s t ∧ State.readBlock c addr n { s := s, done := done, poison := false } acc =
      .ok ({ s := t, done := done + 64 * n, poison := false }, acc + s.mem.readNat addr (64 * n) * 2 ^ (512 * (64 - n))) := by
  induction n generalizing s addr done acc with
  | zero => exact ⟨s, .refl s, by rw [Nat.mul_zero]; simp only [State.readBlock, Mem.readNat, Nat.zero_mul, Nat.add_zero]⟩
  | succ n ih =>
    obtain ⟨t, ht, he⟩ := fetchBytes_clean (n := 64) hp (by omega) (hk 0 (by omega)) (by omega)
    obtain ⟨u, hu, hr⟩ := ih (s := t) (addr := addr + 64) (pa_fetched hp ht) (by omega) (by omega)
      (by rw [Nat.add_assoc, Nat.add_comm 64, ← Nat.mul_succ]; exact hb)
      (fun k hk' => CleanAt.fetched (by rw [Nat.add_assoc, Nat.add_comm 64, ← Nat.mul_succ]; exact hk (k + 1) (by omega)) ht) (done + 64)
      (acc + s.mem.readNat addr 64 * 2 ^ (512 * (64 - (n + 1))))
    refine ⟨u, ht.trans hu, ?_⟩
    rw [Nat.mul_zero, Nat.add_zero] at he
    unfold State.readBlock
    simp only [he, Bool.or_false, hr, ht.readNat]
    rw [readNat_granules, blockPlace_succ hn, Nat.add_mul, Nat.add_assoc acc, Nat.mul_comm (256 ^ 64) (s.mem.readNat _ _), Nat.mul_assoc,
      show done + 64 * (n + 1) = done + 64 + 64 * n by omega]

end

theorem tramDigest_block {c : Fin 32} {a b : Nat} {m n : Move} (h : State.readBlock c a 64 m 0 = .ok (n, b)) (acc : Nat) :
    State.tramDigest c a m acc = (.done n, wd (acc + crc64 (b + a % 2 ^ 64 * 2 ^ (8 * 4096)) 4104)) := by
  unfold State.tramDigest
  rw [h]

section
variable {s : State} {ch : BitVec 5} {o : TramOpen} (h : Serving s (tramOf ch) o)
include h

theorem Serving.digest_yields (ho : descOp o.desc = 8) {e : TramEnd} {w : Word}
    (hd : State.tramDigest (tramOf ch) (descSrc o.desc) (o.move (s.serving (tramOf ch))) o.result.toNat = (e, w)) :
    Yields (.digest ch) s (e.note (tramOf ch) o w []) := by
  refine congrArg (answer s) ((h.tramOp ho).trans ?_)
  simp only [h.bytesNat, Nat.zero_div, Nat.mul_zero, Nat.add_zero, hd, h.waits]

theorem Serving.digest_block (ho : descOp o.desc = 8) (hz : o.result = 0) (hl : descLen o.desc = 4096) (as : descSrc o.desc % 64 = 0)
    (hs : descSrc o.desc < 2 ^ 46) (hk : ∀ k < 64, CleanAt s (descSrc o.desc + 64 * k)) : ∃ u, Fetched (s.serving (tramOf ch)) u
      ∧ Yields (.digest ch) s (u.noteIssued (tramOf ch) 0 4096
        (wd (crc64 (s.mem.readNat (descSrc o.desc) 4096 + descSrc o.desc * 2 ^ (8 * 4096)) 4104)) []) := by
  obtain ⟨u, hu, he⟩ := readBlock_clean (s := s.serving (tramOf ch)) (n := 64) h.pa (Nat.le_refl 64) as (by omega) hk 0 0
  rw [← h.move, Nat.zero_add, Nat.sub_self, Nat.mul_zero, Nat.pow_zero, Nat.mul_one, Nat.zero_add, serving_mem] at he
  have hd := tramDigest_block he o.result.toNat
  have hr : o.result.toNat = 0 := by rw [hz]; rfl
  have ha : descSrc o.desc % 2 ^ 64 = descSrc o.desc := Nat.mod_eq_of_lt (by omega)
  rw [ha, hr, Nat.zero_add] at hd
  have hy := h.digest_yields ho (hr ▸ hd)
  rw [note_done (Nat.le_of_eq hl) rfl] at hy
  exact ⟨u, hu, hy⟩

end

/-! ### The remote operations (R294, 17 R383) -/

theorem pagesOf_granule {a : Nat} (h : a % 64 = 0) : pagesOf a 64 = [a] := by
  have hz : (a % 16384 + 64 - 1) / 16384 = 0 := by omega
  unfold pagesOf
  rw [hz]
  rfl

theorem remotePieces_granule {a : Nat} (h : a % 64 = 0) : remotePieces a 0 64 64 = [(a, 0, 64)] := by
  simp only [remotePieces, h]
  rfl

theorem pieceGranules_one {a : Nat} (h : a % 64 = 0) : pieceGranules a 64 = 1 := by
  unfold pieceGranules
  rw [h]

section
variable {s : State} {c : Fin 32} (hp : (s.tr.ch[c]).pa = true)
include hp

/-- The local bytes of a piece of one granule. -/
theorem gatherPiece_granule {src dst : Nat} (hs : src < 2 ^ 47) (as : src % 64 = 0) (ad : dst % 64 = 0) (ks : CleanAt s src) :
    ∃ t, Fetched s t ∧ State.gatherPiece c src dst 64 (64 + 1) { s := s, done := 0, poison := false } 0 0 0 =
      .ok ({ s := t, done := 0 + 64, poison := false }, s.mem.readNat src 64, 0) := by
  obtain ⟨t, ht, he⟩ := fetchBytes_clean (n := 64) hp hs ks (by omega)
  have hk : Nat.min 64 64 = 64 := rfl
  refine ⟨t, ht, ?_⟩
  unfold State.gatherPiece
  simp only [Nat.le_zero, OfNat.ofNat_ne_zero, if_false, Nat.add_zero, Nat.sub_zero, ad, hk, he, Bool.or_false, Nat.mul_zero, Nat.pow_zero, Nat.mul_one, Nat.zero_add,
    Bool.false_eq_true]
  exact if_pos (Nat.le_refl 64)

/-- The packet of a remote write or reduce of one granule. -/
def State.granulePacket (s : State) (d : BitVec 512) (type : BitVec 4) : Packet :=
  { s.packetTo (descNode d) with
    tag := s.tr.nextTag, addr := BitVec.ofNat 47 (descDst d), len := 64, data := [BitVec.ofNat 512 (s.mem.readNat (descSrc d) 64)]
    sr := type == 8 && (descRed d).sr, red := if type = 8 then BitVec.ofNat 2 (descRed d).red else 0,
    fmt := if type = 8 then BitVec.ofNat 3 (descRed d).fmt else 0, inl := if type = 8 then inlineOf [(descRed d).seed, (descRed d).base] else 0 }

theorem sendWrites_granule {d : BitVec 512} (hs : descSrc d < 2 ^ 47) (as : descSrc d % 64 = 0) (ad : descDst d % 64 = 0) (ks : CleanAt s (descSrc d))
    (type : BitVec 4) : ∃ t, Fetched s t ∧ State.sendWrites c d type [(descDst d, 0, 64)] { s := s, out := [], waits := [], done := 0, poison := false } =
      ({ s := t.takeTag.1, out := [(type, s.granulePacket d type)], waits := [(s.tr.nextTag, 0, 64)], done := 0 + 64, poison := false }, none) := by
  obtain ⟨t, ht, he⟩ := gatherPiece_granule hp hs as ad ks
  refine ⟨t, ht, ?_⟩
  have hg : t.takeTag.2 = s.tr.nextTag := congrArg Tram.nextTag ht.tr
  have hn : t.takeTag.1.packetTo (descNode d) = s.packetTo (descNode d) := by
    unfold State.packetTo
    rw [show t.takeTag.1.straps = t.straps from rfl, ht.straps]
  unfold State.sendWrites
  simp only [Nat.add_zero, he, pieceGranules_one ad, hn, hg]
  rw [Nat.div_mul_cancel (Nat.dvd_of_mod_eq_zero ad), ad]
  rfl

end

section
variable {s : State} {ch : BitVec 5} {o : TramOpen} (h : Serving s (tramOf ch) o)
include h

/-- REMOTE_READ of one granule. -/
theorem Serving.remoteRead_granule (ho : descOp o.desc = 4) (hl : descLen o.desc = 64) (as : descSrc o.desc % 64 = 0) (ad : descDst o.desc % 64 = 0)
    (hd : descDst o.desc < 2 ^ 47) (kd : UsableAt s (descDst o.desc)) :
    Yields (.remoteRead ch) s (((s.serving (tramOf ch)).takeTag.1.sendPackets [(1, { s.packetTo (descNode o.desc) with
      tag := s.tr.nextTag, addr := BitVec.ofNat 47 (descSrc o.desc), len := 64 })]).noteIssued (tramOf ch) 0 64 0 [(s.tr.nextTag, 0, 64)]) := by
  obtain ⟨hr, -, hw⟩ := kd
  have ha := tramAddr_physical (s := s.serving (tramOf ch)) h.pa hd hr hw .data .store
  have ht : State.touchPages (tramOf ch) [descDst o.desc] (s.serving (tramOf ch)) = (none, s.serving (tramOf ch)) := by
    simp only [State.touchPages, ha]
  have hp : decide (o.status = 1) = false := by rw [h.status]; rfl
  refine congrArg (answer s) ((h.tramOp ho).trans ?_)
  simp only [h.bytesNat, unitLeft_one hl, Nat.add_zero, pagesOf_granule ad, ht, remotePieces_granule as, State.sendReads, pieceGranules_one as, h.waits, hp]
  refine (note_done (m := { s := _, done := 0 + 64, poison := false }) (Nat.le_of_eq hl) rfl 0 _).trans ?_
  rw [Nat.div_mul_cancel (Nat.dvd_of_mod_eq_zero as)]
  rfl

theorem Serving.tramSend_granule (hl : descLen o.desc = 64) (hs : descSrc o.desc < 2 ^ 47) (as : descSrc o.desc % 64 = 0)
    (ad : descDst o.desc % 64 = 0) (ks : CleanAt s (descSrc o.desc)) (type : BitVec 4) : ∃ u, Fetched (s.serving (tramOf ch)) u
      ∧ (s.serving (tramOf ch)).tramSend (tramOf ch) o type =
        (u.takeTag.1.sendPackets [(type, s.granulePacket o.desc type)]).noteIssued (tramOf ch) 0 64 0 [(s.tr.nextTag, 0, 64)] := by
  obtain ⟨u, hu, he⟩ := sendWrites_granule (s := s.serving (tramOf ch)) h.pa hs as ad ks type
  have hp : decide (o.status = 1) = false := by rw [h.status]; rfl
  refine ⟨u, hu, ?_⟩
  unfold State.tramSend
  simp only [h.bytesNat, unitLeft_one hl, Nat.add_zero, remotePieces_granule ad, h.waits, hp, he]
  exact note_done (m := { s := _, done := 0 + 64, poison := false }) (Nat.le_of_eq hl) rfl 0 _

/-- A remote operation of one granule: its packet leaves, and its reply is awaited. -/
theorem Serving.awaits {cmd : Instr} {u : State} {type : BitVec 4} {p : Packet} (hu : Fetched (s.serving (tramOf ch)) u)
    (hy : Yields cmd s ((u.takeTag.1.sendPackets [(type, p)]).noteIssued (tramOf ch) 0 64 0 [(s.tr.nextTag, 0, 64)])) :
    ∃ t, exec cmd s = .next t ∧ t.mem = u.mem
      ∧ (∃ y, t.tr.ch[tramOf ch].opens = [y] ∧ y.issued = true ∧ y.waits = [(s.tr.nextTag, 0, 64)]) ∧ t.fab = (s.sendPacket type p).fab :=
  ⟨_, hy, rfl, ⟨_, h.noteIssued (u := u.takeTag.1.sendPackets [(type, p)]) (congrArg Tram.ch hu.tr : u.tr.ch = _) 0 64 0 _, rfl, rfl⟩,
    congrArg (fun f => sendWaiting f (f.waiting ++ [(type, p)])) hu.fab⟩

end

/-! ### What the layout asks of a descriptor (R295) -/

theorem reduce_aligned {d : BitVec 512} (ho : descOp d = 2) (h : descOk d = true) : descSrc d % 64 = 0 ∧ descDst d % 64 = 0 := by
  simp only [descOk, ho, Bool.and_eq_true, decide_eq_true_eq] at h
  tauto

theorem gather_aligned {d : BitVec 512} (ho : descOp d = 3) (hg : descGlog d = 6) (h : descOk d = true) : descDst d % 64 = 0 := by
  simp only [descOk, ho, hg, Bool.and_eq_true, decide_eq_true_eq] at h
  tauto

theorem append_aligned {d : BitVec 512} (ho : descOp d = 7) (h : descOk d = true) : descSrc d % 64 = 0 ∧ descLen d = 64 := by
  simp only [descOk, ho, Bool.and_eq_true, decide_eq_true_eq, beq_iff_eq] at h
  tauto

theorem digest_aligned {d : BitVec 512} (ho : descOp d = 8) (h : descOk d = true) : descSrc d % 4096 = 0 := by
  simp only [descOk, ho, Bool.and_eq_true, decide_eq_true_eq] at h
  tauto

/-! ### The commands by their OP -/

/-- The operation of a descriptor's OP. -/
def tramCommand (ch : BitVec 5) (op : Nat) : Instr :=
  if op = 1 then .copy ch else if op = 2 then .copyReduce ch else if op = 3 then .gather ch else if op = 4 then .remoteRead ch
  else if op = 5 then .remoteWrite ch else if op = 6 then .remoteReduce ch else if op = 7 then .journalAppend ch else .digest ch

/-- Each operation is a unit of a descriptor with its own OP. -/
theorem tramCommand_stays {s : State} {ch : BitVec 5} {op : Nat} (h1 : 1 ≤ op) (h8 : op ≤ 8) (h : ∀ f, s.tramOp (tramOf ch) op f = s) :
    Yields (tramCommand ch op) s s := by
  interval_cases op <;> exact congrArg (answer s) (h _)

/-- The word that JOURNAL_APPEND writes is the number read. -/
theorem backByte_appended {s u : State} {c : Fin 32} (h : Fetched (s.serving c) u) (hw : Memory.wf s.mem = true) (pa src : Nat) {k : Nat} (hk : k < 64) :
    (u.logWrite pa (BitVec.ofNat 512 (s.mem.readNat src 64)) false).mem.backByte (pa + k) = BitVec.ofNat 8 (s.mem.readNat src 64 / 256 ^ k) := by
  rw [backByte_logWrite (h.wf.trans hw) pa _ false hk, Nat.mod_eq_of_lt (readNat_lt s.mem src 64)]

/-- Reads that serve a channel change no memory. -/
theorem Fetched.sameMemory_serving {s u t : State} {c : Fin 32} (h : Fetched (s.serving c) u) (hm : t.mem = u.mem) : SameMemory s t := by
  have hs : SameMemory (s.serving c) u := h.sameMemory
  unfold SameMemory at hs ⊢
  rw [hm]
  exact hs

/-- Settles O54: each operation, where the channel is served, makes its accesses through the layer of reads and of granules written, and notes its end. -/
theorem tramOperations : Obligations.TramOperations := by
  intro s ch op o
  dsimp only
  refine ⟨fun h1 h8 hi => tramCommand_stays h1 h8 fun _ => tramOp_idle hi,
    fun h1 h8 hc ho => tramCommand_stays h1 h8 fun _ => tramOp_other hc ho, ?_⟩
  intro hen htu hpa hop his hed hwa hst hby hdo hwf hok hsrc hdst
  have h : Serving s (tramOf ch) o := ⟨hen, htu, hpa, hop, his, hed, hwa, hst, hby⟩
  have hs : descSrc o.desc < 2 ^ 47 := by omega
  have hd : descDst o.desc < 2 ^ 47 := by omega
  refine ⟨fun e ks kd hl as ad => ?_, fun e ks kd hl => ?_, fun e ks hl hg as hx => ?_, fun e ks kd hl hg as hx ha ka => ?_,
    fun e kd as hl ad => ?_, fun e ks hl as ad => ?_, fun e ks hr hw hi => ?_, fun e ks hr hi => ?_, fun e hz hl hk => ?_⟩
  · obtain ⟨u, hu, hy⟩ := h.copy_granule (hdo.trans e) hl hs hd as ad ks kd
    obtain ⟨t, ht, hn, hm⟩ := h.ends hu.tr hy
    refine ⟨t, ht, hn, ?_, hm ▸ hu.wf hwf⟩
    rw [hm, hu.readNat hwf ad, Nat.mod_eq_of_lt (readNat_lt s.mem _ 64)]
  · obtain ⟨as, ad⟩ := reduce_aligned (hdo.trans e) hok
    obtain ⟨u, hu, hy⟩ := h.copyReduce_granule (hdo.trans e) hl hs hd as ad ks kd
    obtain ⟨t, ht, hn, hm⟩ := h.ends hu.tr hy
    refine ⟨t, ht, hn, ?_⟩
    rw [hm, hu.readNat hwf ad, two_pow_bytes (n := 64) rfl]
  · obtain ⟨u, hu, hy⟩ := h.gather_misaligned (hdo.trans e) hl hg hs as ks hx
    obtain ⟨t, ht, hn, hm⟩ := h.ends hu.tr hy
    exact ⟨t, ht, hn, hu.sameMemory_serving hm⟩
  · have ad := gather_aligned (hdo.trans e) hg hok
    obtain ⟨u, hu, hy⟩ := h.gather_granule (hdo.trans e) hl hg hs hd as ad ks kd hx (by omega) ka
    obtain ⟨t, ht, hn, hm⟩ := h.ends hu.tr hy
    refine ⟨t, ht, hn, ?_⟩
    rw [hm, hu.readNat hwf ad, Nat.mod_eq_of_lt (readNat_lt s.mem _ 64)]
  · exact h.awaits (u := s.serving (tramOf ch)) (.refl _) (h.remoteRead_granule (hdo.trans e) hl as ad hd (CleanAt.usable kd))
  · obtain ⟨u, hu, he⟩ := h.tramSend_granule hl hs as ad ks (if op = 5 then 3 else 8)
    have hy : Yields (tramCommand ch op) s ((u.takeTag.1.sendPackets [(if op = 5 then 3 else 8, s.granulePacket o.desc (if op = 5 then 3 else 8))]).noteIssued
        (tramOf ch) 0 64 0 [(s.tr.nextTag, 0, 64)]) := by
      rcases e with rfl | rfl <;> exact congrArg (answer s) ((h.tramOp hdo).trans he)
    obtain ⟨t, ht, hm, hq, hf⟩ := h.awaits hu hy
    exact ⟨t, ht, hu.sameMemory_serving hm, hq, _, hf, rfl, rfl, rfl, rfl, rfl, rfl, rfl⟩
  · obtain ⟨as, -⟩ := append_aligned (hdo.trans e) hok
    obtain ⟨u, hu, hy⟩ := h.append_refused hs as ks hd hr hw (hdo.trans e) hi
    obtain ⟨t, ht, hn, hm⟩ := h.ends hu.tr hy
    exact ⟨t, ht, hn, hu.sameMemory_serving hm⟩
  · obtain ⟨as, hl⟩ := append_aligned (hdo.trans e) hok
    have hw : s.waitsForFill (descDst o.desc) = false := waitsForFill_of_not_inScratch s (not_inScratch_of_inLog hi)
    obtain ⟨u, hu, hy⟩ := h.append_logged hs as ks hd hr hw (hdo.trans e) hi hl
    obtain ⟨t, ht, hn, hm⟩ := h.ends ((logWrite_tr u _ _ _).trans hu.tr) hy
    refine ⟨t, ht, hn, fun k hk => ?_⟩
    rw [hm]
    exact backByte_appended hu hwf _ _ hk
  · have as := digest_aligned (hdo.trans e) hok
    obtain ⟨u, hu, hy⟩ := h.digest_block (hdo.trans e) hz hl (by omega) hsrc hk
    obtain ⟨t, ht, hn, hm⟩ := h.ends hu.tr hy
    exact ⟨t, ht, hu.sameMemory_serving hm, hn⟩

end Sys2Proof.Machine
end

section
/-! ## Remote accesses, their replies, credits (13 R294, R296, R298; 17 R383 to R386) -/

namespace Sys2Proof.Machine

/-! ### Packets with a parity error (16 Table 16.1 class 11) -/

theorem receivedData_good {s : State} (h : s.fab.bad = false) (p : Packet) (f : Packet → State → State) : s.receivedData p f = f p s :=
  if_neg (ne_true_of_eq_false h)

theorem receivedData_bad {s : State} (h : s.fab.bad = true) (p : Packet) (f : Packet → State → State) :
    s.receivedData p f = f { p with pois := BitVec.allOnes 64 } { s with fab := { s.fab with bad := false } } := if_pos h

theorem packet_dropped {s : State} (p : Packet) (hb : s.fab.bad = true) : ∀ c ∈ [Instr.peek p, .take p, .peekreply p, .takereply p, .remotePost p,
    .mailbox p, .credit p, .ackPacket p, .nack p], Yields c s { s with fab := { s.fab with bad := false } } := by
  intro c hc
  simp only [List.mem_cons, List.not_mem_nil, or_false] at hc
  rcases hc with rfl | rfl | rfl | rfl | rfl | rfl | rfl | rfl | rfl <;> exact congrArg (answer s) (received_bad hb _)

/-! ### What an arriving access is answered with (Table 17.6) -/

section
variable {s : State} {a n : Nat}

theorem remoteStatus_outside (h : s.inWindow a n = false) : s.remoteStatus a n = 1 := by
  unfold State.remoteStatus
  rw [h]
  rfl

theorem remoteStatus_refused (h : s.inWindow a n = true) (hn : 1 ≤ n) (hr : s.tramRegion a 4 = false) : s.remoteStatus a n = 2 := by
  unfold State.remoteStatus
  rw [h, if_neg (by decide), if_neg]
  intro hall
  have h0 := List.all_eq_true.1 hall 0 (List.mem_range.2 hn)
  rw [Nat.mul_zero, Nat.add_zero, hr] at h0
  cases h0

theorem remoteStatus_one (h : s.inWindow a 1 = true) (hr : s.tramRegion a 4 = true) : s.remoteStatus a 1 = 0 := by
  unfold State.remoteStatus
  simp only [h, List.range_one, List.all_cons, List.all_nil, Nat.mul_zero, Nat.add_zero, hr]
  rfl

theorem remoteWaits_of_refused (h : s.remoteStatus a n ≠ 0) : s.remoteWaits a n = false := by
  unfold State.remoteWaits
  rw [decide_eq_false h, Bool.false_and]

theorem remoteWaits_one (hw : s.waitsForFill a = false) : s.remoteWaits a 1 = false := by
  unfold State.remoteWaits
  simp only [List.range_one, List.any_cons, List.any_nil, Nat.mul_zero, Nat.add_zero, hw, Bool.or_false, Bool.and_false]

end

/-! ### READ at its destination -/

section
variable {s : State} {p : Packet}

theorem readPacket_served (hf : readFrame p = true) (hb : s.fab.bad = false) (hw : s.remoteWaits p.addr.toNat (p.len.toNat / 64) = false) :
    Yields (.readPacket p) s (if s.remoteStatus p.addr.toNat (p.len.toNat / 64) ≠ 0
      then s.sendPacket 2 (s.replyTo p (s.remoteStatus p.addr.toNat (p.len.toNat / 64)))
      else
        let x := s.readGranules p.addr.toNat (p.len.toNat / 64) 0
        x.1.sendPacket 2 { x.1.replyTo p 0 with len := p.len, data := x.2.1, pois := wd x.2.2 }) :=
  (if_neg (by rw [hf]; decide)).trans (congrArg (answer s) ((received_good hb _).trans (if_neg (ne_true_of_eq_false hw))))

theorem readPacket_refused (hf : readFrame p = true) (hb : s.fab.bad = false) {st : Nat} (hs : s.remoteStatus p.addr.toNat (p.len.toNat / 64) = st)
    (h0 : st ≠ 0) : Yields (.readPacket p) s (s.sendPacket 2 (s.replyTo p st)) := by
  subst hs
  have h := readPacket_served hf hb (remoteWaits_of_refused h0)
  rwa [if_pos h0] at h

theorem readFrame_length (hf : readFrame p = true) : 1 ≤ p.len.toNat / 64 := by
  simp only [readFrame, Bool.and_eq_true, decide_eq_true_eq] at hf
  omega

theorem readGranules_one {a : Nat} (hr : s.tramRegion a 4 = true) (hu : s.unbacked a = false) : s.readGranules a 1 0 =
    (s.portRead 4 false (s.typeOf 4 a) a 64, [BitVec.ofNat 512 (s.mem.readNat a 64)], if s.mem.poisoned (a / 64) then 1 else 0) := by
  simp only [State.readGranules, Nat.mul_zero, Nat.add_zero, tramRead_normal hr hu, Nat.pow_zero]

theorem readPacket_granule (hf : readFrame p = true) (hb : s.fab.bad = false) (hl : p.len = 64) (hi : s.inWindow p.addr.toNat 1 = true)
    (u : UsableAt s p.addr.toNat) : Yields (.readPacket p) s ((s.portRead 4 false (s.typeOf 4 p.addr.toNat) p.addr.toNat 64).sendPacket 2
      { s.packetTo p.src with
        tag := p.tag, len := 64, data := [BitVec.ofNat 512 (s.mem.readNat p.addr.toNat 64)], pois := if s.mem.poisoned (p.addr.toNat / 64) then 1 else 0 }) := by
  obtain ⟨hr, hu, hw⟩ := u
  have hn : p.len.toNat / 64 = 1 := by rw [hl]; rfl
  have hq := portRead_fetched s 4 false (s.typeOf 4 p.addr.toNat) p.addr.toNat 64
  have h := readPacket_served hf hb (hn ▸ remoteWaits_one hw)
  rw [hn, remoteStatus_one hi hr, if_neg (not_not_intro rfl), readGranules_one hr hu] at h
  dsimp only at h
  unfold State.replyTo State.packetTo at h
  rw [hq.straps, hl] at h
  unfold State.packetTo
  split at h
  · next hp => rwa [if_pos hp]
  · next hp => rwa [if_neg hp]

/-! ### WRITE and REDUCE at their destination -/

theorem toNat_mod_width {w n : Nat} (h : n = w) (v : BitVec w) : v.toNat % 2 ^ n = v.toNat := by
  subst h
  exact v.toNat_mod_cancel

theorem dataFrame_spec (hf : dataFrame p = true) : 1 ≤ p.data.length ∧ p.addr.toNat % 64 = 0 := by
  simp only [dataFrame, Bool.and_eq_true, decide_eq_true_eq] at hf
  tauto

theorem reduceFrame_dataFrame (hf : reduceFrame p = true) : dataFrame p = true := by
  simp only [reduceFrame, Bool.and_eq_true] at hf
  exact hf.1.1

theorem writePacket_good (hf : dataFrame p = true) (hb : s.fab.bad = false) : Yields (.writePacket p) s (s.servePut p none) :=
  (if_neg (by rw [hf]; decide)).trans (congrArg (answer s) (receivedData_good hb p _))

theorem writePacket_bad (hf : dataFrame p = true) (hb : s.fab.bad = true) :
    Yields (.writePacket p) s (({ s with fab := { s.fab with bad := false } } : State).servePut { p with pois := BitVec.allOnes 64 } none) :=
  (if_neg (by rw [hf]; decide)).trans (congrArg (answer s) (receivedData_bad hb p _))

theorem reducePacket_good (hf : reduceFrame p = true) (hb : s.fab.bad = false) : Yields (.reducePacket p) s (s.servePut p (some (packetRed p))) :=
  (if_neg (by rw [hf]; decide)).trans (congrArg (answer s) (receivedData_good hb p _))

theorem servePut_refused {st : Nat} (hs : s.remoteStatus p.addr.toNat p.data.length = st) (h0 : st ≠ 0) (red : Option RedOp) :
    s.servePut p red = s.sendPacket 4 (s.replyTo p st) := by
  subst hs
  exact (if_neg (ne_true_of_eq_false (remoteWaits_of_refused h0))).trans (if_pos h0)

section
variable {g : BitVec 512} (hd : p.data = [g])
include hd

theorem servePut_one (hi : s.inWindow p.addr.toNat 1 = true) (u : UsableAt s p.addr.toNat) (red : Option RedOp) :
    s.servePut p red = (s.putGranules p red 1 [g] 0).sendPacket 4 ((s.putGranules p red 1 [g] 0).replyTo p 0) := by
  obtain ⟨hr, hu, hw⟩ := u
  unfold State.servePut
  simp only [hd, List.length_singleton, remoteWaits_one hw, remoteStatus_one hi hr, Bool.false_eq_true, if_false, ne_eq, not_true]

end

variable (hh : p.head = 0) (ht : p.tail = 0) (hp : p.pois = 0)
include hh ht

theorem granuleSpan_whole : granuleSpan p 1 0 = (0, 64) := by
  unfold granuleSpan
  rw [if_pos rfl, if_pos rfl, hh, ht]
  rfl

include hp

/-- A WRITE of one whole granule writes it. -/
theorem putGranules_write (u : UsableAt s p.addr.toNat) (ha : p.addr.toNat % 64 = 0) (g : BitVec 512) :
    GranulePut s (s.putGranules p none 1 [g] 0) p.addr.toNat g.toNat := by
  have hv : g.toNat % 2 ^ (8 * 64) = g.toNat := toNat_mod_width (n := 8 * 64) rfl g
  have hx : p.pois.getLsbD 0 = false := by rw [hp]; rfl
  simp only [State.putGranules, granuleSpan_whole hh ht, hx, Nat.mul_zero, Nat.add_zero, Nat.pow_zero, Nat.div_one, Nat.sub_zero]
  rw [hv]
  exact tramWrite_granule u ha g.toNat

/-- A REDUCE of one whole granule writes what it makes of the granule there. -/
theorem putGranules_reduce (u : UsableAt s p.addr.toNat) (ha : p.addr.toNat % 64 = 0) (hc : s.mem.poisoned (p.addr.toNat / 64) = false) (g : BitVec 512)
    (o : RedOp) : GranulePut s (s.putGranules p (some o) 1 [g] 0) p.addr.toNat
      (reduceBytes o p.addr.toNat (s.mem.readNat p.addr.toNat 64) g.toNat (64 / redSize o.fmt) % 2 ^ (8 * 64)) := by
  obtain ⟨hr, hu, hw⟩ := u
  have hx : p.pois.getLsbD 0 = false := by rw [hp]; rfl
  have hq := portRead_fetched s 4 false (s.typeOf 4 p.addr.toNat) p.addr.toNat 64
  have hg := tramWrite_granule (UsableAt.fetched ⟨hr, hu, hw⟩ hq) ha
    (reduceBytes o p.addr.toNat (s.mem.readNat p.addr.toNat 64) g.toNat (64 / redSize o.fmt) % 2 ^ (8 * 64))
  rw [hq.typeOf] at hg
  simp only [State.putGranules, granuleSpan_whole hh ht, hx, Nat.mul_zero, Nat.add_zero, Nat.pow_zero, Nat.div_one, Nat.sub_zero,
    tramRead_normal hr hu, hc, Bool.or_false]
  exact hg.after hq

end

/-- The answer leaves as from the state before the granule was written. -/
theorem GranulePut.reply_fab {s t : State} {a v : Nat} (h : GranulePut s t a v) (p : Packet) :
    (t.sendPacket 4 (t.replyTo p 0)).fab = (s.sendPacket 4 (s.replyTo p 0)).fab := by
  unfold State.sendPacket State.replyTo State.packetTo
  dsimp only
  rw [h.fab, h.straps]

/-! ### Replies and acknowledgements at the requester (R298) -/

theorem failed_open {o : TramOpen} (h : o.status = 0) (st b : Nat) :
    o.failed st b = { o with status := BitVec.ofNat 4 st, bytes := BitVec.ofNat 40 b } := by
  refine if_neg ?_
  rw [h]
  decide

/-- The end of the one wait of a channel's one open descriptor. -/
theorem endWait_only {s : State} {c : Fin 32} {o : TramOpen} {tag : BitVec 12} {off k : Nat} (ho : (s.tr.ch[c]).opens = [o])
    (hw : o.waits = [(tag, off, k)]) (f : TramOpen → TramOpen) : ((s.endWait c tag f).tr.ch[c]).opens = [{ f o with waits := [] }] := by
  refine (congrArg Channel.opens (setChannel_self s c _)).trans ?_
  simp only [ho, changeWaiting, hw, List.any_cons, List.any_nil, beq_self_eq_true, Bool.true_or, if_true, List.filter_cons, bne_self_eq_false,
    Bool.false_eq_true, if_false, List.filter_nil]

section
variable {s : State} {p : Packet} (hb : s.fab.bad = false)
include hb

theorem ackPacket_unawaited (h : s.waiterOf p.tag = none) : Yields (.ackPacket p) s s := by
  refine congrArg (answer s) ((received_good hb _).trans ?_)
  simp only [h]

theorem readreply_unawaited (h : s.waiterOf p.tag = none) : Yields (.readreply p) s s := by
  refine congrArg (answer s) ((receivedData_good hb p _).trans ?_)
  simp only [h]

variable {c : Fin 32} {o : TramOpen} {off k : Nat} (h : s.waiterOf p.tag = some (c, o, off, k))
include h

theorem ackPacket_awaited : Yields (.ackPacket p) s
    (s.endWait c p.tag (fun o => if p.status = 0 then o else o.failed (replyStatus p.status.toNat) off)) := by
  refine congrArg (answer s) ((received_good hb _).trans ?_)
  simp only [h]

theorem readreply_refused (hp : p.status ≠ 0) : Yields (.readreply p) s
    (s.endWait c p.tag (fun o => o.failed (replyStatus p.status.toNat) off)) := by
  refine congrArg (answer s) ((receivedData_good hb p _).trans ?_)
  simp only [h, hp, ne_eq, not_false_eq_true, if_true]

theorem readreply_stored (hp : p.status = 0) (hs : o.status = 0) {m : Move} (hm : State.storeReply c p ((descSrc o.desc + off) % 64)
    (descDst o.desc + off) k (k + 1) { s := s, done := 0, poison := false } = .done m) :
    Yields (.readreply p) s (m.s.endWait c p.tag (fun o => o.poisoned m.poison)) := by
  refine congrArg (answer s) ((receivedData_good hb p _).trans ?_)
  have hn : ¬2 ≤ o.status.toNat := by
    rw [hs]
    decide
  simp only [h, hp, ne_eq, not_true, if_false, hn, hm]

end

theorem packWords_one (w x : Nat) : packWords w [x] = x := by
  simp only [packWords, List.foldr_cons, List.foldr_nil, Nat.mul_zero, Nat.add_zero]

theorem storeReply_done {k : Nat} {m : Move} (h : k ≤ m.done) (c : Fin 32) (p : Packet) (skip dst n : Nat) :
    State.storeReply c p skip dst k (n + 1) m = .done m := if_pos h

/-- The data of a reply of one granule are written at the descriptor's destination. -/
theorem storeReply_granule {s : State} {c : Fin 32} {p : Packet} {dst : Nat} {g : BitVec 512} (hpa : (s.tr.ch[c]).pa = true) (hd : dst < 2 ^ 47)
    (ad : dst % 64 = 0) (u : UsableAt s dst) (hp : p.pois = 0) (hg : p.data = [g]) : ∃ t, GranulePut s t dst g.toNat
      ∧ State.storeReply c p 0 dst 64 (64 + 1) { s := s, done := 0, poison := false } = .done { s := t, done := 0 + 64, poison := false } := by
  have hx : ∀ i, p.pois.getLsbD i = false := fun i => by rw [hp]; exact BitVec.getLsbD_zero
  have hv : g.toNat % 2 ^ (8 * 64) = g.toNat := toNat_mod_width (n := 8 * 64) rfl g
  have hk : Nat.min 64 64 = 64 := rfl
  have hpw : packWords 512 (p.data.map (·.toNat)) = g.toNat := by rw [hg]; exact packWords_one 512 g.toNat
  refine ⟨_, tramWrite_granule u ad g.toNat, ?_⟩
  unfold State.storeReply
  simp only [Nat.le_zero, OfNat.ofNat_ne_zero, if_false, Nat.add_zero, Nat.sub_zero, ad, hk, tramAddr_physical hpa hd u.1 u.2.2, hpw, Nat.mul_zero, Nat.pow_zero,
    Nat.div_one, hx, Bool.or_false]
  rw [hv]
  exact storeReply_done (Nat.le_refl 64) ..

/-! ### A NACK (17 R386) -/

/-- A NACK has been counted; one of a doorbell is noted in DBUNRT. -/
def NackCounted (s : State) (p : Packet) (u : State) : Prop :=
  u.fab.nacks = s.fab.nacks + 1 ∧ u.mem = s.mem ∧ u.sy = s.sy ∧ ((packetWord p 0).toNat % 16 = 9 → u.win.dbunrt = true ∧ u.tr = s.tr)

theorem nack_counted {s : State} (p : Packet) (hb : s.fab.bad = false) : ∃ u, Yields (.nack p) s u ∧ NackCounted s p u := by
  refine ⟨_, congrArg (answer s) (received_good hb _), ?_⟩
  dsimp only
  split
  · next ht =>
    have h9 : (packetWord p 0).toNat % 16 ≠ 9 := by omega
    split <;> exact ⟨rfl, rfl, rfl, fun h => absurd h h9⟩
  · split
    · exact ⟨rfl, rfl, rfl, fun _ => ⟨rfl, rfl⟩⟩
    · next h9 => exact ⟨rfl, rfl, rfl, fun h => absurd h h9⟩

/-! ### Credits (17 R385) -/

theorem sendWaiting_none {f : Fabric} (h : f.waiting = []) : sendWaiting f f.waiting = f := by
  cases f
  cases h
  rfl

/-- What has been sent stays sent. -/
theorem sent_prefix_sendWaiting (f : Fabric) (l : List (BitVec 4 × Packet)) : f.sent <+: (sendWaiting f l).sent := by
  induction l generalizing f with
  | nil => exact List.prefix_rfl
  | cons x rest ih =>
    unfold sendWaiting
    dsimp only
    split
    · exact (List.prefix_append f.sent [x]).trans (ih { f with credits := f.credits.set (vcOf x.1) _, sent := f.sent ++ [x] })
    · exact ih { f with credits := f.credits.set (vcOf x.1) 0 }

/-- The first packet that waits leaves where its channel has the credits. -/
theorem sendWaiting_first {f : Fabric} {x : BitVec 4 × Packet} {v : Fin 4} (hv : vcOf x.1 = v) (h : packetFlits x.2 ≤ f.credits[v])
    (q : List (BitVec 4 × Packet)) : (f.sent ++ [x]) <+: (sendWaiting f (x :: q)).sent := by
  subst hv
  unfold sendWaiting
  rw [if_pos h]
  exact sent_prefix_sendWaiting { f with credits := _, sent := f.sent ++ [x] } q

/-- The port with credits returned. -/
def Fabric.credited (f : Fabric) (v : Fin 4) (n : Nat) : Fabric := { f with credits := f.credits.set v (f.credits[v] + n) }

theorem credited_self (f : Fabric) (v : Fin 4) (n : Nat) : (f.credited v n).credits[v] = f.credits[v] + n := Vector.getElem_set_self v.isLt

theorem creditReturn (s : State) (vc : BitVec 2) (flits : BitVec 8) : Yields (.fabricCreditReturn vc flits) s
    { s with fab := sendWaiting (s.fab.credited vc.toFin flits.toNat) s.fab.waiting } := rfl

theorem reservedPacketType_counted {s : State} {ty : BitVec 4} (h : reservedType ty = true) (hb : s.fab.bad = false) :
    Yields (.reservedPacketType ty) s { s with fab := { s.fab with reserved := s.fab.reserved + 1 } } :=
  (if_pos h).trans (congrArg (answer s) (received_good hb _))

/-- Settles O55: an access at its destination by the status that its window and region give, its granule through the tram engine's accesses; a reply through the
end of its one wait; credits by what `sendWaiting` keeps. -/
theorem remotePackets : Obligations.RemotePackets := by
  intro s p vc flits ty
  dsimp only
  refine ⟨fun h => if_pos (by rw [h]; rfl), fun h => if_pos (by rw [h]; rfl), fun h => if_pos (by rw [h]; rfl), fun hf hb => ⟨fun hi => ?_, fun hi hr => ?_,
    fun hl hi hr hu hw => ?_⟩, writePacket_bad, fun hf hb => ⟨fun hi => ?_, fun hi hr => ?_, fun g hd hh ht hp hi hr hu hw hm => ?_⟩,
    fun hf hb => ⟨fun hi => ?_, fun g hd hh ht hp hi hr hu hw hc hm => ?_⟩, fun c hc hb => packet_dropped p hb c hc,
    fun hb h => ⟨readreply_unawaited hb h, ackPacket_unawaited hb h⟩,
    fun c o off k hb h ho hw hs => ⟨fun hp => ?_, fun hp => ⟨?_, ?_⟩, fun hp hpa hk hz as ad hd hr hu hwf hm hx g hg => ?_⟩,
    fun hb => ?_, fun h => ?_, fun x q h hv hc => ?_, reservedPacketType_counted, fun h => if_neg (ne_true_of_eq_false h)⟩
  -- READ
  · exact readPacket_refused hf hb (remoteStatus_outside hi) (by decide)
  · exact readPacket_refused hf hb (remoteStatus_refused hi (readFrame_length hf) hr) (by decide)
  · exact readPacket_granule hf hb hl hi ⟨hr, hu, hw⟩
  -- WRITE
  · exact servePut_refused (remoteStatus_outside hi) (by decide) none ▸ writePacket_good hf hb
  · exact servePut_refused (remoteStatus_refused hi (dataFrame_spec hf).1 hr) (by decide) none ▸ writePacket_good hf hb
  · have ha := (dataFrame_spec hf).2
    have hg := putGranules_write hh ht hp ⟨hr, hu, hw⟩ ha g
    refine ⟨_, writePacket_good hf hb, ?_⟩
    rw [servePut_one hd hi ⟨hr, hu, hw⟩]
    exact ⟨(hg.readNat hm ha).trans (Nat.mod_eq_of_lt (toNat_lt_bytes (n := 64) rfl g)), hg.clean, hg.wf hm, hg.reply_fab p⟩
  -- REDUCE
  · exact servePut_refused (remoteStatus_outside hi) (by decide) (some (packetRed p)) ▸ reducePacket_good hf hb
  · have ha := (dataFrame_spec (reduceFrame_dataFrame hf)).2
    have hg := putGranules_reduce hh ht hp ⟨hr, hu, hw⟩ ha hc g (packetRed p)
    refine ⟨_, reducePacket_good hf hb, ?_⟩
    rw [servePut_one hd hi ⟨hr, hu, hw⟩]
    refine ⟨(hg.readNat hm ha).trans ?_, hg.reply_fab p⟩
    rw [two_pow_bytes (w := 8 * 64) (n := 64) rfl, Nat.mod_mod]
  -- the reply that a descriptor waits for
  · refine ⟨_, ackPacket_awaited hb h, (endWait_only ho hw _).trans ?_, rfl⟩
    rw [if_pos hp]
    exact congrArg (fun st => [({ o with waits := [], status := st } : TramOpen)]) hs
  · refine ⟨_, ackPacket_awaited hb h, (endWait_only ho hw _).trans ?_, rfl⟩
    rw [if_neg hp, failed_open hs]
  · refine ⟨_, readreply_refused hb h hp, (endWait_only ho hw _).trans ?_, rfl⟩
    rw [failed_open hs]
  · subst hk hz
    obtain ⟨t, ht, he⟩ := storeReply_granule hpa (by omega) ad ⟨hr, hu, hwf⟩ hx hg
    have hy := readreply_stored (m := { s := t, done := 0 + 64, poison := false }) hb h hp hs (by rw [Nat.add_zero, as]; exact he)
    refine ⟨_, hy, (ht.readNat hm ad).trans (Nat.mod_eq_of_lt (toNat_lt_bytes (n := 64) rfl g)), endWait_only ?_ hw _⟩
    rw [ht.tr]
    exact ho
  -- NACK, credits
  · obtain ⟨u, hy, hn⟩ := nack_counted p hb
    exact ⟨_, hy, hn⟩
  · have hn := sendWaiting_none (f := s.fab.credited vc.toFin flits.toNat) h
    exact congrArg (fun f => answer s { s with fab := f }) hn
  · refine ⟨_, creditReturn s vc flits, ?_⟩
    have hq := sendWaiting_first (f := s.fab.credited vc.toFin flits.toNat) hv (by rw [credited_self]; exact hc) q
    rw [h]
    exact hq

end Sys2Proof.Machine
end

section
/-! SUPPORT. How an instruction of the deputy ends: the issue, the change of PC with its gates, and the completion (14 R306, R310, R326). -/

namespace Sys2Proof.Machine

/-! ### Issue (14 R306, R310, R318) -/

section
variable {c : Instr} {s t u : State} {slot : Bool} {f : Bool → State → DepRes} {d : Deputy}

/-- An instruction fetched by a running deputy is executed, unless it stands in a slot that forbids it. -/
theorem yields_of_fetched (hh : s.dep.halted = false) (hw : s.dep.waiting = false) (hp : progHole s.dep.pc = false)
    (hb : s.dep.fetchBad = false) (hc : exec c s = s.depIssue slot f) :
    Yields c s (if s.dep.pair.isSome && !slot then s.syncVector 2 else s.complete (f (inExt s.dep.pc) s)) := by
  have hd : s.setDep { s.dep with waiting := false } = s := by
    rw [← hw]
    rfl
  refine hc.trans (congrArg (answer s) ?_)
  rw [if_neg (by simp [hh, hw]), hd]
  simp only [State.execute, hp, hb, Bool.false_eq_true, if_false]

/-- Outside a slot it is executed. -/
theorem yields_of_ready (h : DepReady s) (hc : exec c s = s.depIssue slot f) : Yields c s (s.complete (f (inExt s.dep.pc) s)) := by
  obtain ⟨hh, hw, hp, hb, hn⟩ := h
  have := yields_of_fetched hh hw hp hb hc
  rwa [hn] at this

/-! ### Control passes (14 R326) -/

/-- No gate stands between two addresses on the same side of the border. -/
theorem gate_near {src dst : Half} (h : inExt src = inExt dst) (d : Deputy) (k : Transfer) : d.gate src dst k = true := by
  unfold Deputy.gate
  rw [h]
  cases inExt dst <;> rfl

theorem passTo_near {src dst : Half} {k : Transfer} (h : inExt src = inExt dst) : s.passTo t src dst k = t.setDep (t.dep.goTo src dst k) :=
  if_pos (gate_near h ..)

/-- Outside the region's entrance a transfer changes PC alone; RETI holds the next instruction's place. -/
theorem passTo_depAt {src dst : Half} {k : Transfer} (h : inExt src = inExt dst) (hk : k ≠ .reti) :
    s.passTo t src dst k = depAt t t.dep dst := by
  rw [passTo_near h]
  cases k with
  | reti => exact absurd rfl hk
  | call ret =>
    simp only [Deputy.goTo, h, Bool.not_and_self, Bool.false_eq_true, if_false]
    rfl
  | _ => rfl

/-! ### Completion (14 R310) -/

/-- An instruction that is done goes on with the next word. -/
theorem depDone_of_next (h : DepReady s) (hs : DepStraight s) (hc : exec c s = s.depIssue slot f)
    (hf : f (inExt s.dep.pc) s = .next (t.setDep d)) : DepDone c s t d := by
  have hy := yields_of_ready h hc
  obtain ⟨-, -, -, -, hn⟩ := h
  rw [hf, State.complete] at hy
  simp only [hn] at hy
  rwa [passTo_depAt hs (by decide)] at hy

/-- An instruction that passes control goes on at its target. -/
theorem yields_of_go {a : Half} {k : Transfer} (h : DepReady s) (hc : exec c s = s.depIssue slot f)
    (hf : f (inExt s.dep.pc) s = .go t a k) (hk : k ≠ .reti) (ha : inExt s.dep.pc = inExt a) : Yields c s (depAt t t.dep a) := by
  have hy := yields_of_ready h hc
  rw [hf] at hy
  rwa [State.complete, passTo_depAt ha hk] at hy

/-- A delayed branch is recorded, and its slot follows. -/
theorem yields_of_delayed {p : DepPair} (h : DepReady s) (hs : DepStraight s) (hc : exec c s = s.depIssue slot f)
    (hf : f (inExt s.dep.pc) s = .delayed p) : Yields c s { s with dep := { s.dep with pc := s.dep.pc + 1, pair := some p } } := by
  have hy := yields_of_ready h hc
  rw [hf] at hy
  rwa [State.complete, if_pos (gate_near hs ..)] at hy

/-- Outside a pair a synchronous vector saves PC with DS clear. -/
theorem syncVector_alone (hn : s.dep.pair = none) (n : Nat) : s.syncVector n = s.enterVector n s.dep.pc false := by
  simp only [State.syncVector, Deputy.resumePc, Deputy.resumeDs, hn, Option.map_none, Option.getD_none, Option.isSome_none]

theorem yields_of_undefined (h : DepReady s) (hc : exec c s = s.depIssue slot f) (hf : f (inExt s.dep.pc) s = .undefined) :
    Yields c s (s.enterVector 2 s.dep.pc false) := by
  have hy := yields_of_ready h hc
  obtain ⟨-, -, -, -, hn⟩ := h
  rw [hf] at hy
  rwa [State.complete, syncVector_alone hn] at hy

end

end Sys2Proof.Machine
end

section
/-! ## The deputy's system instructions and special moves (14 R306, R307, R318) -/

namespace Sys2Proof.Machine

/-- Settles O33: the instructions by what each writes; one that waits, or a deputy that has stopped, does not issue. -/
theorem deputySystemInstructions : Obligations.DeputySystemInstructions := by
  intro s rd h
  refine ⟨fun hs => ?_, yields_of_ready (f := fun _ _ => .soft) h rfl, congrArg (answer _) rfl, fun hi => congrArg (answer _) ?_⟩
  · have hfl : s.dep.flagsWord false = BitVec.ofNat 16
        (bit s.dep.v + 2 * bit s.dep.c + 4 * bit s.dep.z + 8 * bit s.dep.n + 16 * bit s.dep.ie + 256 * s.dep.bank.toNat) := by
      simp [Deputy.flagsWord, Nat.mul_comm]
    exact ⟨depDone_of_next h hs rfl rfl, depDone_of_next h hs rfl rfl, depDone_of_next h hs rfl rfl, depDone_of_next h hs rfl rfl,
      depDone_of_next h hs rfl rfl, depDone_of_next h hs rfl rfl, hfl ▸ depDone_of_next h hs rfl rfl, depDone_of_next h hs rfl rfl,
      depDone_of_next h hs rfl rfl, depDone_of_next h hs rfl rfl⟩
  · exact if_pos (by simp [hi])

end Sys2Proof.Machine
end

section
/-! SUPPORT. The deputy's data SRAM and its accesses: what a write leaves, and what a load then gives (14 R305). -/

namespace Sys2Proof.Machine

/-! ### Numbers of bytes (00 R7) -/

theorem natOf_range_succ (f : Nat → Byte) (n : Nat) :
    natOf ((List.range (n + 1)).map f) = (f 0).toNat + 256 * natOf ((List.range n).map fun i => f (i + 1)) := by
  rw [List.range_succ_eq_map, List.map_cons, List.map_map]
  rfl

/-- The bytes of a number make it up again. -/
theorem natOf_of_bytes {f : Nat → Byte} {n v : Nat} (h : ∀ i < n, f i = BitVec.ofNat 8 (v / 256 ^ i)) :
    natOf ((List.range n).map f) = v % 256 ^ n := by
  induction n generalizing f v with
  | zero => rw [Nat.pow_zero, Nat.mod_one]; rfl
  | succ n ih =>
    have hb : (f 0).toNat = v % 256 := by
      rw [h 0 (by omega), Nat.pow_zero, Nat.div_one, BitVec.toNat_ofNat]
    have ht : natOf ((List.range n).map fun i => f (i + 1)) = v / 256 % 256 ^ n := ih fun i hi => by
      rw [h (i + 1) (by omega), Nat.pow_succ', Nat.div_div_eq_div_mul]
    rw [natOf_range_succ, hb, ht, Nat.pow_succ', Nat.mod_mul]

/-- A byte of the number that bytes make up. -/
theorem natOf_byte (f : Nat → Byte) {n i : Nat} (h : i < n) : BitVec.ofNat 8 (natOf ((List.range n).map f) / 256 ^ i) = f i := by
  induction n generalizing f i with
  | zero => exact absurd h (Nat.not_lt_zero i)
  | succ n ih =>
    have hb := (f 0).isLt
    rw [natOf_range_succ]
    cases i with
    | zero => exact BitVec.eq_of_toNat_eq (by rw [BitVec.toNat_ofNat]; omega)
    | succ i =>
      rw [Nat.pow_succ', ← Nat.div_div_eq_div_mul, show ∀ x, ((f 0).toNat + 256 * x) / 256 = x by omega]
      exact ih (fun i => f (i + 1)) (by omega)

/-! ### Data SRAM -/

/-- Nothing of the deputy but data SRAM and its parity differs. -/
def SramOnly (d e : Deputy) : Prop := ∃ x y, e = { d with data := x, dataBad := y }

section
variable {d : Deputy}

theorem setSramNat_succ (d : Deputy) (a v n : Nat) (bad : Bool) :
    d.setSramNat a v (n + 1) bad = (d.setSramNat a v n bad).setSram (a + n) (BitVec.ofNat 8 (v / 256 ^ n)) bad := by
  simp [Deputy.setSramNat, List.range_succ]

theorem setSramNat_only (d : Deputy) (a v n : Nat) (bad : Bool) : SramOnly d (d.setSramNat a v n bad) := by
  induction n with
  | zero => exact ⟨_, _, rfl⟩
  | succ n ih =>
    obtain ⟨x, y, e⟩ := ih
    rw [setSramNat_succ, e]
    exact ⟨_, _, rfl⟩

/-- Bytes written with good parity have it, and the others keep theirs. -/
theorem setSramNat_bad (d : Deputy) (a v n k : Nat) :
    nsMem k (d.setSramNat a v n false).dataBad = (!(decide (a ≤ k) && decide (k < a + n)) && nsMem k d.dataBad) := by
  induction n with
  | zero =>
    have : (decide (a ≤ k) && decide (k < a + 0)) = false := by simp
    rw [this]
    rfl
  | succ n ih =>
    rw [setSramNat_succ]
    refine (nsMem_nsErase ..).trans ?_
    rw [ih, ← Bool.and_assoc]
    congr 1
    rw [Bool.eq_iff_iff]
    simp only [bne_iff_ne, Bool.and_eq_true, Bool.not_eq_true', Bool.and_eq_false_iff, decide_eq_false_iff_not]
    omega

/-- Bytes that are those of a number read as the number. -/
theorem sramNat_of_bytes {a n v : Nat} (h : ∀ k < n, smGet 0#8 (a + k) d.data = BitVec.ofNat 8 (v / 256 ^ k)) :
    (d.sramNat a n).1 = v % 256 ^ n := natOf_of_bytes h

/-- A word written is the word read. -/
theorem sramNat_written {e : Deputy} {a : Nat} {v : Half} (h : SramWritten d e a 2 v.toNat) : (e.sramNat a 2).1 = v.toNat :=
  (sramNat_of_bytes h.bytes).trans (Nat.mod_eq_of_lt v.isLt)

/-- A word is its two bytes. -/
theorem sramNat_two (d : Deputy) (a : Nat) : (d.sramNat a 2).1 = (d.sramNat a 1).1 + (d.sramNat (a + 1) 1).1 * 2 ^ 8 := by
  have h1 : ∀ b, (d.sramNat b 1).1 = (smGet 0#8 b d.data).toNat := fun _ => rfl
  have h2 : (d.sramNat a 2).1 = (smGet 0#8 a d.data).toNat + 256 * (smGet 0#8 (a + 1) d.data).toNat := rfl
  rw [h1, h1, h2]
  omega

end

/-! ### Accesses in data SRAM (14 R305) -/

section
variable {s t : State} {a : Half} {n : Nat}

theorem atWindow_sram (h : a.toNat < 0x8000) : atWindow a = false := decide_eq_false (by omega)

theorem toNat_add_ofNat {i : Nat} (h : a.toNat + i < 2 ^ 16) : (a + BitVec.ofNat 16 i).toNat = a.toNat + i := by
  rw [BitVec.toNat_add, BitVec.toNat_ofNat]
  omega

theorem storePosts_sram (h : a.toNat + n ≤ 0x8000) (ext : Bool) (v : Nat) : storePosts ext a n v = [] := by
  have hw : ∀ i < n, atWindow (a + BitVec.ofNat 16 i) = false := fun i hi =>
    atWindow_sram (by rw [toNat_add_ofNat] <;> omega)
  have h0 : (n = 2 && atWindow a && atWindow (a + 1)) = false := by
    by_cases hn : n = 2
    · have := hw 1 (by omega)
      rw [show atWindow (a + 1) = false from this, Bool.and_false]
    · simp [hn]
  unfold storePosts
  rw [h0, List.filter_eq_nil_iff.2 fun i hi => by rw [hw i (List.mem_range.1 hi)]; decide]
  rfl

/-- The bytes of a store within data SRAM are those of its value. -/
theorem storeSram_eq (d : Deputy) (h : a.toNat + n ≤ 0x8000) (v : Nat) : d.storeSram a n v = d.setSramNat a.toNat v n false := by
  unfold Deputy.storeSram Deputy.setSramNat
  refine List.foldl_ext _ _ _ fun e i hi => ?_
  have hi := List.mem_range.1 hi
  have ha : (a + BitVec.ofNat 16 i).toNat = a.toNat + i := toNat_add_ofNat (by omega)
  dsimp only
  rw [atWindow_sram (by omega), ha, Nat.pow_mul]
  rfl

/-- A store within data SRAM that is performed writes its bytes and posts nothing. -/
theorem dataStore_sram {ext : Bool} {v : Nat} (h : a.toNat + n ≤ 0x8000) (hs : s.dataStore ext a n v = .ok t ()) :
    t = s.setDep (s.dep.setSramNat a.toNat v n false) := by
  unfold State.dataStore at hs
  dsimp only at hs
  rw [storePosts_sram h, storeSram_eq _ h] at hs
  simp only [List.isEmpty_nil, if_true, Bool.not_true, Bool.false_and, Bool.false_eq_true, if_false, List.append_nil] at hs
  split at hs
  · cases hs
  · cases hs
    rfl

/-- A word of data SRAM, at an even address or an odd one. -/
theorem dataGet_sram (s : State) (h : a.toNat + 1 < 0x8000) : s.dataGet a 2 = (s, (s.dep.sramNat a.toNat 2).1) := by
  have h0 : atWindow a = false := atWindow_sram (by omega)
  have ha : (a + 1).toNat = a.toNat + 1 := toNat_add_ofNat (i := 1) (by omega)
  have h1 : atWindow (a + 1) = false := atWindow_sram (by omega)
  unfold State.dataGet State.byteGet
  simp only [h0, h1, ha, Bool.false_eq_true, if_false, sramNat_two, ite_self, show (2 : Nat) ≠ 1 by decide]

/-- A load of a word of data SRAM without parity errors gives it. -/
theorem dataLoad_sram (h : a.toNat + 1 < 0x8000) (hb : ∀ i < 2, nsMem (a.toNat + i) s.dep.dataBad = false) :
    s.dataLoad false a 2 = .ok s (BitVec.ofNat 16 (s.dep.sramNat a.toNat 2).1) := by
  have hg : ∀ k, k < 0x8000 → nsMem k s.dep.dataBad = false → s.byteFault false false k = none := fun k hk hb => by
    have hc : inCoreWindow k = false := decide_eq_false (by omega)
    simp [State.byteFault, hc, hb, show ¬ 0x8000 ≤ k by omega]
  have hw : (atWindow a || atWindow (a + BitVec.ofNat 16 (2 - 1))) = false := by
    rw [atWindow_sram (by omega), atWindow_sram (a := a + BitVec.ofNat 16 (2 - 1)) (by rw [toNat_add_ofNat] <;> omega)]
    rfl
  have hf : s.dataFault false false a 2 = none := by
    refine List.findSome?_eq_none_iff.2 fun i hi => ?_
    have hi := List.mem_range.1 hi
    dsimp only
    rw [toNat_add_ofNat (by omega), hg _ (by omega) (hb i hi)]
    rfl
  unfold State.dataLoad
  rw [hw]
  simp only [Bool.false_eq_true, if_false, hf, dataGet_sram s h]

end

end Sys2Proof.Machine
end

section
/-! ## The deputy's loads, stores and stack (14 R305, R308) -/

namespace Sys2Proof.Machine

section
variable {c : Instr} {s t : State} {rd ra : DReg} {mode : BitVec 2} {addr after : Half} {n : Nat} {ext : Bool} {v : Half}

/-- LDW and LDB in a mode of Table 14.5. -/
theorem depDone_load (h : DepReady s) (hs : DepStraight s) (hc : exec c s = s.depIssue true fun ext s => loadForm rd ra mode n ext s)
    (hm : memMode mode (s.dep.reg ra) n = some (addr, after)) (hr : ¬(mode ≠ 0 ∧ rd = ra))
    (hl : s.dataLoad (inExt s.dep.pc) addr n = .ok t v) :
    DepDone c s t ((t.dep.setReg ra after).setReg rd v) :=
  depDone_of_next h hs hc (by simp only [loadForm, hm, if_neg hr, hl, DepAcc.run])

/-- STW and STB in a mode of Table 14.5. -/
theorem depDone_store (h : DepReady s) (hs : DepStraight s) (hc : exec c s = s.depIssue true fun ext s => storeForm rd ra mode n ext s)
    (hm : memMode mode (s.dep.reg ra) n = some (addr, after)) (hl : s.dataStore (inExt s.dep.pc) addr n (s.dep.reg rd).toNat = .ok t ()) :
    DepDone c s t (t.dep.setReg ra after) :=
  depDone_of_next h hs hc (by simp only [storeForm, hm, hl, DepAcc.run])

theorem run_ok {α : Type} {x : DepAcc α} {y : α} (h : x = .ok t y) (s : State) (write : Bool) (k : State → α → DepRes) :
    x.run s write k = k t y := by
  rw [h]
  rfl

theorem run_refuse {α : Type} {x : DepAcc α} {a : Half} {r : Nat} (h : x = .refuse a r) (s : State) (write : Bool) (k : State → α → DepRes) :
    x.run s write k = .access s a r write := by
  rw [h]
  rfl

theorem run_stack {α : Type} {x : DepAcc α} {pop : Bool} (h : x = .stack pop) (s : State) (write : Bool) (k : State → α → DepRes) :
    x.run s write k = .stack pop := by
  rw [h]
  rfl

/-- The address of the DIR forms is BANK·256 + d8 (R305). -/
theorem bank_append (b d8 : BitVec 8) : b ++ d8 = BitVec.ofNat 16 (b.toNat * 256 + d8.toNat) := by
  have := b.isLt
  have := d8.isLt
  refine BitVec.eq_of_toNat_eq ?_
  rw [BitVec.toNat_append, BitVec.toNat_ofNat, ← Nat.shiftLeft_add_eq_or_of_lt d8.isLt, Nat.shiftLeft_eq]
  omega

theorem pushWord_ok (hb : s.dep.stackBad (s.dep.sp - 2) = false) (hs : s.dataStore ext (s.dep.sp - 2) 2 v.toNat = .ok t ()) :
    s.pushWord ext v = .ok (t.setDep { t.dep with sp := s.dep.sp - 2 }) () := by
  simp only [State.pushWord, hb, hs, Bool.false_eq_true, if_false]

theorem popWord_ok (hb : s.dep.stackBad s.dep.sp = false) (hl : s.dataLoad ext s.dep.sp 2 = .ok t v) :
    s.popWord ext = .ok (t.setDep { t.dep with sp := t.dep.sp + 2 }) v := by
  simp only [State.popWord, hb, hl, Bool.false_eq_true, if_false]

end

/-- Settles O30: each form by the access that it makes, data SRAM by the bytes that a store leaves there. -/
theorem deputyMemoryResults : Obligations.DeputyMemoryResults := by
  refine ⟨?_, ?_⟩
  · intro s t rd ra d8 v h hs d ext x a load store banked put
    have hd : s.dep.bank ++ d8 = banked := bank_append ..
    refine ⟨fun hl => depDone_of_next h hs rfl (run_ok (by rwa [hd]) ..), fun hl => depDone_of_next h hs rfl (run_ok (by rwa [hd]) ..),
      depDone_load h hs rfl rfl (by simp), depDone_load h hs rfl rfl (by simp), fun hr => ?_, depDone_store h hs rfl rfl,
      depDone_store h hs rfl rfl, depDone_store h hs rfl rfl, depDone_store h hs rfl rfl, depDone_store h hs rfl rfl, depDone_store h hs rfl rfl,
      fun hb hl => depDone_of_next h hs rfl (run_ok (pushWord_ok hb hl) ..), fun hb hl => depDone_of_next h hs rfl (run_ok (popWord_ok hb hl) ..)⟩
    have hr : ∀ mode : BitVec 2, ¬(mode ≠ 0 ∧ rd = ra) := fun _ hm => hr hm.2
    exact ⟨depDone_load h hs rfl rfl (hr 1), depDone_load h hs rfl rfl (hr 2), depDone_load h hs rfl rfl (hr 1),
      depDone_load h hs rfl rfl (hr 2)⟩
  · intro s t a v ha hw hs
    obtain rfl := dataStore_sram (by omega) hs
    have hb := setSramNat_bad s.dep a.toNat v.toNat 2
    have hwr := setSramNat_written hw a.toNat v.toNat 2 false
    obtain ⟨x, y, e⟩ := setSramNat_only s.dep a.toNat v.toNat 2 false
    refine ⟨?_, fun b h0 h1 => ?_, ?_⟩
    · rw [dataLoad_sram (s := s.setDep _) ha fun i hi => ?_]
      · refine congrArg (DepAcc.ok _) ?_
        exact (congrArg (BitVec.ofNat 16) (sramNat_written hwr)).trans (BitVec.ofNat_toNat ..|>.trans (BitVec.setWidth_eq _))
      · refine (hb _).trans ?_
        simp [hi]
    · have hd := hwr.rest b (by omega)
      have hp := hb b
      rw [show (decide (a.toNat ≤ b) && decide (b < a.toNat + 2)) = false by simp; omega] at hp
      simp only [State.setDep, Deputy.sramNat, List.range_one, List.map_cons, List.map_nil, List.any_cons, List.any_nil, Nat.add_zero, hd, hp,
        Bool.not_false, Bool.true_and]
    · rw [e]
      exact ⟨rfl, rfl, rfl, _, rfl⟩

end Sys2Proof.Machine
end

section
/-! ## The deputy's transfers of control and delay slots (14 R306, R310) -/

namespace Sys2Proof.Machine

section
variable {c : Instr} {s t : State} {slot : Bool} {f : Bool → State → DepRes} {p : DepPair} {v : Half}

/-! ### A call, a return and RETI -/

theorem yields_of_call {a : Half} (h : DepReady s) (hc : exec c s = s.depIssue slot fun ext s => callForm false a ext s)
    (ha : inExt s.dep.pc = inExt a) (hp : s.pushWord (inExt s.dep.pc) (s.dep.pc + 1) = .ok t ()) : Yields c s (depAt t t.dep a) :=
  yields_of_go (k := .call (s.dep.pc + 1)) h hc (run_ok hp ..) nofun ha

/-- RETI takes its flags word and its target from the stack, and the next instruction comes before any vector. -/
theorem yields_of_reti {u : State} {w : Half} (h : DepReady s) (hw : s.popWord (inExt s.dep.pc) = .ok u w)
    (hv : u.popWord (inExt s.dep.pc) = .ok t v) (ha : inExt s.dep.pc = inExt v) :
    Yields .reti s { t with dep := { t.dep.setFlagsWord w with pc := v, pair := none, retiShadow := true } } := by
  have hy := yields_of_ready (c := .reti) h rfl
  rw [run_ok hw, run_ok hv] at hy
  rwa [State.complete, passTo_near ha] at hy

/-! ### The slot (14 R310) -/

/-- What a slot forbids takes vector 2 for the whole pair. -/
theorem syncVector_pair (hp : s.dep.pair = some p) (n : Nat) : s.syncVector n = s.enterVector n p.addr true := by
  simp only [State.syncVector, Deputy.resumePc, Deputy.resumeDs, hp, Option.map_some, Option.getD_some, Option.isSome_some]

theorem finishPair_plain (hp : p.pop = false) (hq : p.push = false) (ha : inExt p.addr = inExt p.target) :
    s.finishPair t p = depAt t t.dep p.target := by
  simp only [State.finishPair, hp, hq, Bool.false_eq_true, if_false, passTo_depAt (k := .plain) ha nofun]

theorem finishPair_push {u : State} (hp : p.pop = false) (hq : p.push = true) (ha : inExt p.addr = inExt p.target)
    (hw : t.pushWord (inExt p.addr) (p.addr + 2) = .ok u ()) : s.finishPair t p = depAt u u.dep p.target := by
  simp only [State.finishPair, hp, hq, hw, Bool.false_eq_true, if_false, if_true, passTo_depAt (k := .call (p.addr + 2)) ha nofun]

theorem finishPair_pop {u : State} (hp : p.pop = true) (ha : inExt p.addr = inExt v) (hw : t.popWord (inExt p.addr) = .ok u v) :
    s.finishPair t p = depAt u u.dep v := by
  simp only [State.finishPair, hp, hw, if_true, passTo_depAt (k := .ret) ha nofun]

end

/-- Settles O32: a branch by whether it is delayed and its condition holds, a slot by what its pair asks for. -/
theorem deputyBranchesAndDelaySlots : Obligations.DeputyBranchesAndDelaySlots := by
  refine ⟨?_, ?_⟩
  · intro s t cond rs o6 o7 v h d pc ext near goes slot to6 to7 calls
    refine ⟨fun hc => ⟨fun ha => ?_, fun hs => ?_⟩, fun hc => ⟨fun ha => ?_, fun hs => ?_⟩,
      fun ha => yields_of_go (k := .plain) h rfl rfl nofun ha, fun hs => yields_of_delayed h hs rfl rfl,
      fun ha => yields_of_go (k := .plain) h rfl rfl nofun ha, fun hs => yields_of_delayed h hs rfl rfl,
      yields_of_call h rfl, fun hs => yields_of_delayed h hs rfl rfl, yields_of_call h rfl, fun hs => yields_of_delayed h hs rfl rfl,
      fun ha hp => yields_of_go (k := .ret) h rfl (run_ok hp ..) nofun ha, fun hs => yields_of_delayed h hs rfl rfl,
      fun w u hw hv ha => yields_of_reti h hw hv ha⟩
    · exact yields_of_go (k := .plain) h rfl (if_pos hc) nofun ha
    · exact yields_of_delayed h hs rfl (if_pos hc)
    · exact depDone_of_next (t := s) (d := s.dep) h ha rfl (if_neg (ne_true_of_eq_false hc))
    · exact yields_of_delayed h hs rfl (if_neg (ne_true_of_eq_false hc))
  · intro s t p v hh hw hp hb hn
    have hy : Yields .nop s (s.finishPair s p) := by
      have := yields_of_fetched (c := .nop) hh hw hp hb rfl
      simpa [hn, State.complete] using this
    have hz : ∀ {c : Instr} {f : Bool → State → DepRes}, exec c s = s.depIssue false f → Yields c s (s.enterVector 2 p.addr true) := by
      intro c f hc
      have := yields_of_fetched hh hw hp hb hc
      rwa [hn, syncVector_pair hn] at this
    exact ⟨fun hq hr ha => finishPair_plain hr hq ha ▸ hy, fun hq hr ha he => finishPair_push hr hq ha he ▸ hy,
      fun hr ha he => finishPair_pop hr ha he ▸ hy, hz rfl, hz rfl, fun _ _ _ => hz rfl⟩

end Sys2Proof.Machine
end

section
/-! ## RPT on zero and one element (14 R309) -/

namespace Sys2Proof.Machine

/-! ### Registers -/

section
variable {d : Deputy}

@[simp] theorem reg_setReg_self (d : Deputy) (r : DReg) (v : Half) : (d.setReg r v).reg r = v := by
  simp [Deputy.reg, Deputy.setReg]

theorem reg_setReg_ne {r q : DReg} (h : r ≠ q) (v : Half) : (d.setReg r v).reg q = d.reg q := by
  have : (dregFin r).val ≠ (dregFin q).val := fun e => h (BitVec.eq_of_toNat_eq e)
  simp only [Deputy.reg, Deputy.setReg, Fin.getElem_fin, Vector.getElem_set_ne _ _ this]

theorem stepReg_count {r : DReg} (h : r ≠ 7) (n : Nat) : (d.stepReg r n).reg 7 = d.reg 7 := reg_setReg_ne h _

/-- The count of a last element reaches 0. -/
theorem oneLess_last (h : d.reg 7 = 1) : d.oneLess.reg 7 = 0 :=
  (reg_setReg_self ..).trans (congrArg (· - 1#16) h)

theorem step_last (h : d.reg 7 = 1) (n : Nat) : (d.stepReg 5 n).oneLess.reg 7 = 0 :=
  oneLess_last ((stepReg_count (by decide) n).trans h)

theorem steps_last (h : d.reg 7 = 1) (n : Nat) : ((d.stepReg 6 n).stepReg 5 n).oneLess.reg 7 = 0 :=
  step_last ((stepReg_count (by decide) n).trans h) n

end

/-! ### Elements -/

section
variable {c : Instr} {s t u : State} {op : RptOp} {size : Nat} {ext : Bool}

theorem rptForm_zero (h : s.dep.reg 7 = 0) :
    rptForm op size ext s = .next (if op = .cmp then s.setDep (s.dep.setFlags ranOut) else s) :=
  if_pos h

/-- With one element left and no vector to take, RPT performs it, and ends where that was the last. -/
theorem rptForm_last (h : s.dep.reg 7 = 1) (ha : s.dep.asyncVector = none) (he : rptElement op size ext s = .more t)
    (ht : t.dep.reg 7 = 0) : rptForm op size ext s = .next (if op = .cmp then t.setDep (t.dep.setFlags ranOut) else t) := by
  have hf : (s.dep.reg 7).toNat + 1 = 1 + 1 := by rw [h]; rfl
  have h0 : ¬ s.dep.reg 7 = 0 := by rw [h]; decide
  rw [rptForm, hf, rptLoop, if_neg h0, ha]
  simp only [Option.isSome_none, Bool.false_eq_true, if_false, he]
  exact if_pos ht

theorem rptForm_differs (h : s.dep.reg 7 = 1) (ha : s.dep.asyncVector = none) (he : rptElement op size ext s = .differs t) :
    rptForm op size ext s = .next t := by
  have h0 : ¬ s.dep.reg 7 = 0 := by rw [h]; decide
  rw [rptForm, rptLoop, if_neg h0, ha]
  simp only [Option.isSome_none, Bool.false_eq_true, if_false, he]

/-- A store leaves the data registers. -/
theorem dataStore_d {a : Half} {n v : Nat} (h : s.dataStore ext a n v = .ok t ()) : t.dep.d = s.dep.d := by
  have hd : (s.dep.storeSram a n v).d = s.dep.d := by
    unfold Deputy.storeSram
    refine List.foldlRecOn (motive := fun e : Deputy => e.d = s.dep.d) _ _ rfl fun e he i _ => ?_
    dsimp only
    split
    · exact he
    · exact he
  unfold State.dataStore at h
  dsimp only at h
  split at h
  · cases h
  · split at h
    · cases h
    · cases h
      exact hd

theorem dataStore_reg {a : Half} {n v : Nat} (h : s.dataStore ext a n v = .ok t ()) (r : DReg) : t.dep.reg r = s.dep.reg r := by
  simp only [Deputy.reg, dataStore_d h]

end

/-- Settles O34: no element by `rptForm_zero`, one by what its accesses answer. -/
theorem repeatInstructions : Obligations.RepeatInstructions := by
  intro s t u v w h hs d ext out adv
  refine ⟨fun h0 => ⟨depDone_of_next h hs rfl (rptForm_zero h0), depDone_of_next h hs rfl (rptForm_zero h0),
    depDone_of_next h hs rfl (rptForm_zero h0), depDone_of_next h hs rfl (rptForm_zero h0), depDone_of_next h hs rfl (rptForm_zero h0),
    depDone_of_next h hs rfl (rptForm_zero h0)⟩, fun h1 ha => ⟨fun n c hc hst => ?_, fun n c hc hl hst h7 => ?_, fun n c hc hl hm h7 => ?_⟩⟩
  · have hx : exec c s = s.depIssue false fun ext s => rptForm .fill n ext s := by
      obtain ⟨rfl, rfl⟩ | ⟨rfl, rfl⟩ := hc <;> rfl
    have he : rptElement .fill n ext s = .more (t.setDep (t.dep.stepReg 5 n).oneLess) := by
      simp only [rptElement, ext, d, hst, DepAcc.element]
    exact depDone_of_next h hs hx (rptForm_last h1 ha he (step_last ((dataStore_reg hst 7).trans h1) n))
  · have hx : exec c s = s.depIssue false fun ext s => rptForm .mov n ext s := by
      obtain ⟨rfl, rfl⟩ | ⟨rfl, rfl⟩ := hc <;> rfl
    have he : rptElement .mov n ext s = .more (u.setDep ((u.dep.stepReg 6 n).stepReg 5 n).oneLess) := by
      simp only [rptElement, ext, d, hl, hst, DepAcc.element]
    exact depDone_of_next h hs hx (rptForm_last h1 ha he (steps_last h7 n))
  · have hx : exec c s = s.depIssue false fun ext s => rptForm .cmp n ext s := by
      obtain ⟨rfl, rfl⟩ | ⟨rfl, rfl⟩ := hc <;> rfl
    refine ⟨fun hne => ?_, fun heq => ?_⟩
    · have he : rptElement .cmp n ext s = .differs (u.setDep (u.dep.setFlags (cmpFlags n v w))) := by
        simp only [rptElement, ext, d, hl, hm, DepAcc.element, if_neg hne]
      exact depDone_of_next h hs hx (rptForm_differs h1 ha he)
    · have he : rptElement .cmp n ext s =
          .more (u.setDep (((u.dep.setFlags (cmpFlags n v w)).stepReg 6 n).stepReg 5 n).oneLess) := by
        simp only [rptElement, ext, d, hl, hm, DepAcc.element, if_pos heq]
      exact depDone_of_next h hs hx (rptForm_last h1 ha he (steps_last (d := u.dep.setFlags (cmpFlags n v w)) h7 n))

end Sys2Proof.Machine
end

section
/-! ## The deputy's vectors: interrupts, stack faults, access faults (14 R308, R312 to R316, R326) -/

namespace Sys2Proof.Machine

section
variable {c : Instr} {s t : State} {slot : Bool} {f : Bool → State → DepRes} {d : Deputy} {n : Nat}

/-! ### The asynchronous vector to take (14 R312) -/

/-- It is the lowest from 4 to 14 that is pending and enabled, and IE is set. -/
theorem asyncVector_spec (h : d.asyncVector = some n) : d.ie = true ∧ 4 ≤ n ∧ n < 15 ∧ (d.ipend &&& d.iena).getLsbD n = true
    ∧ ∀ m, 4 ≤ m → m < n → (d.ipend &&& d.iena).getLsbD m = false := by
  unfold Deputy.asyncVector at h
  split at h
  · cases h
  · next hc =>
    obtain ⟨hn, hr, hm⟩ := List.find?_range_eq_some.1 h
    simp only [Bool.and_eq_true, decide_eq_true_eq] at hn
    refine ⟨?_, hn.1, List.mem_range.1 hr, hn.2, fun m h4 hlt => ?_⟩
    · cases he : d.ie with
      | true => rfl
      | false => exact absurd (by simp [he]) hc
    · simpa only [h4, decide_true, Bool.true_and, Bool.not_eq_true'] using hm m hlt

/-! ### Entry with both words in data SRAM (14 R308, R313) -/

/-- A write within data SRAM changes nothing of the deputy but data SRAM. -/
theorem writeBytes_only {fuel : Nat} {s : State} {a n v : Nat} (h : a + n ≤ 0x8000) : SramOnly s.dep (s.writeBytes true a n v fuel).dep := by
  induction fuel generalizing s a n v with
  | zero => exact ⟨_, _, rfl⟩
  | succ fuel ih =>
    rw [State.writeBytes]
    by_cases hn : n = 0
    · rw [if_pos hn]
      exact ⟨_, _, rfl⟩
    · obtain ⟨k, hk, hkn⟩ : ∃ k, (if a % 2 = 0 ∧ 2 ≤ n then 2 else 1) = k ∧ k ≤ n := by
        split
        · next hc => exact ⟨2, rfl, hc.2⟩
        · exact ⟨1, rfl, by omega⟩
      simp only [if_neg hn, hk, Bool.not_true, byteFault_sram s (show a < 0x8000 by omega), Option.isSome_none, Bool.false_eq_true, if_false,
        if_pos (show a < 0x8000 by omega)]
      obtain ⟨_, _, e⟩ := setSramNat_only s.dep a v k false
      obtain ⟨_, _, e'⟩ := ih (s := { s with dep := s.dep.setSramNat a v k false }) (a := a + k) (n := n - k) (v := v / 2 ^ (8 * k)) (by omega)
      rw [e', e]
      exact ⟨_, _, rfl⟩

/-- Two words written within data SRAM, one below the other. -/
theorem writeWords_written {a b : Nat} {v w : Half} (ha : a + 2 ≤ 0x8000) (hb : b + 2 ≤ a) (h : smWf 0#8 0 s.dep.data = true) :
    let t := (s.writeBytes true a 2 v.toNat 2).writeBytes true b 2 w.toNat 2
    (t.dep.sramNat a 2).1 = v.toNat ∧ (t.dep.sramNat b 2).1 = w.toNat ∧ SramOnly s.dep t.dep := by
  intro t
  have h1 := writeBytes_written (v := v.toNat) (Nat.le_refl 2) ha h
  have h2 := writeBytes_written (v := w.toNat) (s := s.writeBytes true a 2 v.toNat 2) (Nat.le_refl 2) (show b + 2 ≤ 0x8000 by omega) h1.wf
  refine ⟨?_, sramNat_written h2, ?_⟩
  · refine (sramNat_of_bytes (v := v.toNat) fun k hk => (h2.rest (a + k) (by omega)).trans (h1.bytes k hk)).trans ?_
    exact Nat.mod_eq_of_lt v.isLt
  · obtain ⟨_, _, e⟩ := writeBytes_only (s := s) (v := v.toNat) (fuel := 2) ha
    obtain ⟨_, _, e'⟩ := writeBytes_only (s := s.writeBytes true a 2 v.toNat 2) (v := w.toNat) (fuel := 2) (show b + 2 ≤ 0x8000 by omega)
    exact ⟨_, _, e'.trans (by rw [e])⟩

/-- What an entry to a vector leaves of the deputy where both words lie in data SRAM within the stack's bounds. -/
theorem enterVector_sram {pc : Half} {ds : Bool} (ha : s.dep.stackBad (s.dep.sp - 2) = false) (hb : s.dep.stackBad (s.dep.sp - 4) = false)
    (hl : 4 ≤ s.dep.sp.toNat) (hh : s.dep.sp.toNat ≤ 0x8000) (hw : smWf 0#8 0 s.dep.data = true) :
    ∃ x y, (s.enterVector n pc ds).dep = { s.dep with data := x, dataBad := y, sp := s.dep.sp - 4 }.atVector n
      ∧ ((s.enterVector n pc ds).dep.sramNat (s.dep.sp - 2).toNat 2).1 = pc.toNat
      ∧ ((s.enterVector n pc ds).dep.sramNat (s.dep.sp - 4).toNat 2).1 = (s.dep.flagsWord ds).toNat := by
  have h2 : (s.dep.sp - 2).toNat = s.dep.sp.toNat - 2 := by bv_omega
  have h4 : (s.dep.sp - 4).toNat = s.dep.sp.toNat - 4 := by bv_omega
  obtain ⟨h1, h2, x, y, e⟩ := writeWords_written (s := s) (v := pc) (w := s.dep.flagsWord ds) (a := (s.dep.sp - 2).toNat)
    (b := (s.dep.sp - 4).toNat) (by omega) (by omega) hw
  have hn : s.enterVector n pc ds = _ := if_neg (by rw [ha, hb]; decide)
  rw [hn]
  exact ⟨x, y, congrArg (fun d : Deputy => { d with sp := s.dep.sp - 4 }.atVector n) e, h1, h2⟩

/-! ### Stack faults (14 R308, R314) -/

theorem stackBad_iff (d : Deputy) (a : Half) :
    d.stackBad a = true ↔ a.getLsbD 0 = true ∨ a.toNat < d.splo.toNat ∨ d.sphi.toNat < a.toNat + 1 := by
  simp only [Deputy.stackBad, Bool.or_eq_true, decide_eq_true_eq, or_assoc]

/-- A running deputy outside a pair goes on in a vector. -/
theorem atVector_running (hp : d.pair = none) (hw : d.waiting = false) (n : Nat) :
    d.atVector n = { d with pc := BitVec.ofNat 16 (4 * n), ie := false, retiShadow := false } := by
  unfold Deputy.atVector
  rw [← hp, ← hw]

theorem yields_of_stack {pop : Bool} (h : DepReady s) (hv : s.dep.shValid = false) (hc : exec c s = s.depIssue slot f)
    (hf : f (inExt s.dep.pc) s = .stack pop) : Yields c s { s with dep := { s.dep with
      shpc := s.dep.pc, shfl := s.dep.flagsWord false, shValid := true, shPop := pop, pc := 4, ie := false, retiShadow := false } } := by
  have hy := yields_of_ready h hc
  obtain ⟨-, hw, -, -, hn⟩ := h
  have hr : s.dep.resumePc = s.dep.pc ∧ s.dep.resumeDs = false := by
    simp only [Deputy.resumePc, Deputy.resumeDs, hn, Option.map_none, Option.getD_none, Option.isSome_none, and_self]
  rw [hf, State.complete, State.stackFault, if_neg (ne_true_of_eq_false hv), hr.1, hr.2, atVector_running (by exact hn) (by exact hw)] at hy
  exact hy

/-! ### Access faults (14 R316, R326) -/

theorem accessFault_alone (hn : s.dep.pair = none) (a : Half) (r : Nat) (write fetch : Bool) : s.accessFault a r write fetch =
    State.enterVector { s with dep := { s.dep with dfaddr := a, dfinfo := BitVec.ofNat 6 (r % 8 + bit write * 8 + bit fetch * 16) } } 3
      s.dep.pc false := by
  have hd : s.dep.resumeDs = false := by rw [Deputy.resumeDs, hn]; rfl
  rw [State.accessFault, syncVector_alone (by exact hn), hd]
  rfl

theorem yields_of_access {a : Half} {r : Nat} {write : Bool} (h : DepReady s) (hc : exec c s = s.depIssue slot f)
    (hf : f (inExt s.dep.pc) s = .access s a r write) : Yields c s (State.enterVector { s with dep := { s.dep with
      dfaddr := a, dfinfo := BitVec.ofNat 6 (r % 8 + bit write * 8) } } 3 s.dep.pc false) := by
  have hy := yields_of_ready h hc
  obtain ⟨-, -, -, -, hn⟩ := h
  rw [hf] at hy
  rw [State.complete, accessFault_alone hn] at hy
  exact hy

/-- A jump from outside the extension region into it is refused: its target, with FETCH set. -/
theorem yields_of_gated {a : Half} (h : DepReady s) (hc : exec c s = s.depIssue slot f) (hf : f (inExt s.dep.pc) s = .go s a .plain)
    (hi : inExt s.dep.pc = false) (ha : inExt a = true) : Yields c s (State.enterVector { s with dep := { s.dep with
      dfaddr := a, dfinfo := BitVec.ofNat 6 (5 + 16) } } 3 s.dep.pc false) := by
  have hy := yields_of_ready h hc
  obtain ⟨-, -, -, -, hn⟩ := h
  have hg : s.dep.gate s.dep.pc a .plain = false := by
    unfold Deputy.gate
    rw [hi, ha]
  rw [hf] at hy
  rw [State.complete, State.passTo, if_neg (ne_true_of_eq_false hg), accessFault_alone hn] at hy
  exact hy

end

/-- Settles O35: the entry by what it leaves in data SRAM, faults by what each instruction answers. -/
theorem deputyVectorsAndFaults : Obligations.DeputyVectorsAndFaults := by
  refine ⟨fun s => ⟨fun n ha => ?_, fun ha => ?_⟩, ?_, ?_⟩
  · obtain ⟨hie, h4, h15, hb, hm⟩ := asyncVector_spec ha
    rw [BitVec.getLsbD_and, Bool.and_eq_true] at hb
    refine ⟨⟨h4, h15, hb.1, hb.2, hie, hm⟩, fun h2 h4 hl hh hw => ?_⟩
    obtain ⟨x, y, e, h1, h2⟩ := enterVector_sram (n := n) (pc := s.dep.resumePc) (ds := s.dep.resumeDs) h2 h4 hl hh hw
    have he : exec .interruptEntry s = answer s (s.enterVector n s.dep.resumePc s.dep.resumeDs) := congrArg (answer s) (by rw [ha])
    refine ⟨_, he, ?_⟩
    rw [hardwire_dep]
    refine ⟨?_, ?_, ?_, ?_, ?_, h1, h2, ?_⟩ <;> rw [e] <;> rfl
  · exact congrArg (answer s) (by rw [ha])
  · intro s rd h hv d faulted
    refine ⟨fun hb => ?_, fun hb => ?_⟩
    · have hb := (stackBad_iff ..).2 hb
      exact yields_of_stack h hv rfl (f := fun ext s => (s.pushWord ext (s.dep.reg rd)).run s true fun t _ => .next t)
        (run_stack (if_pos hb) ..)
    · have hb := (stackBad_iff ..).2 hb
      have hp : ∀ ext, s.popWord ext = .stack true := fun ext => if_pos hb
      exact ⟨yields_of_stack h hv rfl (f := fun ext s => (s.popWord ext).run s false fun t v => .next (t.setDep (t.dep.setReg rd v)))
          (run_stack (hp _) ..),
        yields_of_stack h hv rfl (f := fun ext s => (s.popWord ext).run s false fun t v => .go t v .ret) (run_stack (hp _) ..)⟩
  · intro s rd rs rsv a r h d ext
    refine ⟨fun hr => yields_of_undefined h rfl (if_pos hr), yields_of_undefined h rfl rfl, ?_, fun hs => ?_, fun hl => ?_,
      fun hi ha => yields_of_gated h rfl rfl hi ha⟩
    · exact yields_of_undefined h rfl (if_pos ⟨by decide, rfl⟩)
    · exact yields_of_access (write := true) (f := fun ext s => storeForm rd rs 0 2 ext s) h rfl
        (run_refuse hs ..)
    · exact yields_of_access (write := false) (f := fun ext s => loadForm rd rs 0 2 ext s) h rfl
        (run_refuse hl ..)

end Sys2Proof.Machine
end

section
/-! SUPPORT. What a NOTIFY on the field network leaves unchanged (15 R341). -/

namespace Sys2Proof.Machine

/-- `t` is `s` after notifications: at most draws, the dictionary's counts and the CAN controller differ, which stays enabled or not, at its
rate. -/
def Notified (s t : State) : Prop := ∃ f d c, t = { s with free := f, dict := d, can := c } ∧ c.en = s.can.en ∧ c.drate = s.can.drate

theorem Notified.refl (s : State) : Notified s s := ⟨_, _, _, rfl, rfl, rfl⟩

theorem Notified.trans {s t u : State} (h : Notified s t) (k : Notified t u) : Notified s u := by
  obtain ⟨_, _, _, rfl, he, hr⟩ := h
  obtain ⟨_, _, _, rfl, he', hr'⟩ := k
  exact ⟨_, _, _, rfl, he'.trans he, hr'.trans hr⟩

section
variable (s : State)

theorem sendCan_notified (i : BitVec 29) (x : BitVec 512) : Notified s (s.sendCan i x) := by
  unfold State.sendCan
  dsimp only
  split
  · exact .refl s
  · split
    · exact ⟨_, _, _, rfl, rfl, rfl⟩
    · exact ⟨_, _, _, rfl, rfl, rfl⟩

theorem notifyFrame_notified (prio : Nat) (x : BitVec 512) : Notified s (s.notifyFrame prio x) :=
  .trans ⟨_, _, _, rfl, rfl, rfl⟩ (sendCan_notified { s with dict := { s.dict with ntfTid := s.dict.ntfTid + 1 } } ..)

theorem notifyValue_notified (prio idx sub type : Nat) (v : List Byte) : Notified s (s.notifyValue prio idx sub type v) :=
  List.foldlRecOn (motive := Notified s) _ _ (.refl s) fun t h _ _ => h.trans (notifyFrame_notified t ..)

theorem notifyEntry_notified (idx sub : Nat) : Notified s (s.notifyEntry idx sub) := by
  unfold State.notifyEntry State.notifyAt
  split
  · exact notifyValue_notified ..
  · exact .refl s

theorem blockSpared_notified (before : State) : Notified s (s.blockSpared before) := by
  unfold State.blockSpared
  split
  · exact .refl s
  · exact notifyEntry_notified ..

end

theorem Notified.dep {s t : State} (h : Notified s t) : t.dep = s.dep := by
  obtain ⟨_, _, _, rfl, -⟩ := h
  rfl

end Sys2Proof.Machine
end

section
/-! ## Program memory under LOCK (14 R303, R304, Table 14.12) -/

namespace Sys2Proof.Machine

section
variable {d : Deputy}

theorem bitOf_toNat {w : Nat} (v : BitVec w) (i : Nat) : bitOf v.toNat i = v.getLsbD i := by
  rw [BitVec.getLsbD, Nat.testBit_eq_decide_div_mod_eq]
  rfl

theorem putPmdata_locked (h : d.lock = true) (v : Nat) : d.putPmdata v = d := if_pos h

/-- Without LOCK a word is written in program SRAM, and PMADDR advances. -/
theorem putPmdata_unlocked (h : d.lock = false) (v : Nat) : d.putPmdata v =
    { (if d.pmaddr.toNat < 0x4000 then d.progSet d.pmaddr.toNat (BitVec.ofNat 14 v) else d) with pmaddr := d.pmaddr + 1 } :=
  if_neg (ne_true_of_eq_false h)

theorem putPmctl_locked (h : d.lock = true) (x : Nat) : d.putPmctl x = d := if_pos h

theorem putPmctl_unlocked (h : d.lock = false) (x : Nat) :
    d.putPmctl x = { d with lock := bitOf x 0, spen := bitOf x 5, spblk := BitVec.ofNat 4 (x / 2) } :=
  if_neg (ne_true_of_eq_false h)

end

/-- Settles O37: each register by whether LOCK is set; the notification of the spare block leaves the deputy. -/
theorem programMemoryLock : Obligations.ProgramMemoryLock := by
  intro s v
  refine ⟨⟨_, rfl, ?_, fun h => ?_⟩, ⟨_, rfl, ?_, fun h => ?_⟩⟩
  · exact fun h => putPmdata_locked h _
  · rw [hardwire_dep, putPmdata_unlocked h]
    refine ⟨rfl, fun ha => ?_⟩
    simp only [if_pos ha, BitVec.ofNat_toNat]
  · rw [hardwire_dep, (blockSpared_notified ..).dep]
    exact fun h => putPmctl_locked h _
  · rw [hardwire_dep, (blockSpared_notified ..).dep]
    have hl : (BitVec.ofNat 4 (v.toNat / 2)) = v.extractLsb' 1 4 := by
      rw [BitVec.extractLsb', Nat.shiftRight_eq_div_pow]
    rw [putPmctl_unlocked h]
    exact ⟨bitOf_toNat v 0, hl, bitOf_toNat v 5⟩

end Sys2Proof.Machine
end

section
/-! ## The watchdog, the timer and accesses of the window (14 R316, R317, R323, R324) -/

namespace Sys2Proof.Machine

section
variable {s t : State} {off : BitVec 14}

/-! ### The queue of posted writes (14 R317) -/

theorem performReady_empty (h : s.dep.wqueue = []) (n : Nat) : s.performReady n = s := by
  cases n with
  | zero => rfl
  | succ n => simp only [State.performReady, h]

theorem foreseen_empty (h : s.dep.wqueue = []) : s.foreseen = s := by
  unfold State.foreseen
  rw [h, List.foldl_nil, ← h]

/-- A posted write that need not wait leaves the queue; one that waits stays at its front. -/
theorem performReady_posted {w : WinWrite} {n : Nat} (h : s.dep.wqueue = [w]) :
    (∀ t, State.winPerform { s with dep := { s.dep with wqueue := [] } } w = some t → t.dep.wqueue = [] → s.performReady (n + 1) = t)
    ∧ (State.winPerform { s with dep := { s.dep with wqueue := [] } } w = none → s.performReady (n + 1) = s) := by
  refine ⟨fun t ht hq => ?_, fun hn => ?_⟩
  · simp only [State.performReady, h, ht, performReady_empty hq]
  · simp only [State.performReady, h, hn]

/-! ### The core window (14 R316) -/

/-- What extension code may access firmware may. -/
theorem coreWindowFault_secure {ext : Bool} {n : Nat} (h : s.coreWindowFault ext n = none) : s.coreWindowFault false n = none := by
  cases ext with
  | false => exact h
  | true =>
    unfold State.coreWindowFault at h ⊢
    cases hp : s.page with
    | csrs => rfl
    | _ => rw [hp] at h; cases h

/-- The bytes of an access of the core window, by its offset. -/
def windowBytes (off : BitVec 14) : Nat := if off.toNat % 2 = 0 then 2 else 1

/-- The write that a core-window write posts. -/
def windowPost (off : BitVec 14) (v : BitVec 16) (secure : Bool) : WinWrite :=
  { addr := 0xC000 + off.setWidth 16, bytes := windowBytes off, value := BitVec.ofNat 16 (v.toNat % 2 ^ (8 * windowBytes off)), secure := secure }

theorem windowPost_addr (off : BitVec 14) (v : BitVec 16) (secure : Bool) : (windowPost off v secure).addr.toNat = 0xC000 + off.toNat := by
  have := off.isLt
  show (0xC000#16 + off.setWidth 16).toNat = _
  rw [BitVec.toNat_add, BitVec.toNat_setWidth, BitVec.toNat_ofNat]
  omega

theorem windowPost_value (off : BitVec 14) (v : BitVec 16) (secure : Bool) :
    (windowPost off v secure).value.toNat = v.toNat % 2 ^ (8 * windowBytes off) := by
  have := Nat.lt_of_le_of_lt (Nat.mod_le v.toNat (2 ^ (8 * windowBytes off))) v.isLt
  rw [windowPost, BitVec.toNat_ofNat, Nat.mod_eq_of_lt this]

/-- It is performed as a write of the window at its offset, where that is permitted. -/
theorem winPerform_windowPost (h : s.coreWindowFault false off.toNat = none) (v : BitVec 16) (secure : Bool) :
    s.winPerform (windowPost off v secure) =
      s.coreWindowPut off.toNat (windowBytes off) (v.toNat % 2 ^ (8 * windowBytes off)) secure := by
  have ha := windowPost_addr off v secure
  have hodd : ¬((windowPost off v secure).bytes = 2 ∧ (windowPost off v secure).addr.toNat % 2 = 1) := by
    rw [ha]
    rintro ⟨hb, ho⟩
    have h1 : windowBytes off = 1 := if_neg (by omega)
    exact absurd (h1.symm.trans hb) (by decide)
  have hc : inCoreWindow (0xC000 + off.toNat) = true := decide_eq_true (by omega)
  unfold State.winPerform
  dsimp only
  rw [if_neg hodd, ha, windowPost_value]
  unfold State.winSet
  rw [if_pos hc, Nat.add_sub_cancel_left, h]
  rfl

/-- A permitted write of the core window with none posted before it: posted, and performed unless it waits. -/
theorem coreWindowWrite_posted (hq : s.dep.wqueue = []) {v : BitVec 16} {secure : Bool} (h : s.coreWindowFault (!secure) off.toNat = none) :
    Yields (.coreWindowWrite off v secure) s
      (State.performReady 4 { s with dep := { s.dep with wqueue := [windowPost off v secure] } }) := by
  refine congrArg (answer s) ?_
  have hp := performReady_empty hq 4
  dsimp only
  rw [foreseen_empty hq, h, if_neg (by decide), hp, hq, if_neg (by decide)]
  rfl

/-- The same machine with its queue, which is empty, written again. -/
theorem emptied_queue (hq : s.dep.wqueue = []) (l : List WinWrite) :
    ({ s with dep := { ({ s with dep := { s.dep with wqueue := l } } : State).dep with wqueue := [] } } : State) = s := by
  rw [← hq]

end

/-- Settles O36: the stages by whether they count, the queue by its front, a window access by whether it is refused or waits. -/
theorem watchdogTimerAndWindow : Obligations.WatchdogTimerAndWindow := by
  refine ⟨fun s v => ⟨⟨_, rfl, fun he hb h2 => ?_, fun h => ?_⟩, congrArg (answer s) ?_, fun he hb h2 => congrArg (answer s) ?_,
    fun h => congrArg (answer s) ?_, ⟨_, rfl, fun h => ?_, fun h => ?_⟩⟩, fun s off v secure => ?_⟩
  · have hc : (s.watchdogCounts && !s.dep.wdSecond) = true := by rw [State.watchdogCounts, he, hb, h2]; rfl
    rw [State.watchdogFirst, if_pos hc]
    exact ⟨rfl, rfl⟩
  · rw [State.watchdogFirst, if_neg (ne_true_of_eq_false (by exact h))]
    rfl
  · have hv : v.toNat = 0x5A1E ↔ v = 0x5A1E := ⟨fun h => BitVec.eq_of_toNat_eq h, fun h => h ▸ rfl⟩
    simp only [State.kick, hv]
  · exact if_pos (by rw [State.watchdogCounts, he, hb, h2]; rfl)
  · exact if_neg (ne_true_of_eq_false h)
  · rw [if_pos h]
    exact ⟨rfl, rfl⟩
  · rw [if_neg (ne_true_of_eq_false h)]
    rfl
  · refine ⟨fun hq => congrArg (answer s) ?_, fun w q t hq ht => congrArg (answer s) ?_, fun w q hq hn => congrArg (answer s) ?_,
      fun hf => congrArg (answer s) ?_, fun t hf => ⟨fun hr => congrArg (answer s) ?_, fun hr => congrArg (answer s) ?_⟩,
      fun hq => ⟨fun hr => congrArg (answer s) ?_, fun hr => ?_⟩⟩
    · rw [State.performOne, hq]
    · rw [State.performOne, hq]
      exact congrArg (Option.getD · s) ht
    · rw [State.performOne, hq]
      exact congrArg (Option.getD · s) hn
    · rw [State.afterPosted, hf]
    · rw [State.afterPosted, hf]
      exact if_pos hr
    · rw [State.afterPosted, hf]
      exact if_neg (by rw [hr]; decide)
    · exact if_pos (by rw [foreseen_empty hq]; exact hr)
    · have hy := coreWindowWrite_posted (v := v) hq hr
      have hw := winPerform_windowPost (coreWindowFault_secure hr) v secure
      have hpost := performReady_posted (n := 3) (s := { s with dep := { s.dep with wqueue := [windowPost off v secure] } }) rfl
      rw [emptied_queue hq, hw] at hpost
      refine ⟨fun t ht hn => ?_, fun hn => ⟨_, windowPost off v secure, hy, ?_, windowPost_addr .., rfl, rfl, windowPost_value ..⟩⟩
      · rwa [hpost.1 t ht hn] at hy
      · rw [hpost.2 hn]
        rfl

end Sys2Proof.Machine
end

section
/-! ## The copy engine's commands and their completion (14 Table 14.9, R315, R318; 12 R265) -/

namespace Sys2Proof.Machine

/-! ### CECMD as a value -/

theorem ceWord_copy : ∀ srcl dstl sec irq : Bool, let v := ceWord 1 srcl dstl sec irq
    v % 8 = 1 ∧ bitOf v 3 = srcl ∧ bitOf v 4 = dstl ∧ bitOf v 5 = sec ∧ bitOf v 6 = irq := by decide

theorem ceWord_page : ∀ irq : Bool, (ceWord 2 false false false irq % 8 = 2 ∧ bitOf (ceWord 2 false false false irq) 6 = irq)
    ∧ (ceWord 3 false false false irq % 8 = 3 ∧ bitOf (ceWord 3 false false false irq) 6 = irq) := by decide

section
variable {s : State}

/-! ### Commands -/

theorem ceCmd_ignored (h : s.ce.busy = true) (v : Nat) : s.ceCmd v = s := if_pos h

theorem ceCmd_copy (h : s.ce.busy = false) (srcl dstl sec irq : Bool) :
    s.ceCmd (ceWord 1 srcl dstl sec irq) = s.ceStartCopy srcl dstl sec irq := by
  obtain ⟨ho, h3, h4, h5, h6⟩ := ceWord_copy srcl dstl sec irq
  simp only [State.ceCmd, h, ho, h3, h4, h5, h6, Bool.false_eq_true, if_false]

theorem ceCmd_clean (h : s.ce.busy = false) (irq : Bool) :
    s.ceCmd (ceWord 2 false false false irq) = (s.cleanPage (s.ce.dst.toNat / 2 ^ 14)).ceBusy 0 irq := by
  obtain ⟨ho, h6⟩ := (ceWord_page irq).1
  simp only [State.ceCmd, h, ho, h6, Bool.false_eq_true, if_false]

theorem ceCmd_inv (h : s.ce.busy = false) (irq : Bool) :
    s.ceCmd (ceWord 3 false false false irq) = (s.invPage (s.ce.dst.toNat / 2 ^ 14)).ceBusy 0 irq := by
  obtain ⟨ho, h6⟩ := (ceWord_page irq).2
  simp only [State.ceCmd, h, ho, h6, Bool.false_eq_true, if_false]

/-- A length of 0 is a bad command. -/
theorem ceStartCopy_empty (h : s.ce.busy = false) (hl : s.ce.len = 0) (srcl dstl sec irq : Bool) :
    s.ceStartCopy srcl dstl sec irq = s.ceBusy 6 irq := by
  unfold State.ceStartCopy
  rw [if_neg (ne_true_of_eq_false h), hl]
  exact if_pos rfl

/-! ### A page dropped (12 R265) -/

/-- Lines dropped are in no data cache afterwards. -/
theorem lineFind_dropLines (f : Nat → Nat) {g : Nat} {l : List Nat} (m : Mem) (h : lineFind g m.cache = none ∨ ∃ i ∈ l, f i = g) :
    lineFind g (l.foldl (fun m i => m.dropLine (f i)) m).cache = none := by
  induction l generalizing m with
  | nil => exact h.resolve_right nofun
  | cons i l ih =>
    refine ih (m.dropLine (f i)) ?_
    by_cases hi : f i = g
    · exact .inl (by rw [← hi]; exact lineFind_lineErase_self ..)
    · refine h.imp (fun hn => (lineFind_lineErase_ne (Ne.symm hi) _).trans hn) ?_
      rintro ⟨j, hj, hg⟩
      rcases List.mem_cons.1 hj with rfl | hj
      · exact absurd hg hi
      · exact ⟨j, hj, hg⟩

theorem invPage_dropped {page k : Nat} (h : inScratch (page * 2 ^ 14) = false) (hk : k < 256) :
    lineFind (256 * page + k) (s.invPage page).mem.cache = none := by
  rw [State.invPage, if_neg (ne_true_of_eq_false h)]
  exact lineFind_dropLines (256 * page + ·) s.mem (.inr ⟨k, List.mem_range.2 hk, rfl⟩)

/-! ### A copy within data SRAM -/

/-- `e` is `d` with `len` bytes of data SRAM at `dst` those that `d` has at `src`. -/
structure SramCopied (d e : Deputy) (src dst len : Nat) : Prop where
  bytes : ∀ k < len, smGet 0#8 (dst + k) e.data = smGet 0#8 (src + k) d.data
  rest : ∀ a, a < dst ∨ dst + len ≤ a → smGet 0#8 a e.data = smGet 0#8 a d.data

/-- One piece of a copy, without parity errors: the number read is the number written. -/
theorem sramPiece_copied {d : Deputy} (hw : smWf 0#8 0 d.data = true) (src dst k : Nat) :
    SramCopied d (d.setSramNat dst (d.sramNat src k).1 k false) src dst k := by
  have h := setSramNat_written hw dst (d.sramNat src k).1 k false
  exact ⟨fun i hi => (h.bytes i hi).trans (natOf_byte _ hi), h.rest⟩

/-- A piece and then the rest, whose source the piece does not reach. -/
theorem SramCopied.append {d e f : Deputy} {src dst k n : Nat} (hk : k ≤ n) (hs : src + n ≤ dst) (h : SramCopied d e src dst k)
    (g : SramCopied e f (src + k) (dst + k) (n - k)) : SramCopied d f src dst n := by
  refine ⟨fun i hi => ?_, fun a ha => (g.rest a (by omega)).trans (h.rest a (by omega))⟩
  by_cases hik : i < k
  · exact (g.rest _ (.inl (by omega))).trans (h.bytes i hik)
  · obtain ⟨j, rfl⟩ := Nat.exists_eq_add_of_le (Nat.le_of_not_lt hik)
    rw [← Nat.add_assoc, ← Nat.add_assoc, g.bytes j (by omega)]
    exact h.rest _ (.inl (by omega))

theorem setSramNat_good {d : Deputy} (h : d.dataBad = []) (a v n : Nat) : (d.setSramNat a v n false).dataBad = [] := by
  refine List.eq_nil_iff_forall_not_mem.2 fun k hk => ?_
  have := setSramNat_bad d a v n k
  rw [h] at this
  simp [nsMem, hk] at this

/-- A copy of data SRAM upward to data SRAM: the pieces leave the destination holding the source's bytes, and memory as it was. -/
theorem ceCopy_sram {s : State} {src dst len fuel : Nat} (sec : Bool) (hf : len ≤ fuel) (hs : src + len ≤ dst) (hb : s.dep.dataBad = [])
    (hw : smWf 0#8 0 s.dep.data = true) :
    ∃ d, s.ceCopy sec { local_ := true, addr := src } { local_ := true, addr := dst } len false fuel = ({ s with dep := d }, 0)
      ∧ SramCopied s.dep d src dst len := by
  induction fuel generalizing s src dst len with
  | zero =>
    obtain rfl : len = 0 := by omega
    exact ⟨s.dep, rfl, nofun, fun _ _ => rfl⟩
  | succ fuel ih =>
    by_cases hl : len = 0
    · subst hl
      exact ⟨s.dep, rfl, nofun, fun _ _ => rfl⟩
    · obtain ⟨k, hk⟩ : ∃ k, Nat.min len (64 - dst % 64) = k := ⟨_, rfl⟩
      have hkl : 1 ≤ k ∧ k ≤ len := by
        have : Nat.min len (64 - dst % 64) = min len (64 - dst % 64) := rfl
        omega
      have hp : (s.dep.sramNat src k).2 = false := by simp [Deputy.sramNat, hb, nsMem]
      obtain ⟨d, e, hd⟩ := ih (s := { s with dep := s.dep.setSramNat dst (s.dep.sramNat src k).1 k false }) (src := src + k) (dst := dst + k)
        (len := len - k) (by omega) (by omega) (setSramNat_good hb ..) (setSramNat_written hw ..).wf
      refine ⟨d, ?_, (sramPiece_copied hw src dst k).append hkl.2 hs hd⟩
      rw [State.ceCopy]
      simp only [hk, if_neg hl, State.ceAllows, Bool.true_or, Bool.not_true, Bool.or_self, Bool.false_eq_true, if_false, if_true, hp,
        CeSide.plus]
      exact e

theorem ceStartCopy_sram (h : s.ce.busy = false) (hl : s.ce.len ≠ 0) (hsrc : s.ce.src.toNat + s.ce.len.toNat ≤ 32768)
    (hdst : s.ce.dst.toNat + s.ce.len.toNat ≤ 32768) (hs : s.ce.src.toNat + s.ce.len.toNat ≤ s.ce.dst.toNat) (hb : s.dep.dataBad = [])
    (hw : smWf 0#8 0 s.dep.data = true) (sec irq : Bool) :
    ∃ d, s.ceStartCopy true true sec irq = State.ceBusy { s with dep := d } 0 irq
      ∧ SramCopied s.dep d s.ce.src.toNat s.ce.dst.toNat s.ce.len.toNat := by
  obtain ⟨d, e, hd⟩ := ceCopy_sram (s := s) sec (Nat.le_refl _) hs hb hw
  have hz : ¬ s.ce.len.toNat = 0 := fun hz => hl (BitVec.eq_of_toNat_eq hz)
  refine ⟨d, ?_, hd⟩
  unfold State.ceStartCopy
  rw [if_neg (ne_true_of_eq_false h)]
  simp only [State.ceWaits, e, hz, show ¬ 32768 < s.ce.src.toNat + s.ce.len.toNat by omega,
    show ¬ 32768 < s.ce.dst.toNat + s.ce.len.toNat by omega, decide_false, Bool.and_false, Bool.or_self, Bool.not_true, Bool.false_and,
    Bool.false_eq_true, if_false]

/-! ### The completion (14 Table 14.9) -/

theorem ceFinish_vector (hb : s.ce.busy = true) (hw : s.ce.waiting = none) (hi : s.ce.irq = true) (err : Bool) :
    s.ceFinish err = ({ s with ce := s.ce.finished err } : State).raiseVector 12 := by
  have hgo : s.ceGoesOn = s := by
    unfold State.ceGoesOn
    rw [hw]
  have hends : ¬(!s.ce.busy || s.ce.waiting.isSome) = true := by
    rw [hb, hw]
    decide
  unfold State.ceFinish
  dsimp only
  rw [hgo, if_neg hends, if_pos hi]
  rfl

/-- Without firmware nothing follows the completion. -/
theorem copyEngineCompletion_alone (hb : s.ce.busy = true) (hw : s.ce.waiting = none) (hf : s.firmware = false) (err : Bool) :
    Yields (.copyEngineCompletion err) s (s.ceFinish err) := by
  have hn : (s.ceFinish err).firmware = false := by
    obtain ⟨i, e⟩ := ceFinish_eq hb hw err
    rw [e]
    exact hf
  refine congrArg (answer s) ?_
  rw [hb]
  dsimp only
  rw [if_neg (by decide), hn]
  rfl

end

/-- Settles O50: a command by whether one runs and by its operation, data SRAM by the pieces of the copy, the completion by `ceFinish`. -/
theorem copyEngineCommands : Obligations.CopyEngineCommands := by
  intro s srcl dstl sec irq err
  refine ⟨fun hb => ⟨congrArg (answer s) (ceCmd_ignored hb _), congrArg (answer s) (ceCmd_ignored hb _),
      congrArg (answer s) (ceCmd_ignored hb _)⟩,
    fun hb hl => congrArg (answer s) ((ceCmd_copy hb ..).trans (ceStartCopy_empty hb hl ..)), fun hb hl hsrc hdst hs hp hw => ?_,
    fun hb => ⟨congrArg (answer s) (ceCmd_clean hb irq), congrArg (answer s) (ceCmd_inv hb irq)⟩, fun hb hi => ?_, fun hb hw hf => ?_⟩
  · obtain ⟨d, e, hd⟩ := ceStartCopy_sram hb hl hsrc hdst hs hp hw sec irq
    exact ⟨_, congrArg (answer s) ((ceCmd_copy hb ..).trans e), rfl, rfl, rfl, hd.bytes, hd.rest⟩
  · exact ⟨_, congrArg (answer s) (ceCmd_inv hb irq), fun k hk => invPage_dropped hi hk⟩
  · obtain ⟨i, e⟩ := ceFinish_eq hb hw err
    refine ⟨_, copyEngineCompletion_alone hb hw hf err, ?_, ?_, ?_, ?_, fun hi => ?_⟩
    · rw [e]
      rfl
    · rw [e]
      rfl
    · rw [e]
      rfl
    · rw [e]
      rfl
    · rw [ceFinish_vector hb hw hi]
      show (s.dep.ipend ||| 1#16 <<< 12).getLsbD 12 = true
      rw [BitVec.getLsbD_or]
      exact Bool.or_true _

end Sys2Proof.Machine
end

section
/-! ## Boot, PD_AON reset and CORE reset (14 R318 to R321; 17 R391 to R393, Table 17.12; 05 Table 5.9) -/

namespace Sys2Proof.Machine

/-! ### The image at BOOT_BASE (14 R318, 17 R377) -/

section
variable (s : State)

/-- A read at the port leaves of the deputy all but IPEND. -/
theorem portRead_dep (src : BitVec 3) (sec : Bool) (ty : MemType) (pa n : Nat) :
    ∃ p, (s.portRead src sec ty pa n).dep = { s.dep with ipend := p } := by
  have hr : ∃ p, (s.storeRead pa).dep = { s.dep with ipend := p } := by
    unfold State.storeRead
    dsimp only
    split
    · exact ⟨s.dep.ipend, rfl⟩
    · obtain ⟨p, e⟩ := countShadows_eq (State.drawn { s with win := { s.win with
        d2dreads := s.win.d2dreads.set (storeChannel pa) (s.win.d2dreads[storeChannel pa] + 1) } }) (storeChannel pa)
        [(Config.shadowFail (2 * s.free), Config.shadowFail (2 * s.free + 1))]
      exact ⟨p, congrArg State.dep e⟩
  have h0 : ∃ p, s.dep = { s.dep with ipend := p } := ⟨s.dep.ipend, rfl⟩
  unfold State.portRead
  dsimp only
  split
  · split
    · exact h0
    · exact hr
  · cases ty with
    | uncached | device => exact h0
    | cached | scratch =>
      dsimp only
      split
      · exact h0
      · split
        · exact hr
        · exact h0

/-- What the engine's read request for ROM changes: the request at the port, the counts of tile-store reads, a draw, and IPEND. -/
theorem ceOffer_eq (pa n : Nat) : ∃ q w p f, s.ceOffer pa n =
    { s with mem := { s.mem with mrq := q }, win := w, dep := { s.dep with ipend := p }, free := f } := by
  unfold State.ceOffer
  split
  · exact ⟨s.mem.mrq, s.win, s.dep.ipend, s.free, rfl⟩
  · obtain ⟨q, w, d, f, e⟩ := portRead_fetched s 5 true .cached (pa + n - 1) 1
    obtain ⟨p, hp⟩ := portRead_dep s 5 true .cached (pa + n - 1) 1
    rw [e] at hp ⊢
    exact ⟨q, w, p, f, by rw [← hp]⟩

/-- The image lies in memory: neither the deputy's state nor the port's request changes it. -/
theorem bootImage_frame (q : Option PortReq) (w : Window) (d : Deputy) (f : Nat) :
    ({ s with mem := { s.mem with mrq := q }, win := w, dep := d, free := f } : State).bootImage = s.bootImage := rfl

/-! ### ROM (14 R318 to R321) -/

/-- A failed boot ends at status 6, with the CAN controller at rate code 0 where there is a field-network node. -/
theorem bootFail_eq (status : Nat) : ∃ f d c, s.bootFail status = { s with
    dep := { s.dep with bootStatus := 6 }, free := f, dict := d, can := c } ∧ c.en = decide (s.straps.mgmtNode ≠ 0) ∧ c.drate = 0 := by
  obtain ⟨f, d, c, e, -, -⟩ := notifyEntry_notified { s with dep := { s.dep with bootStatus := BitVec.ofNat 4 status } } 0x1000 7
  have e : s.bootStop status = _ := e
  unfold State.bootFail
  dsimp only
  rw [e]
  exact notifyEntry_notified { s with dep := { s.dep with bootStatus := 6 }, free := f, dict := d,
                                      can := { c with en := decide (s.straps.mgmtNode ≠ 0), drate := 0 } } 0x1000 7

/-- A boot that stops with two bad blocks has status 5, and the deputy is halted. -/
theorem romBoot_halts {l : List (BitVec 4)} (h : 2 ≤ l.length) :
    (s.romBoot l).dep.bootStatus = 5 ∧ (s.romBoot l).dep.halted = true := by
  match l, h with
  | _ :: _ :: _, _ =>
    have hd : ∀ u : State, u.notifyBoot.dep = u.dep := fun u => (notifyEntry_notified u 0x1000 7).dep
    unfold State.romBoot State.bootStop
    dsimp only
    rw [hd]
    exact ⟨rfl, rfl⟩

end

section
variable {s u : State}

/-- Without a formed image ROM waits for a recovery image. -/
theorem romImage_unformed (h : imageFormed s.bootImage = false) : ∃ q w p f d c, s.romImage = { s with
    mem := { s.mem with mrq := q }, win := w, free := f, dict := d, can := c
    dep := { s.dep with ipend := p, prog := [], progBad := [], bootStatus := 6 } }
      ∧ c.en = decide (s.straps.mgmtNode ≠ 0) ∧ c.drate = 0 := by
  obtain ⟨q, w, p, f, e⟩ := ceOffer_eq s (s.straps.bootBase.toNat * 2 ^ 14) 0x100
  have hi : imageFormed (s.ceOffer (s.straps.bootBase.toNat * 2 ^ 14) 0x100).bootImage = false := by
    rw [e, bootImage_frame]
    exact h
  unfold State.romImage
  dsimp only
  rw [hi]
  rw [e]
  obtain ⟨f, d, c, e, hc, hr⟩ := bootFail_eq { s with
    mem := { s.mem with mrq := q }, win := w, free := f, dep := { s.dep with ipend := p, prog := [], progBad := [] } } 2
  exact ⟨q, w, p, f, d, c, (if_pos rfl).trans e, hc, hr⟩

/-- With one it waits for the fuses. -/
theorem romImage_waits (h : imageFormed s.bootImage = true) (hf : s.straps.fuseRdy = false) :
    s.romImage = s.ceOffer (s.straps.bootBase.toNat * 2 ^ 14) 0x100 := by
  obtain ⟨q, w, p, f, e⟩ := ceOffer_eq s (s.straps.bootBase.toNat * 2 ^ 14) 0x100
  have hi : imageFormed (s.ceOffer (s.straps.bootBase.toNat * 2 ^ 14) 0x100).bootImage = true := by
    rw [e, bootImage_frame]
    exact h
  have hn : (s.ceOffer (s.straps.bootBase.toNat * 2 ^ 14) 0x100).straps.fuseRdy = false := by
    rw [e]
    exact hf
  unfold State.romImage
  dsimp only
  rw [hi, hn]
  rfl

/-! ### The blocks that fail ROM's test (14 R318) -/

/-- The blocks of a mask. -/
def badBlocks (bad : BitVec 16) : List Nat := (List.range 16).filter fun b => bad.getLsbD b

theorem badBlocks_zero : badBlocks 0 = [] := by decide

theorem badBlocks_one {bad : BitVec 16} {b : Fin 16} (h : ∀ k : Fin 16, bad.getLsbD k.val = decide (k = b)) : badBlocks bad = [b.val] := by
  have hf : badBlocks bad = (List.range 16).filter fun k => k == b.val := by
    refine List.filter_congr fun k hk => ?_
    rw [h ⟨k, List.mem_range.1 hk⟩, Bool.beq_eq_decide_eq]
    exact decide_eq_decide.2 Fin.ext_iff
  have : ∀ b : Fin 16, ((List.range 16).filter fun k => k == b.val) = [b.val] := by decide
  rw [hf, this]

theorem badBlocks_two {bad : BitVec 16} {i j : Fin 16} (hn : i ≠ j) (hi : bad.getLsbD i.val = true) (hj : bad.getLsbD j.val = true) :
    2 ≤ (badBlocks bad).length := by
  have hm : ∀ k : Fin 16, bad.getLsbD k.val = true → k.val ∈ badBlocks bad := fun k hk =>
    List.mem_filter.2 ⟨List.mem_range.2 k.isLt, hk⟩
  have hi := hm i hi
  have hj := hm j hj
  match hb : badBlocks bad with
  | [] => exact absurd (hb ▸ hi) List.not_mem_nil
  | [x] =>
    rw [hb, List.mem_singleton] at hi hj
    exact absurd (Fin.ext (hi.trans hj.symm)) hn
  | _ :: _ :: l => exact Nat.le_add_left 2 l.length

/-- The deputy with program SRAM cleared for an image, the first bad block spared. -/
def Deputy.cleared (d : Deputy) (bad : BitVec 16) : Deputy :=
  let e : Deputy := { d with prog := [], progBad := [] }
  if bad = 0 then e
  else { e with spen := true, spblk := BitVec.ofNat 4 (((List.range 16).find? (fun b => bad.getLsbD b)).getD 0) }

/-- With at most one bad block ROM goes on to the image. -/
theorem romBoot_spared {bad : BitVec 16} (h : bad = 0 ∨ ∃ b : Fin 16, ∀ k : Fin 16, bad.getLsbD k.val = decide (k = b)) :
    s.romBoot ((badBlocks bad).map (BitVec.ofNat 4)) = State.romImage { s with dep := s.dep.cleared bad } := by
  rcases h with rfl | ⟨b, hb⟩
  · rfl
  · have h1 := badBlocks_one hb
    have hz : bad ≠ 0 := by
      rintro rfl
      exact absurd h1 (by rw [badBlocks_zero]; nofun)
    have hf : (List.range 16).find? (fun b => bad.getLsbD b) = some b.val := by
      rw [← List.head?_filter]
      exact congrArg List.head? h1
    rw [h1, Deputy.cleared, if_neg hz, hf]
    rfl

theorem cleared_bootStatus (d : Deputy) (bad : BitVec 16) : (d.cleared bad).bootStatus = d.bootStatus := by
  unfold Deputy.cleared
  dsimp only
  split <;> rfl

section
variable {pages : List (BitVec 33)} {members : List (BitVec 24)} {bad : BitVec 16}

theorem powerOnBoot_eq (s : State) (pages : List (BitVec 33)) (members : List (BitVec 24)) (bad : BitVec 16) :
    exec (.powerOnBoot pages members bad) s = answer s
      (let t : State := if s.dep.bootStatus = 0 then s.romBoot ((badBlocks bad).map (BitVec.ofNat 4)) else s
       if t.firmware && t.pwr.firstRelease && decide (t.pwr.core = .off) then t.bootFirmware pages members else t) := rfl

/-- While the boot ends without firmware, POWER_ON_BOOT is ROM's part alone. -/
theorem powerOnBoot_rom (h : s.dep.bootStatus = 0) (hu : s.romBoot ((badBlocks bad).map (BitVec.ofNat 4)) = u) (hf : u.dep.bootStatus ≠ 1) :
    Yields (.powerOnBoot pages members bad) s u := by
  have hn : u.firmware = false := by
    rw [State.firmware, decide_eq_false hf]
    rfl
  rw [Yields, powerOnBoot_eq, if_pos h, hu]
  exact congrArg (answer s) (if_neg (by rw [hn]; exact Bool.false_ne_true))

/-- A boot that has ended without firmware stays. -/
theorem powerOnBoot_ended (hb : s.dep.bootStatus ≠ 0) (hf : s.firmware = false) : Yields (.powerOnBoot pages members bad) s s := by
  rw [Yields, powerOnBoot_eq, if_neg hb]
  exact congrArg (answer s) (if_neg (by rw [hf]; exact Bool.false_ne_true))

/-- Firmware goes on with the first boot while PD_CORE has not been powered. -/
theorem powerOnBoot_firmware (hf : s.firmware = true) (hr : s.pwr.firstRelease = true) (hc : s.pwr.core = .off) :
    Yields (.powerOnBoot pages members bad) s (s.bootFirmware pages members) := by
  have hb : s.dep.bootStatus ≠ 0 := fun hz => absurd hf (by rw [State.firmware, hz]; simp)
  rw [Yields, powerOnBoot_eq, if_neg hb]
  exact congrArg (answer s) (if_pos (by rw [hf, hr, hc]; rfl))

end

theorem fuseRdy_yields (s : State) : Yields .fuseRdy s { s with straps := { s.straps with fuseRdy := true } } := rfl

theorem releaseCore_hl (s : State) : s.releaseCore.hl = s.hl := by
  unfold State.releaseCore
  dsimp only
  split
  · rfl
  · split <;> rfl

/-- Firmware works with the free pages and members that it is given. -/
theorem bootFirmware_hl (s : State) (pages : List (BitVec 33)) (members : List (BitVec 24)) :
    (s.bootFirmware pages members).hl.free = pages ∧ (s.bootFirmware pages members).hl.members = members :=
  ⟨congrArg Haulage.free (releaseCore_hl _), congrArg Haulage.members (releaseCore_hl _)⟩

/-! ### PD_AON reset (17 R391) -/

theorem outside_backByte_normal (m : Mem) {a : Nat} (h : inScratch a = false) : m.outside.backByte a = m.backByte a :=
  have hp : (!inScratch a) = true := by rw [h]; rfl
  smGet_filter_of_keep 0#8 (fun a => !inScratch a) hp m.cells

theorem outside_backByte_scratch (m : Mem) {a : Nat} (h : inScratch a = true) : m.outside.backByte a = 0 :=
  have hp : (!inScratch a) = false := by rw [h]; rfl
  smGet_filter_of_not 0#8 (fun a => !inScratch a) hp m.cells

theorem aonReset_backByte (s : State) (a : Nat) : s.aonReset.mem.backByte a = s.mem.outside.backByte a :=
  have h : s.aonReset.mem.cells = s.mem.outside.cells := rfl
  congrArg (smGet 0#8 a) h

/-- PD_AON reset leaves what lies outside the block, and takes the block's own state back to reset. -/
theorem aonReset_keeps (s : State) : ∃ t, exec .aonReset s = .next t ∧ t.straps = s.straps ∧ t.build = s.build ∧ t.pending = s.pending
    ∧ t.dep.bootStatus = 0 ∧ t.dep.rom = s.dep.rom ∧ t.pwr.core = .off ∧ t.core.mode = .held ∧ t.mem.cache = [] ∧ t.dict = State.reset.dict
    ∧ t.sy = State.reset.sy ∧ (∀ a, inScratch a = false → t.mem.backByte a = s.mem.backByte a)
    ∧ (∀ a, inScratch a = true → t.mem.backByte a = 0) :=
  ⟨hardwire s s.aonReset, rfl, rfl, rfl, rfl, rfl, rfl, rfl, rfl, rfl, rfl, rfl,
    fun a ha => (aonReset_backByte s a).trans (outside_backByte_normal s.mem ha),
    fun a ha => (aonReset_backByte s a).trans (outside_backByte_scratch s.mem ha)⟩

/-! ### CORE reset (17 R391) -/

/-- What the power sequencer leaves of a core held in reset. -/
structure CoreKept (s t : State) : Prop where
  wz : t.wz = s.wz
  xl : t.xl = s.xl
  ready : t.bm.ready = s.bm.ready
  banks : t.core.banks = s.core.banks
  mode : s.core.mode = .held → t.core.mode = .held
  reset : t.pwr.coreReset = s.pwr.coreReset

theorem CoreKept.refl (s : State) : CoreKept s s := ⟨rfl, rfl, rfl, rfl, id, rfl⟩

theorem CoreKept.trans {s t u : State} (h : CoreKept s t) (k : CoreKept t u) : CoreKept s u :=
  ⟨k.wz.trans h.wz, k.xl.trans h.xl, k.ready.trans h.ready, k.banks.trans h.banks, k.mode ∘ h.mode, k.reset.trans h.reset⟩

theorem seqTile_kept (s : State) : CoreKept s s.seqTile := by
  unfold State.seqTile
  dsimp only
  split
  · split
    · exact ⟨rfl, rfl, rfl, rfl, id, rfl⟩
    · exact .refl s
  · split
    · exact ⟨rfl, rfl, rfl, rfl, id, rfl⟩
    · exact .refl s
  · exact .refl s

theorem seqStore_kept (s : State) : CoreKept s s.seqStore := by
  unfold State.seqStore
  dsimp only
  split
  · split
    · exact ⟨rfl, rfl, rfl, rfl, id, rfl⟩
    · exact .refl s
  · split
    · exact .refl s
    · split <;> exact ⟨rfl, rfl, rfl, rfl, id, rfl⟩
  · split
    · exact .refl s
    · exact ⟨rfl, rfl, rfl, rfl, id, rfl⟩
  · exact .refl s

/-- The off sequence itself holds the core. -/
theorem seqCore_kept (s : State) : CoreKept s s.seqCore := by
  unfold State.seqCore
  dsimp only
  split
  · split
    · exact ⟨rfl, rfl, rfl, rfl, id, rfl⟩
    · exact .refl s
  · split
    · exact ⟨rfl, rfl, rfl, rfl, fun _ => rfl, rfl⟩
    · exact .refl s
  · exact .refl s

theorem sequence_kept (s : State) : CoreKept s s.sequence :=
  ((seqTile_kept s).trans (seqStore_kept _)).trans (seqCore_kept _)

theorem beginTail_kept (s : State) : CoreKept s s.beginTail := by
  unfold State.beginTail
  split
  · exact ⟨rfl, rfl, rfl, rfl, id, rfl⟩
  · exact .refl s

/-- After the reset firmware's tail and the sequencer leave the core as the reset left it. -/
theorem corerstAssert_on (h : s.pwr.core = .on) : ∃ t, Yields .corerstAssert s t ∧ CoreKept s.assertCore t :=
  ⟨_, congrArg (answer s) (if_pos h), (beginTail_kept s.assertCore).trans (sequence_kept _)⟩

theorem assertCore_on (h : s.pwr.core = .on) : s.assertCore = { s.resetCore with
    pwr := { s.resetCore.pwr with coreReset := true, latching := true, wakeLatch := 0 } } := if_neg (not_not.2 h)

/-! ### The release (17 Table 17.12, 05 Table 5.9) -/

/-- Outside the restart tail a release is the register's own. -/
theorem corerstRelease_eq (h : s.pwr.tail = false) : Yields .corerstRelease s s.releaseCore := by
  refine congrArg (answer s) ?_
  rw [State.releaseTail, h]
  rfl

theorem releaseCore_ignored (h : s.pwr.core ≠ .on ∨ s.pwr.coreReset = false ∨ s.pwr.coreRetired = true) : s.releaseCore = s := if_pos h

theorem releaseCore_eq (h1 : s.pwr.core = .on) (h2 : s.pwr.coreReset = true) (h3 : s.pwr.coreRetired = false) : s.releaseCore =
    if s.core.heldFrozen then { s.startCore with core := { s.startCore.core with mode := .frozen, heldFrozen := false } } else s.startCore :=
  if_neg (by rw [h1, h2, h3]; simp)

theorem startCore_bankOf (s : State) : s.startCore.bankOf 0 = (s.bankOf 0).atReset s.pwr :=
  State.bankOf_setBankOf_self s 0 _

/-- The events that the wake latch held are pending once the core starts. -/
theorem startCore_wakes {k : Nat} (h : s.pwr.wakeLatch.getLsbD k = true) : s.startCore.bm.evpend.getLsbD k = true := by
  show ((s.bm.evpend &&& 0xFFFFFFFF00000000) ||| s.pwr.wakeLatch ||| s.pwr.irq.setWidth 64).getLsbD k = true
  rw [BitVec.getLsbD_or, BitVec.getLsbD_or, h, Bool.or_true, Bool.true_or]

end

/-- Settles O56: ROM by the blocks that fail and the image, PD_AON reset by what it keeps, CORE reset through `CoreKept` and the release. -/
theorem bootAndResets : Obligations.BootAndResets := by
  refine ⟨?_, ?_⟩
  · intro s bad pages members spared clear one
    have hclear : clear = { s with dep := s.dep.cleared bad } := by
      simp only [clear, spared, Deputy.cleared]
      split <;> rfl
    refine ⟨fun hb ho hi => ?_, fun hb ho hi hf => ?_, fun i j hb hn hi hj => ?_, fun hb hf => powerOnBoot_ended hb hf,
      fun hf hr hc => ⟨powerOnBoot_firmware hf hr hc, bootFirmware_hl ..⟩, fuseRdy_yields s, aonReset_keeps s⟩
    · obtain ⟨q, w, p, f, d, c, e, hen, hrate⟩ := romImage_unformed (s := { s with dep := s.dep.cleared bad }) hi
      have hy := powerOnBoot_rom (pages := pages) (members := members) hb ((romBoot_spared ho).trans e) (show (6 : BitVec 4) ≠ 1 by decide)
      rw [hclear]
      exact ⟨_, hy, rfl, hen, hrate, rfl, rfl, rfl, rfl⟩
    · have e := romImage_waits (s := { s with dep := s.dep.cleared bad }) hi hf
      rw [hclear]
      refine powerOnBoot_rom hb ((romBoot_spared ho).trans e) ?_
      obtain ⟨q, w, p, f, e⟩ := ceOffer_eq { s with dep := s.dep.cleared bad } (s.straps.bootBase.toNat * 2 ^ 14) 0x100
      rw [e]
      show (s.dep.cleared bad).bootStatus ≠ 1
      rw [cleared_bootStatus, hb]
      decide
    · obtain ⟨h5, hh⟩ := romBoot_halts s (l := (badBlocks bad).map (BitVec.ofNat 4)) (by rw [List.length_map]; exact badBlocks_two hn hi hj)
      exact ⟨_, powerOnBoot_rom hb rfl (by rw [h5]; decide), h5, hh⟩
  · intro s
    refine ⟨fun h => congrArg (answer s) (if_neg h), fun h => ?_, fun ht h => ?_, fun ht h1 h2 h3 h4 => ?_, fun ht h1 h2 h3 h4 => ?_⟩
    · obtain ⟨t, hy, hk⟩ := corerstAssert_on h
      rw [assertCore_on h] at hk
      exact ⟨_, hy, hk.reset, hk.mode rfl, hk.banks, hk.ready, congrArg Xlat.tlb hk.xl, hk.wz⟩
    · have := corerstRelease_eq ht
      rwa [releaseCore_ignored h] at this
    · have hy := corerstRelease_eq ht
      rw [releaseCore_eq h1 h2 h3, if_pos h4] at hy
      exact ⟨_, hy, rfl, rfl, rfl⟩
    · have hy := corerstRelease_eq ht
      rw [releaseCore_eq h1 h2 h3, if_neg (ne_true_of_eq_false h4)] at hy
      refine ⟨_, hy, rfl, rfl, ?_, ?_, ?_, ?_, rfl, fun k _ hk hw => ?_⟩
      · rw [hardwire_bankOf, startCore_bankOf]
        rfl
      · rw [hardwire_bankOf, startCore_bankOf]
        rfl
      · rw [hardwire_bankOf, startCore_bankOf]
        rfl
      · rw [hardwire_bankOf, startCore_bankOf]
        rfl
      · exact (hardwire_evpend _ _ hk).trans (startCore_wakes hw)

end Sys2Proof.Machine
end

section
/-! SUPPORT. What firmware writes through the copy engine, and what a detected parity error records (14 Table 14.9, 16 R351). -/

namespace Sys2Proof.Machine

/-! ### One write of the engine -/

theorem dirty_granule {m : Mem} {g : Nat} {l : CacheLine} (h : m.dirty g = some l) : l.granule = g := by
  unfold Mem.dirty at h
  split at h
  · next hc =>
    rw [Option.some.inj h] at hc
    exact (lineFind_eq_some hc :)
  · exact lineFind_eq_some h

/-- A granule written back changes no byte of another. -/
theorem backByte_writeBack_ne {m : Mem} (h : Memory.wf m = true) {g a : Nat} (ha : a / 64 ≠ g) : (m.writeBack g).backByte a = m.backByte a := by
  unfold Mem.writeBack
  split
  · rfl
  · next l hl => exact (backByte_setBackLine h l a).trans (if_neg (dirty_granule hl ▸ ha))

section
variable {s : State}

/-- Where the engine writes, the bytes behind the caches are what its write of the granule leaves. -/
theorem ceWrite_backByte_eq {pa : Nat} (hu : s.unbacked pa = false) (sec : Bool) (n v a : Nat) : (s.ceWrite sec pa n v false).mem.backByte a
    = (((s.mem.writeBack (pa / 64)).dropLine (pa / 64)).setBackNat pa v n).backByte a := by
  unfold State.ceWrite
  rw [if_neg (ne_true_of_eq_false hu)]
  dsimp only
  simp only [Bool.false_eq_true, if_false]
  split <;> split <;> rfl

variable (hw : Memory.wf s.mem = true)
include hw

theorem wf_ceWrite (sec : Bool) (pa n v : Nat) : Memory.wf (s.ceWrite sec pa n v false).mem = true := by
  have hm := Memory.wf_setBackNat pa v n (Memory.wf_dropLine (pa / 64) (Memory.wf_writeBack (pa / 64) hw))
  have hp : Memory.wf (if n = 64 then ((((s.mem.writeBack (pa / 64)).dropLine (pa / 64)).setBackNat pa v n).setBackPoison (pa / 64) false)
      else ((s.mem.writeBack (pa / 64)).dropLine (pa / 64)).setBackNat pa v n) = true := by
    split
    · exact Memory.wf_setBackPoison _ _ hm
    · exact hm
  unfold State.ceWrite
  split
  · exact hw
  · dsimp only
    simp only [Bool.false_eq_true, if_false]
    split
    · exact hp
    · exact hp

theorem ceWrite_backByte (sec : Bool) {pa n i : Nat} (v : Nat) (hs : inScratch pa = false) (hi : i < n) :
    (s.ceWrite sec pa n v false).mem.backByte (pa + i) = BitVec.ofNat 8 (v / 256 ^ i) := by
  rw [ceWrite_backByte_eq (unbacked_of_not_inScratch s hs)]
  exact backByte_setBackNat (Memory.wf_dropLine _ (Memory.wf_writeBack _ hw)) pa v hi

/-- A write within one granule changes no byte of another. -/
theorem ceWrite_backByte_ne (sec : Bool) {pa n a : Nat} (v : Nat) (hn : pa % 64 + n ≤ 64) (ha : a / 64 ≠ pa / 64) :
    (s.ceWrite sec pa n v false).mem.backByte a = s.mem.backByte a := by
  cases hu : s.unbacked pa with
  | true => rw [State.ceWrite, if_pos hu]; rfl
  | false =>
    rw [ceWrite_backByte_eq hu, backByte_setBackNat_ne _ (by omega)]
    exact backByte_writeBack_ne hw ha

end

/-! ### A range written in pieces -/

/-- A byte of the number that a list of bytes makes up. -/
theorem natOf_getD (l : List Byte) (i : Nat) : BitVec.ofNat 8 (natOf l / 256 ^ i) = (l[i]?).getD 0 := by
  induction l generalizing i with
  | nil => simp [natOf]
  | cons b t ih =>
    have hb := b.isLt
    cases i with
    | zero =>
      refine BitVec.eq_of_toNat_eq ?_
      simp only [natOf, BitVec.toNat_ofNat, List.getElem?_cons_zero, Option.getD_some]
      omega
    | succ i =>
      rw [natOf, Nat.pow_succ', ← Nat.div_div_eq_div_mul, show ∀ x, (b.toNat + 256 * x) / 256 = x by omega, ih]
      rfl

/-- The engine's next piece of a range, and where the one after it goes. -/
def State.cePiece (x : State × Nat) (p : List Byte) : State × Nat := (x.1.ceWrite true x.2 p.length (natOf p) false, x.2 + 64)

theorem cePieces_mapOnly (l : List (List Byte)) (s : State) (pa : Nat) : MapOnly s (l.foldl State.cePiece (s, pa)).1 :=
  List.foldlRecOn (motive := fun x : State × Nat => MapOnly s x.1) _ _ (.refl s) fun _ h _ _ => h.trans (ceWrite_mapOnly ..)

/-- From an address of a whole granule the pieces write their bytes, and none below. -/
theorem cePieces_bytes {n : Nat} {l : List Byte} {s : State} {pa : Nat} (hw : Memory.wf s.mem = true) (hpa : pa % 64 = 0)
    (hn : l.length ≤ 64 * n) (hs : pa + l.length ≤ scratchBase) :
    let t := ((granulePieces n l).foldl State.cePiece (s, pa)).1
    (∀ a < pa, t.mem.backByte a = s.mem.backByte a) ∧ ∀ k < l.length, t.mem.backByte (pa + k) = (l[k]?).getD 0 := by
  induction n generalizing l s pa with
  | zero => exact ⟨fun _ _ => rfl, fun k hk => by omega⟩
  | succ n ih =>
    have hin : 0 < l.length → inScratch pa = false := fun h => by
      rw [inScratch, decide_eq_false (by omega), Bool.false_and]
    unfold granulePieces
    split
    · next hl =>
      refine ⟨fun a ha => ceWrite_backByte_ne hw true _ (by omega) (by omega), fun k hk => ?_⟩
      rw [← natOf_getD]
      exact ceWrite_backByte hw true _ (hin (by omega)) hk
    · next hl =>
      have ht : (l.take 64).length = 64 := by rw [List.length_take]; omega
      have hd : (l.drop 64).length = l.length - 64 := List.length_drop
      obtain ⟨hlow, hrest⟩ := ih (l := l.drop 64) (s := s.ceWrite true pa (l.take 64).length (natOf (l.take 64)) false) (pa := pa + 64)
        (wf_ceWrite hw ..) (by omega) (by omega) (by omega)
      refine ⟨fun a ha => (hlow a (by omega)).trans (ceWrite_backByte_ne hw true _ (by omega) (by omega)), fun k hk => ?_⟩
      by_cases h64 : k < 64
      · refine (hlow _ (by omega)).trans ((ceWrite_backByte hw true _ (hin (by omega)) (by omega)).trans ?_)
        rw [natOf_getD, List.getElem?_take_of_lt h64]
      · have := hrest (k - 64) (by omega)
        rwa [List.getElem?_drop, show pa + 64 + (k - 64) = pa + k by omega, show 64 + (k - 64) = k by omega] at this

theorem ceStore_eq (s : State) (pa : Nat) (l : List Byte) :
    s.ceStore pa l = if s.ceReaches pa l.length then ((granulePieces (l.length / 64 + 1) l).foldl State.cePiece (s, pa)).1 else s := rfl

theorem ceStore_refused {s : State} {pa : Nat} {l : List Byte} (h : s.ceReaches pa l.length = false) : s.ceStore pa l = s :=
  if_neg (ne_true_of_eq_false h)

theorem ceStore_mapOnly (s : State) (pa : Nat) (l : List Byte) : MapOnly s (s.ceStore pa l) := by
  rw [ceStore_eq]
  split
  · exact cePieces_mapOnly ..
  · exact .refl s

theorem ceStore_bytes {s : State} {pa : Nat} {l : List Byte} (hw : Memory.wf s.mem = true) (hr : s.ceReaches pa l.length = true)
    (hpa : pa % 64 = 0) (hs : pa + l.length ≤ scratchBase) {k : Nat} (hk : k < l.length) :
    (s.ceStore pa l).mem.backByte (pa + k) = (l[k]?).getD 0 := by
  rw [ceStore_eq, if_pos hr]
  exact (cePieces_bytes hw hpa (by omega) hs).2 k hk

/-! ### What a detected parity error records (16 R351) -/

/-- `t` is `s` after records of resilience: at most draws, the tally and its captures, events, power's latch and the deputy differ. -/
def Recorded (s t : State) : Prop := ∃ f r b p d, t = { s with free := f, res := r, bm := b, pwr := p, dep := d }

theorem Recorded.refl (s : State) : Recorded s s := ⟨_, _, _, _, _, rfl⟩

theorem Recorded.trans {s t u : State} (h : Recorded s t) (k : Recorded t u) : Recorded s u := by
  obtain ⟨_, _, _, _, _, rfl⟩ := h
  obtain ⟨_, _, _, _, _, rfl⟩ := k
  exact ⟨_, _, _, _, _, rfl⟩

theorem Recorded.mem {s t : State} (h : Recorded s t) : t.mem = s.mem := by
  obtain ⟨_, _, _, _, _, rfl⟩ := h
  rfl

theorem Recorded.fab {s t : State} (h : Recorded s t) : t.fab = s.fab := by
  obtain ⟨_, _, _, _, _, rfl⟩ := h
  rfl

section
variable (s : State)

theorem logEvent_recorded (kind cls unit addr info : Nat) : Recorded s (s.logEvent kind cls unit addr info) := ⟨_, _, _, _, _, rfl⟩

theorem setEvent_recorded (n : Nat) : Recorded s (s.setEvent n) := by
  obtain ⟨_, _, e⟩ := setEvent_eq s n
  exact ⟨_, _, _, _, _, e⟩

/-- The interval since a class's last error enters its histogram. -/
def State.intervalCounted (s : State) (c : Fin 14) : State :=
  match s.res.parLast[c] with
  | some t => s.histAdd (0x10 + c.val) (s.mgmtcyc - t).toNat
  | none => s

/-- A class's error at a time counts toward its threshold, which sets TALSTAT and EV45 and is logged by firmware. -/
def State.thresholdCounted (s : State) (c : Fin 14) (now : Word) : State :=
  let r := { s.res with parLast := s.res.parLast.set c (some now) }
  let p := satInc r.thrPending[c]
  let thr := r.thr[c]
  if thr ≠ 0 ∧ thr ≤ p then
    let t : State := ({ s with res := { r with thrPending := r.thrPending.set c 0, talstat := r.talstat ||| (1#14 <<< c.val) } }).setEvent 45
    if s.dep.bootStatus = 1 ∧ s.dep.halted = false then t.logEvent 9 c.val 0 0 0 else t
  else { s with res := { r with thrPending := r.thrPending.set c p } }

theorem countParity_eq (c : Fin 14) : s.countParity c =
    ((s.passTime.tallyInc (0x10 + c.val)).intervalCounted c).thresholdCounted c (s.passTime.tallyInc (0x10 + c.val)).mgmtcyc := rfl

theorem intervalCounted_recorded (c : Fin 14) : Recorded s (s.intervalCounted c) := by
  unfold State.intervalCounted
  split
  · exact ⟨_, _, _, _, _, rfl⟩
  · exact .refl s

theorem thresholdCounted_recorded (c : Fin 14) (now : Word) : Recorded s (s.thresholdCounted c now) := by
  unfold State.thresholdCounted
  dsimp only
  split
  · have he (t : State) (ht : Recorded s t) : Recorded s (t.setEvent 45) := ht.trans (setEvent_recorded t 45)
    split
    · exact (he _ ⟨_, _, _, _, _, rfl⟩).trans (logEvent_recorded ..)
    · exact he _ ⟨_, _, _, _, _, rfl⟩
  · exact ⟨_, _, _, _, _, rfl⟩

theorem countParity_recorded (c : Fin 14) : Recorded s (s.countParity c) := by
  have ht : Recorded s (s.passTime.tallyInc (0x10 + c.val)) := ⟨_, _, _, _, _, rfl⟩
  rw [countParity_eq]
  exact (ht.trans (intervalCounted_recorded _ c)).trans (thresholdCounted_recorded ..)

theorem parityDetected_recorded (c : Fin 14) (kind unit addr : Nat) : Recorded s (s.parityDetected c kind unit addr) :=
  .trans ⟨_, _, _, _, _, rfl⟩ (countParity_recorded ((((s.captureParity c kind unit addr).logEvent 1 c.val unit addr 0)).raiseVector 11) c)

end

end Sys2Proof.Machine
end

section
/-! ## What firmware persists and samples, and the memory port's responses (15 R331, 16 R365, 17 R374, R379 to R382) -/

namespace Sys2Proof.Machine

/-! ### The store, the tally and the telemetry sample -/

section
variable {s : State}

theorem dictionaryStoreWrite_idle (h : s.firmware = false) : Yields .dictionaryStoreWrite s s :=
  congrArg (answer s) (if_neg (ne_true_of_eq_false h))

theorem dictionaryStoreWrite_writes (h : s.firmware = true) : Yields .dictionaryStoreWrite s (s.writeStore none) :=
  congrArg (answer s) (if_pos h)

theorem writeStore_mapOnly (s : State) (tally : Option (List StoreRec)) : MapOnly s (s.writeStore tally) := ceStore_mapOnly ..

theorem tallyPersist_idle (h : s.firmware = false) : Yields .tallyPersist s s := congrArg (answer s) (if_pos (by rw [h]; rfl))

theorem writeTally_none (h : s.hasTallyArea = false) : s.writeTally = s := if_pos (by rw [h]; rfl)

theorem victimCopy_le {α : Type} (a b : Option (Nat × α)) : victimCopy a b ≤ 1 := by
  unfold victimCopy
  split
  · exact Nat.zero_le 1
  · exact Nat.le_refl 1
  · split <;> omega

/-- The place of the copy that a period overwrites. -/
def State.tallyPlace (s : State) : Nat := s.dumpBase + 0x8000 * victimCopy (s.tallyCopy 0) (s.tallyCopy 1)

/-- The image that a period writes: its GEN follows that of the copy that stays. -/
def State.nextImage (s : State) : List Byte := s.tallyImage (genOf (s.tallyCopy (1 - victimCopy (s.tallyCopy 0) (s.tallyCopy 1))) + 1)

theorem writeTally_area (h : s.hasTallyArea = true) : s.writeTally = s.ceStore s.tallyPlace s.nextImage := by
  refine (if_neg (by rw [h]; decide)).trans ?_
  unfold State.tallyPlace State.nextImage
  dsimp only
  rcases Nat.le_one_iff_eq_zero_or_eq_one.1 (victimCopy_le (s.tallyCopy 0) (s.tallyCopy 1)) with hv | hv <;> rw [hv] <;> rfl

theorem writeTally_mapOnly (s : State) : MapOnly s s.writeTally := by
  unfold State.writeTally
  split
  · exact .refl s
  · exact ceStore_mapOnly ..

/-- One more period counted. -/
def State.periodCounted (s : State) : State := { s with res := { s.res with persists := s.res.persists + 1 } }

/-- A period that is no 1,024th writes the tally's image and is counted. -/
theorem tallyPersist_period (hf : s.firmware = true) (hp : (s.res.persists + 1) % 1024 ≠ 0) :
    Yields .tallyPersist s s.passTime.writeTally.periodCounted := by
  have hc : s.passTime.writeTally.periodCounted.res.persists = s.res.persists + 1 := by
    obtain ⟨_, _, _, e⟩ := writeTally_mapOnly s.passTime
    rw [e]
    rfl
  rw [← hc] at hp
  exact congrArg (answer s) ((if_neg (by rw [hf]; decide)).trans (if_neg hp))

theorem telemetrySample_shown (s : State) (temp : BitVec 12) (vmon : BitVec 10) : ∃ t, exec (.telemetrySample temp vmon) s = .next t
    ∧ t.pwr.temp = temp ∧ t.pwr.vmon = vmon ∧ t.res.tally[0x58].toNat = max s.res.tally[0x58].toNat temp.toNat ∧ t.core = (hardwire s s).core := by
  refine ⟨_, rfl, rfl, rfl, (congrArg BitVec.toNat (Vector.getElem_set_self (by decide))).trans ?_, rfl⟩
  have ht : (wd temp.toNat).toNat = temp.toNat := Nat.mod_eq_of_lt (by omega)
  show (if s.res.tally[0x58].toNat < temp.toNat then wd temp.toNat else s.res.tally[0x58]).toNat = _
  split
  · next h => rw [ht, Nat.max_eq_right (Nat.le_of_lt h)]
  · next h => rw [Nat.max_eq_left (Nat.not_lt.1 h)]

end

/-! ### Reads answered (17 R381, R382) -/

/-- Behind the caches the bytes are what the agents see where no cache holds a line. -/
theorem readNat_uncached (m : Mem) (pa n : Nat) : ({ m with cache := [], tsc := [] } : Mem).readNat pa n = m.backNat pa n := by
  induction n generalizing pa with
  | zero => rfl
  | succ n ih => exact congrArg (fun x => (m.backByte pa).toNat + 256 * x) (ih (pa + 1))

theorem backNat_of_bytes {m : Mem} {pa n v : Nat} (h : ∀ i < n, m.backByte (pa + i) = BitVec.ofNat 8 (v / 256 ^ i)) :
    m.backNat pa n = v % 256 ^ n :=
  (readNat_uncached m pa n).symm.trans (readNat_of_bytes h)

theorem backNat_congr {m x : Mem} (h : x.cells = m.cells) (pa n : Nat) : x.backNat pa n = m.backNat pa n := by
  induction n generalizing pa with
  | zero => rfl
  | succ n ih => simp only [Mem.backNat, Mem.backByte, h, ih]

theorem setBackPoison_nsMem (m : Mem) (g : Nat) (p : Bool) : nsMem g (m.setBackPoison g p).poison = p := by
  cases p with
  | true => exact (nsMem_nsInsert g g _).trans (by rw [beq_self_eq_true, Bool.true_or])
  | false => exact (nsMem_nsErase g g _).trans (by rw [bne_self_eq_false, Bool.false_and])

/-- What memory holds of a granule that was put there: its data and their poison. -/
theorem hold_spec {m : Mem} (h : Memory.wf m = true) (g : Nat) (data : BitVec 512) (p : Bool) :
    (m.hold g data p).backNat (64 * g) 64 = data.toNat ∧ nsMem g (m.hold g data p).poison = p ∧ (m.hold g data p).cache = m.cache := by
  have hb : (m.setBackNat (64 * g) data.toNat 64).backNat (64 * g) 64 = data.toNat :=
    (backNat_of_bytes fun i hi => backByte_setBackNat h _ _ hi).trans (Nat.mod_eq_of_lt (toNat_lt_bytes (n := 64) rfl data))
  have hc := setBackNat_cache m (64 * g) data.toNat 64
  unfold Mem.hold
  generalize m.setBackNat (64 * g) data.toNat 64 = x at hb hc ⊢
  have he : (x.setBackPoison g p).cells = x.cells := rfl
  exact ⟨(backNat_congr he ..).trans hb, setBackPoison_nsMem .., hc⟩

section
variable {s : State} {g : BitVec 41}

/-- The first failure of a read issues it again. -/
theorem readFails_first (h : g ∉ s.fab.reissued) (ch : Nat) (parity : Bool) :
    Recorded { s with fab := { s.fab with reissued := s.fab.reissued ++ [g] } } (s.readFails ch g parity) := by
  unfold State.readFails
  rw [if_neg (by rwa [List.contains_iff_mem])]
  dsimp only
  split
  · exact parityDetected_recorded ..
  · exact .refl _

/-- The second delivers the granule poisoned. -/
theorem readFails_again (h : g ∈ s.fab.reissued) (ch : Nat) (parity : Bool) :
    Recorded { s with fab := { s.fab with reissued := s.fab.reissued.erase g }
                      mem := { s.mem with copyPoison := nsInsert g.toNat s.mem.copyPoison } } (s.readFails ch g parity) := by
  unfold State.readFails
  rw [if_pos (by rwa [List.contains_iff_mem])]
  exact parityDetected_recorded ..

theorem poisoned_nsInsert {m : Mem} {k : Nat} (h : m.dirty k = none) :
    ({ m with copyPoison := nsInsert k m.copyPoison } : Mem).poisoned k = true := by
  have hd : ({ m with copyPoison := nsInsert k m.copyPoison } : Mem).dirty k = none := h
  simp only [Mem.poisoned, hd, nsMem_nsInsert, beq_self_eq_true, Bool.true_or]

/-- Good data are what memory holds. -/
theorem readAnswer_good (hw : Memory.wf s.mem = true) (ch : Nat) (g : BitVec 41) (data : BitVec 512) (poison : Bool) :
    let t := s.readAnswer ch g data poison false false
    t.mem.backNat (64 * g.toNat) 64 = data.toNat ∧ nsMem g.toNat t.mem.poison = poison ∧ t.mem.cache = s.mem.cache
      ∧ t.fab.reissued = s.fab.reissued.erase g := by
  obtain ⟨hb, hp, hc⟩ := hold_spec hw g.toNat data poison
  unfold State.readAnswer granuleOf
  simp only [Bool.false_eq_true, if_false, Bool.or_self]
  generalize s.mem.hold g.toNat data poison = m at hb hp hc ⊢
  have he : ({ m with copyPoison := nsErase g.toNat m.copyPoison } : Mem).cells = m.cells := rfl
  exact ⟨(backNat_congr he ..).trans hb, hp, hc, trivial⟩

/-- A read answered with ERR is counted, and fails. -/
theorem readResponse_err (s : State) (ch : BitVec 4) (id : BitVec 8) (g : BitVec 41) (data : BitVec 512) (poison parity : Bool) :
    Yields (.readResponse ch id g data poison true parity) s
      (({ s with fab := { s.fab with rdErrs := s.fab.rdErrs + 1 } } : State).readFails ch.toNat g parity) := rfl

end

/-! ### Writes answered, and requests without a response (17 R381, R382) -/

/-- A failed write is counted, whatever it is reported as; memory is as the failure left it. -/
theorem writeFails_keeps (s : State) (src : Nat) (c : Fin 32) (g : BitVec 41) :
    (s.writeFails src c g).mem = s.mem ∧ (s.writeFails src c g).fab = { s.fab with wrErrs := s.fab.wrErrs + 1 } := by
  unfold State.writeFails
  dsimp only
  split
  · exact ⟨rfl, rfl⟩
  · split
    · split <;> exact ⟨rfl, rfl⟩
    · split
      · exact ⟨rfl, rfl⟩
      · exact ⟨rfl, rfl⟩

/-! ### The attributes of a request (17 Table 17.3) -/

/-- The fields of MRQ_ATTR and MW_ATTR. -/
theorem attr_fields {src : BitVec 3} {dev sec : Bool} {place : Nat} (h : place < 2 ^ 7) :
    let a := BitVec.ofNat 16 (src.toNat * 2 ^ 13 + bit dev * 2 ^ 9 + bit dev * 2 ^ 8 + bit sec * 2 ^ 7 + place)
    a.extractLsb' 13 3 = src ∧ a.extractLsb' 9 4 = (if dev then 1 else 0) ∧ a.getLsbD 8 = dev ∧ a.getLsbD 7 = sec ∧ a.toNat % 2 ^ 7 = place := by
  have hs := src.isLt
  have hd : bit dev ≤ 1 := by cases dev <;> decide
  have hc : bit sec ≤ 1 := by cases sec <;> decide
  have hb (b : Bool) (x : Nat) (h : x = bit b) : (x == 1) = b := by subst h; cases b <;> rfl
  intro a
  have ha : a.toNat = src.toNat * 2 ^ 13 + bit dev * 2 ^ 9 + bit dev * 2 ^ 8 + bit sec * 2 ^ 7 + place :=
    (BitVec.toNat_ofNat ..).trans (Nat.mod_eq_of_lt (by omega))
  clear_value a
  refine ⟨BitVec.eq_of_toNat_eq ?_, BitVec.eq_of_toNat_eq ?_, ?_, ?_, ?_⟩
  · rw [BitVec.extractLsb'_toNat, Nat.shiftRight_eq_div_pow, show a.toNat / 2 ^ 13 = src.toNat by omega]
    exact Nat.mod_eq_of_lt hs
  · have hv : (if dev then 1 else 0 : BitVec 4).toNat = bit dev := by cases dev <;> rfl
    rw [BitVec.extractLsb'_toNat, Nat.shiftRight_eq_div_pow, hv, show a.toNat / 2 ^ 9 = src.toNat * 2 ^ 4 + bit dev by omega]
    omega
  · rw [← bitOf_toNat, bitOf, ha]
    exact hb _ _ (by omega)
  · rw [← bitOf_toNat, bitOf, ha]
    exact hb _ _ (by omega)
  · rw [ha]
    omega

/-- A region's stack and tier, and the boot window's. -/
theorem portAttr_place (s : State) (q : PortReq) : let a := s.portAttr q
    a.extractLsb' 13 3 = q.src ∧ a.extractLsb' 9 4 = (if q.dev then 1 else 0) ∧ a.getLsbD 8 = q.dev ∧ a.getLsbD 7 = q.sec
      ∧ (∀ x, s.region q.pa = some x → a.extractLsb' 0 2 = x.tier ∧ (a.extractLsb' 2 5).toNat = if x.tier = 0 then x.stack q.pa else 0)
      ∧ (s.region q.pa = none → a.setWidth 7 = 2) := by
  intro a
  cases hr : s.region q.pa with
  | none =>
    have ha : a = BitVec.ofNat 16 (q.src.toNat * 2 ^ 13 + bit q.dev * 2 ^ 9 + bit q.dev * 2 ^ 8 + bit q.sec * 2 ^ 7 + 2) := by
      show s.portAttr q = _
      rw [State.portAttr, hr]
    obtain ⟨hsrc, htag, hdev, hsec, hp⟩ := attr_fields (src := q.src) (dev := q.dev) (sec := q.sec) (place := 2) (by decide)
    rw [ha]
    exact ⟨hsrc, htag, hdev, hsec, nofun, fun _ => BitVec.eq_of_toNat_eq ((BitVec.toNat_setWidth ..).trans hp)⟩
  | some x =>
    have ht := x.tier.isLt
    have hk : (if x.tier = 0 then x.stack q.pa else 0) < 32 := by
      split
      · exact Nat.mod_lt _ (by decide)
      · decide
    have ha : a = BitVec.ofNat 16 (q.src.toNat * 2 ^ 13 + bit q.dev * 2 ^ 9 + bit q.dev * 2 ^ 8 + bit q.sec * 2 ^ 7
        + ((if x.tier = 0 then x.stack q.pa else 0) * 4 + x.tier.toNat)) := by
      show s.portAttr q = _
      rw [State.portAttr, hr]
    obtain ⟨hsrc, htag, hdev, hsec, hp⟩ := attr_fields (src := q.src) (dev := q.dev) (sec := q.sec)
      (place := (if x.tier = 0 then x.stack q.pa else 0) * 4 + x.tier.toNat) (by omega)
    rw [ha]
    refine ⟨hsrc, htag, hdev, hsec, fun y hy => ?_, nofun⟩
    obtain rfl := Option.some.inj hy
    refine ⟨BitVec.eq_of_toNat_eq ?_, ?_⟩
    · rw [BitVec.extractLsb'_toNat, Nat.shiftRight_eq_div_pow]
      omega
    · rw [BitVec.extractLsb'_toNat, Nat.shiftRight_eq_div_pow]
      omega

/-! ### The statement -/

/-- Settles O57: the store and the tally by the engine's writes of their pieces, reads by their first and second failure, a failed write by
what `writeFails` keeps, and attributes by the fields of their word. -/
theorem persistenceAndMemoryPort : Obligations.PersistenceAndMemoryPort := by
  refine ⟨fun s temp vmon => ⟨fun h => ⟨dictionaryStoreWrite_idle h, tallyPersist_idle h⟩, fun h => ⟨dictionaryStoreWrite_writes h, ?_⟩,
    fun hf ha hp => ?_, fun hf ha hp => ?_, telemetrySample_shown s temp vmon⟩,
    fun s ch id g data poison parity src tch left => ⟨fun hw => ?_, fun hg => ?_, fun hg hd => ?_, rfl, ?_, fun d => ?_, ?_, fun hg => ?_,
      portAttr_place s, fun sec ty pa n hs ht => ?_, fun _ _ _ => rfl, fun _ _ _ => rfl⟩⟩
  -- the store and the tally
  · have hy := dictionaryStoreWrite_writes h
    obtain ⟨_, _, _, e⟩ := writeStore_mapOnly s none
    rw [e] at hy
    exact ⟨_, hy, rfl, rfl, rfl⟩
  · have hy := tallyPersist_period hf hp
    rwa [writeTally_none (s := s.passTime) ha] at hy
  · intro u v image base
    have hy := tallyPersist_period hf hp
    rw [writeTally_area (s := s.passTime) ha] at hy
    obtain ⟨m, x, ts, e⟩ := ceStore_mapOnly u u.tallyPlace u.nextImage
    refine ⟨_, hy, ?_, ?_, fun hr => ?_, fun hr hb hs hw k hk => ?_⟩
    · exact (congrArg (fun t : State => t.res.persists + 1) e).trans rfl
    · exact (congrArg (fun t : State => (hardwire s t).core) e).trans rfl
    · have hu : u.ceStore u.tallyPlace u.nextImage = u := ceStore_refused hr
      exact (congrArg State.mem hu :)
    · exact ceStore_bytes (s := u) hw hr hb hs hk
  -- reads
  · exact ⟨_, rfl, readAnswer_good hw ch.toNat g data poison⟩
  · have hr := readFails_first (s := { s with fab := { s.fab with rdErrs := s.fab.rdErrs + 1 } }) hg ch.toNat parity
    exact ⟨_, readResponse_err .., hr.mem, congrArg Fabric.reissued hr.fab, congrArg Fabric.rdErrs hr.fab⟩
  · have hr := readFails_again (s := { s with fab := { s.fab with rdErrs := s.fab.rdErrs + 1 } }) hg ch.toNat parity
    exact ⟨_, readResponse_err .., (congrArg (Mem.poisoned · g.toNat) hr.mem).trans (poisoned_nsInsert hd), congrArg Fabric.reissued hr.fab,
      (congrArg Mem.cells hr.mem :)⟩
  -- writes
  · obtain ⟨hm, hf⟩ := writeFails_keeps { s with mem := s.mem.setBackPoison g.toNat true } src.toNat (tramOf tch) g
    exact ⟨_, rfl, congrArg Fabric.wrErrs hf, hm⟩
  · obtain ⟨hm, hf⟩ := writeFails_keeps { s with mem := s.mem.hold g.toNat d (nsMem g.toNat s.mem.poison) } src.toNat (tramOf tch) g
    exact ⟨_, rfl, congrArg Fabric.wrErrs hf, hm⟩
  -- requests without a response
  · obtain ⟨hm, hf⟩ := writeFails_keeps { s with fab := { s.fab with timeouts := s.fab.timeouts + 1 } } src.toNat (tramOf tch) g
    exact ⟨_, rfl, congrArg Fabric.timeouts hf, congrArg Fabric.wrErrs hf, hm⟩
  · have hr := readFails_first (s := { s with fab := { s.fab with timeouts := s.fab.timeouts + 1, rdErrs := s.fab.rdErrs + 1 } }) hg
      (tramOf tch).val false
    exact ⟨_, rfl, congrArg Fabric.timeouts hr.fab, congrArg Fabric.reissued hr.fab, hr.mem⟩
  -- requests offered
  · unfold State.portRead
    rw [hs]
    rcases ht with rfl | rfl <;> rfl

end Sys2Proof.Machine
end

section
/-! SUPPORT. Bytes, frames and stored values of the dictionary (15 Table 15.13, R331, R340). -/

namespace Sys2Proof.Machine

/-! ### Bytes (00 R7) -/

theorem length_bytesOf (n v : Nat) : (bytesOf n v).length = n := by
  induction n generalizing v with
  | zero => rfl
  | succ n ih => exact congrArg (· + 1) (ih _)

theorem natOf_bytesOf (n v : Nat) : natOf (bytesOf n v) = v % 256 ^ n := by
  induction n generalizing v with
  | zero => rw [Nat.pow_zero, Nat.mod_one]; rfl
  | succ n ih =>
    rw [bytesOf, natOf, ih, Nat.pow_succ', Nat.mod_mul, BitVec.toNat_ofNat]

theorem natOf_append (a b : List Byte) : natOf (a ++ b) = natOf a + 256 ^ a.length * natOf b := by
  induction a with
  | nil => simp [natOf]
  | cons x t ih =>
    rw [List.cons_append, natOf, ih, natOf, List.length_cons, Nat.pow_succ', Nat.mul_add, Nat.mul_assoc, Nat.add_assoc]

theorem natOf_lt (l : List Byte) : natOf l < 256 ^ l.length := by
  induction l with
  | nil => exact Nat.one_pos
  | cons b t ih =>
    have hb := b.isLt
    rw [List.length_cons, Nat.pow_succ', natOf]
    omega

/-! ### An answer's frame (15 Table 15.13) -/

/-- The header's word and the data of a frame. -/
theorem protoFrame_toNat {idx sub type status off : Nat} {last : Bool} {data : List Byte} (hd : data.length ≤ 56) (hi : idx < 2 ^ 16)
    (hs : sub < 2 ^ 8) (ht : type < 2 ^ 4) (hst : status < 2 ^ 4) (ho : off < 2 ^ 24) :
    (protoFrame idx sub type status off last data).toNat = idx + 2 ^ 16 * sub + 2 ^ 24 * status + 2 ^ 28 * type + 2 ^ 32 * off
      + 2 ^ 56 * data.length + 2 ^ 62 * bit last + 2 ^ 64 * natOf data := by
  have hn : natOf data < 256 ^ 56 := (natOf_lt data).trans_le (Nat.pow_le_pow_right (by decide) hd)
  have hb : bit last ≤ 1 := by cases last <;> decide
  have e : natOf (bytesOf 2 idx ++ bytesOf 1 sub ++ bytesOf 1 (type * 16 + status) ++ bytesOf 3 off ++ bytesOf 1 (bit last * 64 + data.length) ++ data)
      = idx + 2 ^ 16 * sub + 2 ^ 24 * status + 2 ^ 28 * type + 2 ^ 32 * off + 2 ^ 56 * data.length + 2 ^ 62 * bit last + 2 ^ 64 * natOf data := by
    simp only [natOf_append, List.length_append, length_bytesOf, natOf_bytesOf]
    omega
  rw [protoFrame, BitVec.toNat_ofNat, e, Nat.mod_eq_of_lt]
  omega

/-! ### Stored values (15 R331) -/

/-- The value just put is the one found. -/
theorem find?_putVal (k : Nat) (v : List Byte) (l : List (Nat × List Byte)) : (putVal k v l).find? (fun x => x.1 == k) = some (k, v) := by
  induction l with
  | nil => exact List.find?_cons_of_pos (beq_self_eq_true k)
  | cons x t ih =>
    unfold putVal
    split
    · exact List.find?_cons_of_pos (beq_self_eq_true k)
    · split
      · exact List.find?_cons_of_pos (beq_self_eq_true k)
      · next h => exact (List.find?_cons_of_neg (by simpa using Ne.symm h)).trans ih

theorem storedBytes_put {s : State} {idx sub : Nat} {v : List Byte} {l : List (Nat × List Byte)} (h : s.dict.vals = putVal (dkey idx sub) v l)
    (type : Nat) : s.storedBytes idx sub type = v := by
  unfold State.storedBytes
  rw [h, find?_putVal]

/-! ### Frames on the field network (15 R336, R339) -/

/-- A frame sent is on the bus, or the controller has gone bus off. -/
theorem sendCan_sends {s : State} (h : s.canSends = true) (i : BitVec 29) (x : BitVec 512) :
    (s.sendCan i x).can.sent = s.can.sent ++ [{ ident := i, len := fdSmallest (8 + fieldOf x.toNat 56 6), frame := x }]
      ∨ ((s.sendCan i x).can.sent = s.can.sent ∧ (s.sendCan i x).can.state = 2) := by
  unfold State.sendCan
  rw [if_neg (by rw [h]; decide)]
  dsimp only
  split
  · refine .inr ⟨rfl, if_pos ?_⟩
    omega
  · exact .inl rfl

theorem sendCan_dict (s : State) (i : BitVec 29) (x : BitVec 512) : (s.sendCan i x).dict = s.dict := by
  unfold State.sendCan
  dsimp only
  split
  · rfl
  · split <;> rfl

/-- An answer leaves the entries and the requests that wait. -/
theorem sendAnswer_keeps (s : State) (r : DictReq) (x : BitVec 512) :
    (s.sendAnswer r x).dict.vals = s.dict.vals ∧ (s.sendAnswer r x).dict.queue = s.dict.queue := by
  unfold State.sendAnswer
  split
  · split
    · exact ⟨rfl, rfl⟩
    · exact ⟨congrArg Dict.vals (sendCan_dict ..), congrArg Dict.queue (sendCan_dict ..)⟩
  · exact ⟨rfl, rfl⟩
  · exact ⟨rfl, rfl⟩

end Sys2Proof.Machine
end

section
/-! ## Dictionary requests: arrival, order, service, answers and their limit (15 R328 to R344, R349) -/

namespace Sys2Proof.Machine

/-! ### The three services -/

/-- A command serves the requests of a service. -/
def Serves (k : BitVec 4) (c : Option Packet → Bool → Instr) : Prop := ∀ s a fw, exec (c a fw) s = answer s (s.dictCommand a k fw)

theorem serves_service {k : BitVec 4} (h1 : 1 ≤ k) (h3 : k ≤ 3) : Serves k fun a fw =>
    if k = 1 then .dictionaryRead a fw else if k = 2 then .dictionaryWrite a fw else .blockRead a fw := by
  have hk : k = 1 ∨ k = 2 ∨ k = 3 := by bv_omega
  rcases hk with rfl | rfl | rfl <;> exact fun _ _ _ => rfl

section
variable {s : State} {k : BitVec 4} {c : Option Packet → Bool → Instr} (hc : Serves k c)
include hc

theorem Serves.busy (h : s.dict.current.isSome = true) (fw : Bool) : Yields (c none fw) s s :=
  (hc ..).trans (congrArg (answer s) (if_pos h))

theorem Serves.none (h : s.dict.queue = []) (fw : Bool) : Yields (c none fw) s s := by
  refine (hc ..).trans (congrArg (answer s) ?_)
  show s.dictServe k fw = s
  unfold State.dictServe
  split
  · rfl
  · rw [h]
    rfl

end

/-! ### A message arrives (R343) -/

theorem dictServe_busy {s : State} (h : s.dict.current.isSome = true) (k : BitVec 4) (fw : Bool) : s.dictServe k fw = s := if_pos h

/-- The request that a dictionary message carries. -/
def arrivingRequest (p : Packet) : DictReq :=
  let w := p.inl.toNat % 2 ^ 128
  let f := p.inl.toNat / 2 ^ 128 % 2 ^ 512
  { path := 1, secure := p.sec, service := BitVec.ofNat 4 w, tid := BitVec.ofNat 7 (w / 2 ^ 5), prio := 0, source := BitVec.ofNat 24 (w / 2 ^ 12)
    broadcast := false, frame := BitVec.ofNat 512 (if w / 2 ^ 36 = 0 ∨ bitOf f 63 then f else f + 2 ^ 63), bytes := 64, passed := 0 }

theorem fabricRequest_joins {s : State} {p : Packet} (h8 : s.dictWaiting 1 < 8) (hr : bitOf (p.inl.toNat % 2 ^ 128) 4 = false) :
    s.fabricRequest p = s.dictPush (arrivingRequest p) :=
  if_neg (by rw [hr, decide_eq_false (Nat.not_le.2 h8)]; decide)

/-! ### A request alone is served (R332, R333) -/

theorem nextRequest_one (r : DictReq) : nextRequest [r] = some r := by
  unfold nextRequest
  split
  · next h => exact (List.mem_singleton.1 (List.mem_of_find?_eq_some h)) ▸ rfl
  · split
    · next h => exact (List.mem_singleton.1 (List.mem_of_find?_eq_some h)) ▸ rfl
    · split
      · next h => exact (List.mem_singleton.1 (List.mem_of_find?_eq_some h)) ▸ rfl
      · rfl

/-- The state whose one request has left the queue. -/
def State.dequeued (s : State) : State := { s with dict := { s.dict with queue := [] } }

/-- A request alone in the queue, of an entry that firmware serves, which the engine may take. -/
structure Alone (s : State) (r : DictReq) : Prop where
  free : s.dict.current = none
  queue : s.dict.queue = [r]
  formed : r.malformed = false
  good : s.dict.bad = false
  asked : engineServed r.index = false
  boot : s.dep.bootStatus = 1

section
variable {s : State} {r : DictReq} (h : Alone s r)
include h

/-- The request leaves the queue, and is answered, or stays open for firmware. -/
theorem Alone.serve {k : BitVec 4} (hk : r.service = k) (fw : Bool) : s.dictServe k fw =
    if fw then s.dequeued.answerNow r else ({ s.dequeued with dict := { s.dequeued.dict with current := some r } } : State).raiseVector 8 := by
  subst hk
  have hq : (s.dict.queue.erase r).map (fun x : DictReq => { x with passed := x.passed + 1 }) = [] := by
    rw [h.queue, List.erase_cons_head]
    rfl
  have hown : (r.malformed || s.dict.bad || engineServed r.index || decide (s.dep.bootStatus ≠ 1#4)) = false := by
    rw [h.formed, h.good, h.asked, h.boot]
    rfl
  have hn : nextRequest s.dict.queue = some r := h.queue ▸ nextRequest_one r
  unfold State.dictServe
  rw [h.free, hn]
  dsimp only
  rw [beq_self_eq_true, hq, hown]
  rfl

theorem Alone.yields {k : BitVec 4} {c : Option Packet → Bool → Instr} (hc : Serves k c) (hk : r.service = k) (fw : Bool) : Yields (c none fw) s
    (if fw then s.dequeued.answerNow r else ({ s.dequeued with dict := { s.dequeued.dict with current := some r } } : State).raiseVector 8) :=
  (hc ..).trans (congrArg (answer s) (h.serve hk fw))

/-- Where firmware runs, only the write of DUMPBASE can be unavailable. -/
theorem Alone.available (hd : ¬(r.index = 0x7000 ∧ r.sub = 2 ∧ r.service = 2)) : s.dequeued.dictUnavail r = false := by
  obtain ⟨⟨h0, h1⟩, h8⟩ : (r.index ≠ 0x1000 ∧ r.index ≠ 0x1100) ∧ r.index ≠ 0x8010 := by
    simpa [engineServed] using h.asked
  have hb : s.dequeued.dep.bootStatus = 1 := h.boot
  unfold State.dictUnavail
  rw [if_neg (by rintro (e | e); exacts [h0 e, h1 e]), if_neg (fun ⟨hi, hs, h2, _⟩ => hd ⟨hi, hs, h2⟩), if_neg h8, hb]
  rfl

/-- The engine answers by what the request's entry is. -/
theorem Alone.answered (hd : ¬(r.index = 0x7000 ∧ r.sub = 2 ∧ r.service = 2)) : s.dequeued.dictAnswer r = match s.lookEntry r.index r.sub with
    | .noIndex => { s := s.dequeued, status := 1 }
    | .noSub => { s := s.dequeued, status := 2 }
    | .entry type right => if r.service = 2 then s.dequeued.dictWrite r type right else s.dequeued.dictRead r type right := by
  have hb : s.dequeued.dict.bad = false := h.good
  unfold State.dictAnswer
  rw [h.formed, hb, h.available hd]
  rfl

end

/-! ### What the engine answers (R340, R344) -/

section
variable {s : State} {r : DictReq}

/-- An answer without an image is its frames, sent in order. -/
theorem answerNow_eq {a : DictAns} (h : s.dictAnswer r = a) (hi : a.image = none) :
    s.answerNow r = (r.frames a).foldl (fun s f => s.sendAnswer r f) a.s := by
  unfold State.answerNow
  rw [h]
  dsimp only
  rw [hi]

theorem frames_one {a : DictAns} (h : ¬(r.service = 3 ∧ a.status = 0)) :
    r.frames a = [protoFrame r.index r.sub a.type a.status r.off a.last a.data] := if_neg h

/-- A read of an offset within a value gives the bytes from there on that the answer has room for. -/
theorem dictRead_value {type : Nat} {right : Right} (hw : right ≠ .wo) (ho : r.off < (s.entryBytes r.index r.sub type).length)
    (hp : r.off = 0 ∨ pieceType type = true) :
    let d := ((s.entryBytes r.index r.sub type).drop r.off).take r.room
    s.dictRead r type right = { s := s, status := 0, type := type, data := d
                                last := decide (r.off + d.length = (s.entryBytes r.index r.sub type).length) } := by
  have hn : (decide (0 < r.off) && !pieceType type) = false := by
    rcases hp with h | h <;> rw [h]
    · rfl
    · rw [Bool.not_true, Bool.and_false]
  unfold State.dictRead
  rw [if_neg hw, if_neg (by rw [hn, decide_eq_false (Nat.not_le.2 ho)]; decide)]

/-- The CSR path has room for a value of at most 8 bytes. -/
theorem dictRead_whole {type : Nat} {right : Right} (hw : right ≠ .wo) (h1 : r.service = 1) (hp : r.path = 2) (ho : r.off = 0)
    (hl : 1 ≤ (s.entryBytes r.index r.sub type).length) (h8 : (s.entryBytes r.index r.sub type).length ≤ 8) :
    s.dictRead r type right = { s := s, status := 0, type := type, last := true, data := s.entryBytes r.index r.sub type } := by
  have hr : r.room = 8 := by
    unfold DictReq.room
    rw [h1, hp]
    rfl
  rw [dictRead_value hw (by omega) (.inl ho), hr, ho, List.drop_zero, List.take_of_length_le h8, Nat.zero_add, decide_eq_true rfl]

theorem sendAnswer_csr (h : r.path = 2) (x : BitVec 512) : s.sendAnswer r x = s.installResult x := by
  unfold State.sendAnswer
  rw [h]
  rfl

/-- DICT_RES and DICT_DATA show an answer's fields. -/
theorem installResult_shows (s : State) {type : Nat} {data : List Byte} (ht : type < 16) (h8 : data.length ≤ 8) :
    let t := s.installResult (protoFrame r.index r.sub type 0 0 true data)
    t.dict.csrBusy = false ∧ t.dict.resValid = true ∧ t.dict.resSeq = s.dict.resSeq + 1 ∧ t.dict.resStatus = 0
      ∧ t.dict.resType.toNat = type ∧ t.dict.resLen.toNat = data.length ∧ t.dict.resLast = true ∧ t.dict.resData.toNat = natOf data := by
  have hi : r.index < 2 ^ 16 := Nat.mod_lt _ (by decide)
  have hs : r.sub < 2 ^ 8 := Nat.mod_lt _ (by decide)
  have hn := natOf_lt data
  have h64 : 256 ^ data.length ≤ 2 ^ 64 := Nat.pow_le_pow_right (n := 256) (by decide) h8
  have hf := protoFrame_toNat (idx := r.index) (sub := r.sub) (off := 0) (status := 0) (last := true) (Nat.le_trans h8 (by decide)) hi hs ht
    (by decide) (by decide)
  rw [show bit true = 1 from rfl] at hf
  have hst : fieldOf (protoFrame r.index r.sub type 0 0 true data).toNat 24 4 = 0 := by rw [fieldOf, hf]; omega
  have hty : fieldOf (protoFrame r.index r.sub type 0 0 true data).toNat 28 4 = type := by rw [fieldOf, hf]; omega
  have hln : fieldOf (protoFrame r.index r.sub type 0 0 true data).toNat 56 6 = data.length := by rw [fieldOf, hf]; omega
  have hla : bitOf (protoFrame r.index r.sub type 0 0 true data).toNat 62 = true := by
    rw [bitOf, hf, beq_iff_eq]
    omega
  have hdt : (protoFrame r.index r.sub type 0 0 true data).toNat / 2 ^ 64 = natOf data := by rw [hf]; omega
  have hm : Nat.min 8 data.length = data.length := Nat.min_eq_right h8
  unfold State.installResult
  dsimp only
  rw [hst, hty, hln, hla, hm, fieldOf, hdt]
  refine ⟨rfl, rfl, rfl, rfl, ?_, ?_, rfl, ?_⟩
  · exact Nat.mod_eq_of_lt ht
  · exact Nat.mod_eq_of_lt (by omega)
  · rw [two_pow_bytes rfl, Nat.mod_eq_of_lt hn]
    exact Nat.mod_eq_of_lt (by omega)

/-- A type of a fixed size is not written in pieces. -/
theorem not_piece_of_sized {type n : Nat} (h : typeSize type = some n) : (pieceType type && type != 0xB) = false := by
  have h9 : type ≠ 9 := by rintro rfl; cases h
  have hA : type ≠ 0xA := by rintro rfl; cases h
  simp [pieceType, h9, hA]

/-- A write within rights, type, length and range is accepted. -/
theorem dictWrite_accepts {type : Nat} (ht : r.type = type) (ho : r.off = 0) (hl : r.last = true) (hn : typeSize type = some r.len)
    (hv : s.valueOk r.index r.sub type r.data = true) :
    s.dictWrite r type .rw = { s := s.acceptEntry r.index r.sub r.data, status := 0, type := type } := by
  have hst : s.writeRight r .rw = 0 := rfl
  unfold State.dictWrite
  rw [not_piece_of_sized hn, hst, hv]
  dsimp only
  rw [if_neg Bool.false_ne_true, if_neg (not_not_intro rfl), if_neg (by simp [ht, ho, hl, hn])]
  rfl

/-- An accepted value is the entry's, apart from the two entries with reserved bits. -/
theorem acceptEntry_dict {idx sub : Nat} (h1 : (idx, sub) ≠ (0x2000, 6)) (h2 : (idx, sub) ≠ (0x6000, 0xB)) (v : List Byte) :
    (s.acceptEntry idx sub v).dict = (s.setEntry idx sub v).dict := by
  have h1' : ¬(idx = 0x2000 ∧ sub = 6) := fun ⟨a, b⟩ => h1 (by rw [a, b])
  have h2' : ¬(idx = 0x6000 ∧ sub = 0xB) := fun ⟨a, b⟩ => h2 (by rw [a, b])
  unfold State.acceptEntry
  simp only [if_neg h1', if_neg h2']
  split <;> rfl

end

/-- The entry of DUMPBASE is an RWS one. -/
theorem not_dumpBase {s : State} {r : DictReq} (h : s.lookEntry r.index r.sub ≠ .entry 4 .rws) :
    ¬(r.index = 0x7000 ∧ r.sub = 2 ∧ r.service = 2) := by
  rintro ⟨hi, hs, -⟩
  rw [hi, hs] at h
  exact h rfl

section
variable {s : State} {r : DictReq} (h : Alone s r)
include h

theorem Alone.noIndex (hl : s.lookEntry r.index r.sub = .noIndex) :
    s.dequeued.answerNow r = s.dequeued.sendAnswer r (protoFrame r.index r.sub 0 1 r.off false []) := by
  have ha := h.answered (not_dumpBase (by rw [hl]; nofun))
  rw [hl] at ha
  rw [answerNow_eq ha rfl, frames_one fun ⟨_, h0⟩ => Nat.one_ne_zero h0]
  rfl

theorem Alone.read {type : Nat} {right : Right} (hl : s.lookEntry r.index r.sub = .entry type right) (h2 : r.service ≠ 2) :
    s.dequeued.dictAnswer r = s.dequeued.dictRead r type right := by
  have ha := h.answered fun ⟨_, _, h⟩ => h2 h
  rw [hl] at ha
  exact ha.trans (if_neg h2)

/-- A READ on the CSR path of a value of at most 8 bytes is answered with all of it. -/
theorem Alone.readWhole {type : Nat} {right : Right} (hl : s.lookEntry r.index r.sub = .entry type right) (hw : right ≠ .wo) (h1 : r.service = 1)
    (hp : r.path = 2) (ho : r.off = 0) (hn : 1 ≤ (s.entryBytes r.index r.sub type).length) (h8 : (s.entryBytes r.index r.sub type).length ≤ 8) :
    s.dequeued.answerNow r = s.dequeued.installResult (protoFrame r.index r.sub type 0 0 true (s.entryBytes r.index r.sub type)) := by
  have ha := (h.read hl (by rw [h1]; decide)).trans (dictRead_whole (s := s.dequeued) hw h1 hp ho hn h8)
  rw [answerNow_eq ha rfl, frames_one (by rw [h1]; rintro ⟨h3, -⟩; cases h3), ho]
  exact sendAnswer_csr hp _

/-- A WRITE that passes its checks stores its data, and is answered OK. -/
theorem Alone.write {type : Nat} (hl : s.lookEntry r.index r.sub = .entry type .rw) (h2 : r.service = 2) (ht : r.type = type) (ho : r.off = 0)
    (hla : r.last = true) (hn : typeSize type = some r.len) (hv : s.valueOk r.index r.sub type r.data = true) : s.dequeued.answerNow r
      = (s.dequeued.acceptEntry r.index r.sub r.data).sendAnswer r (protoFrame r.index r.sub type 0 r.off false []) := by
  have ha := h.answered (not_dumpBase (by rw [hl]; nofun))
  rw [hl] at ha
  rw [answerNow_eq ((ha.trans (if_pos h2)).trans (dictWrite_accepts (s := s.dequeued) ht ho hla hn hv)) rfl,
    frames_one (by rw [h2]; rintro ⟨h3, -⟩; cases h3)]
  rfl

/-- A BLOCK READ is answered with a series of frames. -/
theorem Alone.blockRead {type : Nat} {right : Right} (hl : s.lookEntry r.index r.sub = .entry type right) (hw : right ≠ .wo) (h3 : r.service = 3)
    (ho : r.off < (s.entryBytes r.index r.sub type).length) (hp : r.off = 0 ∨ pieceType type = true) :
    let d := ((s.entryBytes r.index r.sub type).drop r.off).take r.count
    s.dequeued.answerNow r = (framePieces d.length r.off (d.length / 56 + 1) d).foldl
      (fun u x => u.sendAnswer r (protoFrame r.index r.sub type 0 x.1 x.2.1 x.2.2)) s.dequeued := by
  have ha := (h.read hl (by rw [h3]; decide)).trans (dictRead_value (s := s.dequeued) hw ho hp)
  have hr : r.room = r.count := if_pos h3
  rw [hr] at ha
  rw [answerNow_eq ha rfl]
  refine (congrArg (List.foldl _ _) (if_pos ⟨h3, rfl⟩)).trans ?_
  rw [List.foldl_map]
  rfl

end

/-! ### Firmware's answer, the limit, NOTIFY (R332, R341, R349) -/

section
variable {s : State} {r : DictReq}

theorem dictionaryAnswer_none (h : s.dict.current = none) (more : Bool) : Yields (.dictionaryAnswer more) s s := by
  refine congrArg (answer s) ?_
  unfold State.dectl
  rw [h]

theorem dictionaryTimeout_none (h : s.dict.current = none) : Yields .dictionaryTimeout s s := by
  refine congrArg (answer s) ?_
  unfold State.closeRequest
  rw [h]

theorem dictionaryTimeout_open (h : s.dict.current = some r) : Yields .dictionaryTimeout s
    (({ s with dict := { s.dict with current := none } } : State).sendAnswer r
      (protoFrame r.index r.sub (s.entryType r.index r.sub) 8 r.off false [])) := by
  refine congrArg (answer s) ?_
  unfold State.closeRequest
  rw [h]
  rfl

/-- Firmware's answer to a request that writes nothing is DERSP. -/
theorem dectl_reads (h : s.dict.current = some r) (h2 : r.service ≠ 2) (more : Bool) : s.dectl more =
    if more then (if r.path = 2 then s else s.sendAnswer r s.dict.rsp)
    else ({ s with dict := { s.dict with current := none } } : State).sendAnswer r s.dict.rsp := by
  have h2' : (r.service == 2) = false := beq_eq_false_iff_ne.2 h2
  unfold State.dectl
  rw [h]
  dsimp only
  rw [h2']
  rfl

theorem notify_busy (h : s.dict.ntfBusy = true) : Yields .notify s s := congrArg (answer s) (if_pos h)

theorem notify_leaves (h : s.dict.ntfBusy = false) : Yields .notify s (s.notifyFrame (s.param 0x2000 3) s.dict.ntf) :=
  congrArg (answer s) (if_neg (ne_true_of_eq_false h))

end

/-! ### Frames of the field network (R336, R338) -/

section
variable {s : State} {ident : BitVec 29} {fd : Bool} {frame : BitVec 512} {dlc : BitVec 4}

theorem fieldFrame_deaf (h : s.canSends = false) : Yields (.fieldNetworkFrame ident fd frame dlc) s s :=
  congrArg (answer s) (if_pos (by rw [h]; rfl))

section
variable (h : s.canSends = true)
include h

theorem fieldFrame_classic : Yields (.fieldNetworkFrame ident false frame dlc) s
    { s.hearCan with can := { s.hearCan.can with ign := s.hearCan.can.ign + 1 } } :=
  congrArg (answer s) ((if_neg (by rw [h]; decide)).trans (if_pos rfl))

theorem fieldFrame_other (h0 : fieldOf ident.toNat 19 7 ≠ 0) (hd : ¬fieldOf ident.toNat 19 7 = s.straps.mgmtNode.toNat) :
    Yields (.fieldNetworkFrame ident true frame dlc) s s.hearCan :=
  congrArg (answer s) ((if_neg (by rw [h]; decide)).trans ((if_neg (by decide)).trans (if_pos ⟨hd, h0⟩)))

/-- The request that a frame for this node carries. -/
def canRequest (ident : BitVec 29) (frame : BitVec 512) (dlc : BitVec 4) : DictReq :=
  { path := 0, secure := false, service := BitVec.ofNat 4 (fieldOf ident.toNat 8 4), tid := BitVec.ofNat 7 ident.toNat
    prio := BitVec.ofNat 3 (ident.toNat / 2 ^ 26), source := BitVec.ofNat 24 (fieldOf ident.toNat 12 7)
    broadcast := decide (fieldOf ident.toNat 19 7 = 0), frame := BitVec.ofNat 512 (frame.toNat % 2 ^ (8 * fdLength dlc))
    bytes := fdLength dlc, passed := 0 }

/-- A request for this node joins the queue, or is dropped where 8 wait. -/
theorem fieldFrame_own (hd : fieldOf ident.toNat 19 7 = s.straps.mgmtNode.toNat)
    (hf : fieldOf ident.toNat 12 7 ≠ 0 ∧ fieldOf ident.toNat 12 7 ≠ s.straps.mgmtNode.toNat ∧ bitOf ident.toNat 7 = false
      ∧ 1 ≤ fieldOf ident.toNat 8 4 ∧ fieldOf ident.toNat 8 4 ≤ 3) : Yields (.fieldNetworkFrame ident true frame dlc) s
    (if 8 ≤ s.dictWaiting 0 then { s.hearCan with can := { s.hearCan.can with drop := s.hearCan.can.drop + 1 } }
      else ({ s.hearCan with can := { s.hearCan.can with rx := s.hearCan.can.rx + 1 } } : State).dictPush (canRequest ident frame dlc)) := by
  obtain ⟨h0, hs, hr, h1, h3⟩ := hf
  refine congrArg (answer s) ((if_neg (by rw [h]; decide)).trans ((if_neg (by decide)).trans
    ((if_neg fun ⟨h, _⟩ => h hd).trans (if_neg ?_))))
  rintro (e | e | e | e | e)
  · exact h0 e
  · exact hs e
  · exact Bool.false_ne_true (hr.symm.trans e)
  · omega
  · omega

end

end

theorem busOffRecovery_off {s : State} (h : s.can.state = 2) :
    Yields .busOffRecovery s (({ s with can := { s.can with state := 0, txErr := 0, rxErr := 0 } } : State).raiseVector 9) :=
  congrArg (answer s) (if_pos h)

theorem busOffRecovery_on {s : State} (h : s.can.state ≠ 2) : Yields .busOffRecovery s s := congrArg (answer s) (if_neg h)

/-! ### The statement -/

/-- Settles O58: a request alone in the queue through `Alone` by what its entry is, firmware's answers by the open request, and frames of
the field network by what they carry. -/
theorem dictionaryRequests : Obligations.DictionaryRequests := by
  intro s p r fw more fd ident dlc frame cmd served
  refine ⟨fun k hk1 hk3 => ?_, fun h => ⟨dictionaryAnswer_none h more, dictionaryTimeout_none h⟩,
    fun h => ⟨dictionaryTimeout_open h, fun h2 => ?_, fun h2 hp => ?_⟩, notify_busy, fun hb hs => ?_, fieldFrame_deaf,
    fun h => ⟨fieldFrame_classic h, fieldFrame_other h, fun hd hf h8 => ?_, fun hd hf h8 => ?_⟩, busOffRecovery_off, busOffRecovery_on⟩
  · have h3 : Serves k (cmd k) := serves_service hk1 hk3
    refine ⟨fun hc => h3.busy hc fw, fun hq => h3.none hq fw, fun hc hb h8 hr => ?_, fun hc hq hk hm hb ha hs => ?_⟩
    · have hy : exec (cmd k (some p) fw) s = _ := h3 s (some p) fw
      have hu : s.dictCommand (some p) k fw = s.dictPush (arrivingRequest p) := by
        refine (congrArg (State.dictServe · k fw) ((received_good hb _).trans (fabricRequest_joins h8 hr))).trans ?_
        exact dictServe_busy (s := s.dictPush (arrivingRequest p)) hc k fw
      rw [hu] at hy
      exact ⟨_, hy, arrivingRequest p, rfl, rfl, rfl, rfl⟩
    · have al : Alone s r := ⟨hc, hq, hm, hb, ha, hs⟩
      refine ⟨al.yields h3 hk false, fun hl => ?_, fun type right k1 hp hl hw ho h1 h8 ht => ?_, fun type k2 hl ht ho hla hn hx hx' hv => ?_,
        fun type right k3 hl hw ho hp => ?_⟩
      · have hy : Yields (cmd k none true) s _ := al.yields h3 hk true
        rwa [if_pos rfl, al.noIndex hl] at hy
      · subst k1
        have hy : Yields (cmd 1 none true) s _ := al.yields h3 hk true
        rw [if_pos rfl, al.readWhole hl hw hk hp ho h1 h8] at hy
        exact ⟨_, hy, installResult_shows s.dequeued ht h8⟩
      · subst k2
        have hy : Yields (cmd 2 none true) s _ := al.yields h3 hk true
        rw [if_pos rfl, al.write hl hk ht ho hla hn hv] at hy
        obtain ⟨hvals, hqueue⟩ := sendAnswer_keeps (s.dequeued.acceptEntry r.index r.sub r.data) r
          (protoFrame r.index r.sub type 0 r.off false [])
        have hdict := acceptEntry_dict (s := s.dequeued) hx hx' r.data
        exact ⟨_, hy, storedBytes_put (hvals.trans (congrArg Dict.vals hdict)) type, hqueue.trans (congrArg Dict.queue hdict)⟩
      · subst k3
        have hy : Yields (cmd 3 none true) s _ := al.yields h3 hk true
        rwa [if_pos rfl, al.blockRead hl hw hk ho hp] at hy
  -- firmware's answer
  · exact congrArg (answer s) (dectl_reads h h2 false)
  · exact congrArg (answer s) ((dectl_reads h h2 true).trans (if_neg hp))
  -- NOTIFY
  · let u : State := { s with dict := { s.dict with ntfTid := s.dict.ntfTid + 1 } }
    have hu : u.canSends = true := hs
    refine ⟨_, notify_leaves hb, congrArg Dict.ntfTid (sendCan_dict u ..), ?_⟩
    rw [hardwire_dict, show (s.notifyFrame (s.param 0x2000 3) s.dict.ntf).dict = u.dict from sendCan_dict u ..]
    exact sendCan_sends hu _ _
  -- frames of the field network
  · have hy := fieldFrame_own (frame := frame) (dlc := dlc) h hd hf
    rwa [if_pos h8] at hy
  · have hy := fieldFrame_own (frame := frame) (dlc := dlc) h hd hf
    rw [if_neg (Nat.not_le.2 h8)] at hy
    exact ⟨_, hy, rfl, canRequest ident frame dlc, rfl, rfl, rfl, rfl⟩

end Sys2Proof.Machine
end

section
/-! ## A step runs the front command; a command answers or is refused (00, 01) -/

namespace Sys2Proof.Machine

/-- Settles O1: `step` matches on the queue. -/
theorem stepRunsFrontCommand : Obligations.StepRunsFrontCommand := fun _ _ => rfl

/-- Settles O4: `exec_answers` says which of the two a command does; its operands decide. -/
theorem wellFormedCommandsAnswer : Obligations.WellFormedCommandsAnswer := by
  intro c s
  rcases exec_answers c s with ⟨hw, t, ht⟩ | ⟨hw, hr⟩
  · exact ⟨fun _ => ⟨_, ht⟩, fun hf => absurd (hw.symm.trans hf) (by decide)⟩
  · exact ⟨fun ht => absurd (ht.symm.trans hw) (by decide), fun _ => hr⟩

end Sys2Proof.Machine
end

section
/-! ## The deputy's register instructions (14 R302, R305, R307, Tables 14.4 and 14.5) -/

namespace Sys2Proof.Machine

/-! ### Sums of 16 bits (Table 14.5) -/

/-- The signs decide the signed overflow of a sum of 16 bits with a carry. -/
theorem half_overflow_iff (a b r : Half) (c : Nat) (hc : c ≤ 1) (hr : r.toNat = (a.toNat + b.toNat + c) % 2 ^ 16) :
    (a.msb == b.msb && r.msb != a.msb) = decide (r.toInt ≠ a.toInt + b.toInt + c) := by
  simp only [BitVec.msb_eq_decide, BitVec.toInt_eq_toNat_cond, hr]
  have ha := a.isLt
  have hb := b.isLt
  rw [Bool.eq_iff_iff]
  simp only [Bool.and_eq_true, beq_iff_eq, bne_iff_ne, decide_eq_decide, ne_eq, decide_eq_true_eq]
  omega

/-- The sum with its flags: C the unsigned overflow, V the signed one. -/
theorem addWidth_eq (a b : Half) (cin : Bool) {r : Half} (hr : r = a + b + BitVec.ofNat 16 (bit cin)) : addWidth a b cin =
    (r, halfFlagsOf r (decide (2 ^ 16 ≤ a.toNat + b.toNat + bit cin)) (decide (r.toInt ≠ a.toInt + b.toInt + bit cin))) := by
  have hn : BitVec.ofNat 16 (a.toNat + b.toNat + bit cin) = r := by
    rw [hr, BitVec.ofNat_add, BitVec.ofNat_add, BitVec.ofNat_toNat, BitVec.ofNat_toNat, BitVec.setWidth_eq, BitVec.setWidth_eq]
  have hv := half_overflow_iff a b r (bit cin) (by cases cin <;> decide) (by rw [← hn, BitVec.toNat_ofNat])
  rw [← hv, addWidth, hn]
  rfl

theorem addWidth_clear (a b : Half) : addWidth a b false =
    (a + b, halfFlagsOf (a + b) (decide (2 ^ 16 ≤ a.toNat + b.toNat)) (decide ((a + b).toInt ≠ a.toInt + b.toInt))) := by
  have := addWidth_eq a b false (BitVec.add_zero (a + b)).symm
  simpa only [bit_false, Nat.add_zero, Nat.cast_zero, add_zero] using this

/-- Adding the complement subtracts, and the carry is that nothing was borrowed. -/
theorem addWidth_not (a b : Half) (cin : Bool) {r : Half} (hr : r = a - b - BitVec.ofNat 16 (1 - bit cin)) : addWidth a (~~~b) cin =
    (r, halfFlagsOf r (decide (b.toNat + (1 - bit cin) ≤ a.toNat)) (decide (r.toInt ≠ a.toInt - b.toInt - ((1 - bit cin : Nat) : Int)))) := by
  have hb := b.isLt
  have hn : (~~~b).toNat = 2 ^ 16 - 1 - b.toNat := BitVec.toNat_not
  have hs : r = a + ~~~b + BitVec.ofNat 16 (bit cin) := by
    rw [hr, BitVec.not_eq_neg_add]
    cases cin
    · show a - b - 1 = a + (-b - 1) + 0
      ring
    · show a - b - 0 = a + (-b - 1) + 1
      ring
  have hc : (2 ^ 16 ≤ a.toNat + (~~~b).toNat + bit cin) ↔ b.toNat + (1 - bit cin) ≤ a.toNat := by
    rw [hn]
    cases cin <;> simp only [bit_false, bit_true] <;> omega
  have hv : a.toInt + (~~~b).toInt + bit cin = a.toInt - b.toInt - ((1 - bit cin : Nat) : Int) := by
    have hi : (~~~b).toInt = -b.toInt - 1 := by
      rw [BitVec.toInt_eq_toNat_cond, BitVec.toInt_eq_toNat_cond, hn]
      omega
    rw [hi]
    cases cin <;> simp only [bit_false, bit_true] <;> omega
  rw [addWidth_eq a (~~~b) cin hs, decide_eq_decide.2 hc, hv]

theorem addWidth_not_set (a b : Half) : addWidth a (~~~b) true =
    (a - b, halfFlagsOf (a - b) (decide (b.toNat ≤ a.toNat)) (decide ((a - b).toInt ≠ a.toInt - b.toInt))) := by
  have := addWidth_not a b true (BitVec.sub_zero (a - b)).symm
  simpa only [bit_true, Nat.sub_self, Nat.add_zero, Nat.cast_zero, sub_zero] using this

/-! ### The other operations (Table 14.5) -/

theorem halfFlags_eq (r : Half) (c v : Bool) : halfFlags r c v = halfFlagsOf r c v := rfl

theorem halfLogic_eq (r : Half) : halfLogic r = (r, halfFlagsOf r false false) := rfl

theorem ne_zero_eq_decide (k : Nat) : (k != 0) = decide (k ≠ 0) := by cases k <;> rfl

theorem halfShl_eq (a : Half) (k : Nat) : halfShl a k = (a <<< k, halfFlagsOf (a <<< k) (k ≠ 0 && a.getLsbD (16 - k)) false) := by
  rw [halfShl, halfFlags_eq, ne_zero_eq_decide]

theorem halfShr_eq (a : Half) (k : Nat) : halfShr a k = (a >>> k, halfFlagsOf (a >>> k) (k ≠ 0 && a.getLsbD (k - 1)) false) := by
  rw [halfShr, halfFlags_eq, ne_zero_eq_decide]

theorem halfSar_eq (a : Half) (k : Nat) :
    halfSar a k = (a.sshiftRight k, halfFlagsOf (a.sshiftRight k) (k ≠ 0 && a.getLsbD (k - 1)) false) := by
  rw [halfSar, halfFlags_eq, ne_zero_eq_decide]

theorem halfMul_eq (a b : Half) : halfMul a b = (a * b, halfFlagsOf (a * b) false (decide (2 ^ 16 ≤ a.toNat * b.toNat))) := rfl

theorem halfDiv_eq (a b : Half) : halfDiv a b =
    let r := if b = 0 then 0xFFFF else BitVec.ofNat 16 (a.toNat / b.toNat)
    (r, halfFlagsOf r false (decide (b = 0))) := by
  rw [← BitVec.udiv_def]
  rfl

theorem halfRem_eq (a b : Half) : halfRem a b =
    let r := if b = 0 then a else BitVec.ofNat 16 (a.toNat % b.toNat)
    (r, halfFlagsOf r false (decide (b = 0))) := by
  rw [← BitVec.umod_def]
  rfl

/-! ### The forms -/

section
variable {c : Instr} {s : State} {rd rs : DReg} {op : Deputy → Half → Half → Half × Flags} {r : Half} {f : Flags}
  (h : DepReady s) (hs : DepStraight s)
include h hs

/-- A register operation leaves its result in rd and its flags. -/
theorem depDone_rr (hc : exec c s = s.depIssue true fun _ s => rrForm rd rs 0 true op s) (ho : op s.dep (s.dep.reg rd) (s.dep.reg rs) = (r, f)) :
    DepDone c s s ((s.dep.setFlags f).setReg rd r) :=
  depDone_of_next h hs hc (congrArg (fun x : Half × Flags => DepRes.next (s.setDep ((s.dep.setFlags x.2).setReg rd x.1))) ho)

/-- A comparison leaves its flags alone. -/
theorem depDone_test (hc : exec c s = s.depIssue true fun _ s => rrForm rd rs 0 false op s) (ho : op s.dep (s.dep.reg rd) (s.dep.reg rs) = (r, f)) :
    DepDone c s s (s.dep.setFlags f) :=
  depDone_of_next h hs hc (congrArg (fun x : Half × Flags => DepRes.next (s.setDep (s.dep.setFlags x.2))) ho)

end

/-- Settles O29: sums and differences by `addWidth`, quotients by `halfDiv_eq` and `halfRem_eq`; the others are as the table writes them. -/
theorem deputyRegisterResults : Obligations.DeputyRegisterResults := by
  intro s rd rs imm h hs d a b i c k gives tests
  have hmovh : imm ++ a.setWidth 8 = BitVec.ofNat 16 (imm.toNat * 256 + a.toNat % 256) := by
    rw [bank_append, BitVec.toNat_setWidth]
  refine ⟨depDone_rr h hs rfl (addWidth_clear a b), depDone_rr h hs rfl (addWidth_eq a b d.c rfl), depDone_rr h hs rfl (addWidth_not_set a b),
    depDone_rr h hs rfl (addWidth_not a b d.c rfl), depDone_test h hs rfl (addWidth_not_set a b), depDone_rr h hs rfl (halfLogic_eq _),
    depDone_rr h hs rfl (halfLogic_eq _), depDone_rr h hs rfl (halfLogic_eq _), depDone_test h hs rfl (halfLogic_eq _),
    depDone_rr h hs rfl (halfShl_eq a k), depDone_rr h hs rfl (halfShr_eq a k), depDone_rr h hs rfl (halfSar_eq a k),
    depDone_rr h hs rfl (halfMul_eq a b), depDone_rr h hs rfl (halfDiv_eq a b), depDone_rr h hs rfl (halfRem_eq a b), ?_,
    depDone_of_next h hs rfl rfl, depDone_of_next h hs rfl rfl, hmovh ▸ depDone_of_next h hs rfl rfl⟩
  exact depDone_of_next h hs rfl (congrArg (fun x => DepRes.next (s.setDep ((d.setFlags x.2).setReg rd x.1))) (addWidth_clear a i))

end Sys2Proof.Machine
end

section
/-! SUPPORT. What run control and a fatal dump's first steps leave of the core and the deputy (16 R367, 17 R397). -/

namespace Sys2Proof.Machine

/-- `t` is `s` but for units that leave the core and the deputy as they were. -/
def CoreAndDeputyKept (s t : State) : Prop := t.core = s.core ∧ t.dep = s.dep

theorem CoreAndDeputyKept.refl (s : State) : CoreAndDeputyKept s s := ⟨rfl, rfl⟩

theorem CoreAndDeputyKept.trans {s t u : State} (h : CoreAndDeputyKept s t) (k : CoreAndDeputyKept t u) : CoreAndDeputyKept s u :=
  ⟨k.1.trans h.1, k.2.trans h.2⟩

theorem CoreAndDeputyKept.of_notified {s t : State} (h : Notified s t) : CoreAndDeputyKept s t := by
  obtain ⟨_, _, _, rfl, -⟩ := h
  exact ⟨rfl, rfl⟩

theorem CoreAndDeputyKept.of_mapOnly {s t : State} (h : MapOnly s t) : CoreAndDeputyKept s t := by
  obtain ⟨_, _, _, rfl⟩ := h
  exact ⟨rfl, rfl⟩

theorem hardwire_stopped (s t : State) : (hardwire s t).stopped = t.stopped := rfl

section
variable (s : State)

/-! ### Fills abandoned (16 Table 16.5) -/

theorem moveMore_kept (trim : Bool) : CoreAndDeputyKept s (s.moveMore trim) := by
  unfold State.moveMore
  split
  · split <;> exact ⟨rfl, rfl⟩
  · split <;> exact ⟨rfl, rfl⟩

theorem marginStep_kept : CoreAndDeputyKept s s.marginStep := by
  unfold State.marginStep
  split
  · exact (moveMore_kept s false).trans ⟨rfl, rfl⟩
  · exact .refl s

theorem marginAfterFill_kept : CoreAndDeputyKept s s.marginAfterFill := by
  unfold State.marginAfterFill
  split
  · exact .trans ⟨rfl, rfl⟩ (marginStep_kept _)
  · exact .refl s

theorem tune_kept (h : Fin 32) : CoreAndDeputyKept s (s.tune h) := by
  unfold State.tune
  exact iteInduction (fun _ => .refl s) fun _ => iteInduction (fun _ => ⟨rfl, rfl⟩) fun _ => ⟨rfl, rfl⟩

theorem abandonFills_kept : CoreAndDeputyKept s s.abandonFills := by
  have foldl_kept (f : State → Fin 5 → State) (h : ∀ t c, CoreAndDeputyKept t (f t c)) (l : List (Fin 5)) : CoreAndDeputyKept s (l.foldl f s) :=
    List.foldlRecOn (motive := CoreAndDeputyKept s) l f (.refl s) fun t ht c _ => ht.trans (h t c)
  unfold State.abandonFills
  dsimp only
  split
  · refine .trans (foldl_kept _ (fun t c => ?_) _) ((marginAfterFill_kept _).trans (tune_kept ..))
    split <;> exact ⟨rfl, rfl⟩
  · refine .trans (foldl_kept _ (fun t c => ?_) _) (marginAfterFill_kept _)
    split <;> exact ⟨rfl, rfl⟩

/-! ### The fatal record (16 R367 step 2) -/

theorem recordTrigger_kept (d : DumpInfo) : CoreAndDeputyKept s (s.recordTrigger d) := by
  have hn (t : State) : CoreAndDeputyKept t (t.notifyEntry 0x7001 1) := .of_notified (notifyEntry_notified ..)
  have hl (t : State) : CoreAndDeputyKept t (t.logEvent 6 0 0 0 d.trigger) := ⟨rfl, rfl⟩
  have hw (t : State) : CoreAndDeputyKept t t.writeTally := .of_mapOnly (writeTally_mapOnly t)
  refine .trans ?_ ((hn _).trans ((hl _).trans (hw _)))
  exact ⟨rfl, rfl⟩

/-- The record is made, and the dump is in progress. -/
theorem beginRecord_kept (trigger : Nat) : CoreAndDeputyKept s (s.beginRecord trigger) := by
  obtain ⟨hc, hd⟩ := recordTrigger_kept (s.passTime.tallyInc 0x50) ((s.passTime.tallyInc 0x50).dumpInfo trigger)
  unfold State.beginRecord CoreAndDeputyKept
  dsimp only
  exact ⟨hc, hd⟩

/-- Frozen clocks stop the core, in CORE reset too. -/
theorem freeze_stopped : s.freeze.stopped = true := by
  unfold State.freeze
  split
  · simp [State.stopped]
  · simp [State.stopped]

theorem freeze_dep : s.freeze.dep = s.dep := by
  unfold State.freeze
  split <;> rfl

/-- A dump begun for a trigger other than the watchdog: the core is stopped, and the dump in progress. -/
theorem beginDump_stops {trigger : Nat} (h : trigger ≠ 2) : (s.beginDump trigger).stopped = true ∧ (s.beginDump trigger).dep = s.dep
    ∧ (s.beginDump trigger).res.dumping.isSome = true := by
  have e : s.beginDump trigger = s.freeze.abandonFills.beginRecord trigger := by
    simp only [State.beginDump, if_neg h]
  obtain ⟨hc, hd⟩ := (abandonFills_kept s.freeze).trans (beginRecord_kept _ trigger)
  rw [e]
  refine ⟨?_, hd.trans (freeze_dep s), rfl⟩
  unfold State.stopped
  rw [hc]
  exact freeze_stopped s

end

/-- With no entry in the tile queue there is nothing to drain. -/
theorem drainTile_empty {s : State} (h : s.tile.queue = []) : s.drainTile = s := by
  unfold State.drainTile
  rw [h]

theorem tileStuck_empty {s : State} (h : s.tile.queue = []) : s.tileStuck = false := by
  unfold State.tileStuck
  rw [h]
  rfl

end Sys2Proof.Machine
end

section
/-! ## Run control, the debug ring, the TAP and DUMP_REQ (16 R367, 17 R394 to R397) -/

namespace Sys2Proof.Machine

section
variable {s : State} {tap : Bool}

/-! ### Operations through the TAP (17 R394, R395) -/

/-- Without its instruction the TAP's operations do nothing. -/
theorem ringOp_tap (ht : tap = true) (hi : s.dbg.ir ≠ 0x10) (f : State → State) : s.ringOp tap f = s :=
  if_pos (by rw [ht, bne_iff_ne.2 hi]; rfl)

/-- The deputy's operations act, and the TAP's while its instruction selects the network. -/
theorem ringOp_acts (h : tap = false ∨ s.dbg.ir = 0x10) (f : State → State) : s.ringOp tap f = f s := by
  refine if_neg ?_
  rcases h with rfl | h
  · simp
  · simp [h]

/-! ### HALT, RESUME, STEP (17 R397) -/

/-- HALT with nothing in the tile queue. -/
theorem haltCore_run (h : s.core.mode = .run) (hq : s.tile.queue = []) : s.haltCore =
    { s.dropCoreWaiters with core := { s.core with mode := .halted, stepGrant := false } } := by
  have hd : s.dropCoreWaiters.tile.queue = [] := hq
  unfold State.haltCore
  simp only [if_pos h, tileStuck_empty hd, drainTile_empty hd]
  rfl

theorem haltCore_stopped (h : s.core.mode ≠ .run) : s.haltCore = s := if_neg h

theorem resumeCore_halted (h : s.core.mode = .halted) : s.resumeCore = { s with core := { s.core with mode := .run, stepGrant := false } } :=
  if_pos h

theorem stepCore_halted (h : s.core.mode = .halted) : s.stepCore = { s with core := { s.core with stepGrant := true } } := if_pos h

/-! ### Ring accesses (17 R396, R397) -/

variable {addr : BitVec 32} {v : Word}

theorem ringRead_refused (h : s.ringReads tap (ringSeg addr) = false) : s.ringRead tap addr = s.ringDone tap addr 0 true :=
  if_neg (ne_true_of_eq_false h)

/-- A word of program SRAM read. -/
theorem ringRead_program (hs : ringSeg addr = 9) (hi : ringIndex addr < 16384) (h : s.ringReads tap 9 = true) :
    s.ringRead tap addr = s.ringDone tap addr ((s.dep.progGet (ringIndex addr)).setWidth 64) false := by
  have hw : s.ringWord 9 (ringIndex addr) = some ((s.dep.progGet (ringIndex addr)).setWidth 64) := if_pos hi
  have ht : s.csrTime 0 = s := rfl
  unfold State.ringRead
  rw [hs, if_pos h, if_neg (by decide), ht]
  dsimp only
  rw [hw]

theorem ringWrite_refused (h : s.ringWrites tap (ringSeg addr) (ringIndex addr) = false) :
    s.ringWrite tap addr v = s.ringDone tap addr (if tap then 0 else v) true := if_neg (ne_true_of_eq_false h)

/-- A word of program SRAM written. -/
theorem ringWrite_program (hs : ringSeg addr = 9) (h : s.ringWrites tap 9 (ringIndex addr) = true) : s.ringWrite tap addr v =
    ({ s with dep := s.dep.progSet (ringIndex addr) (v.setWidth 14) } : State).ringDone tap addr v false := by
  unfold State.ringWrite
  rw [hs, if_pos h]
  rfl

/-- What a write of program SRAM leaves there. -/
theorem progGet_progSet {d : Deputy} (h : smWf (0x3EFF#14) 0 d.prog = true) (a : Nat) (w : BitVec 14) : (d.progSet a w).progGet a = w :=
  smGet_smSet_self (d.progKey a) w h

/-- A refused access sets ERR at its requester. -/
theorem result_refused (d : Debug) (tap : Bool) (addr : BitVec 32) (data : Word) : d.result tap addr data true =
    if tap then { d with tapAddr := addr, tapData := data, tapErr := true } else { d with addr := addr, data := data, err := true } := by
  rw [Debug.result, Bool.or_true]

/-! ### FREEZE and DUMP_REQ (16 R367, 17 R397) -/

/-- DUMPREQ set, and vector 13 raised. -/
def State.dumpRequested (s : State) : State := ({ s with dep := { s.dep with dumpreq := true } }).raiseVector 13

theorem dumpRequested_vector (s : State) : s.dumpRequested.dep.ipend.getLsbD 13 = true := by
  simp [State.dumpRequested, State.raiseVector]

section
variable (h0 : s.res.fatalDue = 0) (hn : s.res.dumping = none)
include h0 hn

theorem dumpRequest_stopped (h : s.stopped = true) : s.dumpRequest = s.dumpRequested := if_pos ⟨h0, hn, h⟩

/-- DUMP_REQ on a core that runs is a trigger. -/
theorem dumpRequest_running (h : s.stopped = false) : s.dumpRequest =
    if s.firmware then s.dumpRequested.beginDump 3 else { s.dumpRequested with res := { s.res with fatalDue := 3 } } := by
  have hd : s.dumpRequest = s.dumpRequested.trigger 3 := if_neg fun ⟨_, _, hs⟩ => Bool.false_ne_true (h.symm.trans hs)
  rw [hd]
  refine if_neg ?_
  rintro (hf | hs)
  · exact hf h0
  · exact absurd (hs.symm.trans (congrArg Option.isSome hn)) (by decide)

end

end

/-- Settles O60: each operation by whether the TAP's instruction lets it act, then by what it does; DUMP_REQ by whether the core runs. -/
theorem debugAccess : Obligations.DebugAccess := by
  intro s tap addr v ir
  refine ⟨fun ht hi => ?_, fun ha => ?_, fun h => ?_, fun h => ?_, rfl, ⟨_, rfl, rfl⟩, fun h h0 hn => ?_, fun h h0 hn hf => ?_,
    fun h h0 hn hf => ?_⟩
  · have keeps (f : State → State) := congrArg (answer s) (ringOp_tap ht hi f)
    exact ⟨keeps _, keeps _, keeps _, keeps _, keeps _⟩
  · have acts (f : State → State) {t : State} (e : f s = t) : answer s (s.ringOp tap f) = .next (hardwire s t) :=
      congrArg (answer s) ((ringOp_acts ha f).trans e)
    refine ⟨fun hm hq => ⟨_, acts _ (haltCore_run hm hq), rfl, rfl, rfl⟩, fun hm => acts _ (haltCore_stopped hm),
      fun hm => ⟨acts _ (resumeCore_halted hm), acts _ (stepCore_halted hm)⟩, fun hm => ⟨acts _ (if_neg hm), acts _ (if_neg hm)⟩,
      fun h => ⟨_, acts _ (ringRead_refused h), result_refused .., rfl, rfl⟩, fun hs hi h => ⟨_, acts _ (ringRead_program hs hi h), ?_⟩,
      fun h => ⟨_, acts _ (ringWrite_refused h), ?_, rfl, rfl, rfl⟩,
      fun hs h hw => ⟨_, acts _ (ringWrite_program hs h), progGet_progSet hw ..⟩⟩
    · cases tap <;> rfl
    · rw [hardwire_dbg, State.ringDone, result_refused]
      cases tap <;> rfl
  · exact congrArg (answer s) (if_pos h)
  · exact congrArg (answer s) (if_neg h)
  · exact ⟨_, congrArg (answer s) (dumpRequest_stopped h0 hn h), rfl, dumpRequested_vector s, rfl, rfl⟩
  · have hy := dumpRequest_running h0 hn h
    rw [if_neg (ne_true_of_eq_false hf)] at hy
    exact ⟨_, congrArg (answer s) hy, rfl, rfl⟩
  · have hy := dumpRequest_running h0 hn h
    rw [if_pos hf] at hy
    obtain ⟨hs, hd, hi⟩ := beginDump_stops s.dumpRequested (show 3 ≠ 2 by decide)
    exact ⟨_, congrArg (answer s) hy, congrArg Deputy.dumpreq hd, (hardwire_stopped ..).trans hs, hi⟩

end Sys2Proof.Machine
end

section
/-! SUPPORT. The fill machines: requests, the queue while a fill is open, and the close of a fill (16 R357). -/

namespace Sys2Proof.Machine

theorem Notified.res {s t : State} (h : Notified s t) : t.res = s.res := by
  obtain ⟨_, _, _, rfl, -⟩ := h
  rfl

/-- The rewriting of the spare map and the notifications of what is left of spares. -/
theorem sparesChanged_notified (s before : State) : Notified s (s.sparesChanged before) := by
  refine .trans ?_ (List.foldlRecOn (motive := Notified (s.setEntry 0x3001 1 s.spareMap)) _ _ (.refl _) fun t h n _ => h.trans ?_)
  · exact ⟨_, _, _, rfl, rfl, rfl⟩
  · split
    · exact .refl t
    · exact notifyEntry_notified ..

theorem mem_nsInsert_self (k : Nat) (l : List Nat) : k ∈ nsInsert k l := by
  have h := nsMem_nsInsert k k l
  rw [beq_self_eq_true, Bool.true_or] at h
  exact List.contains_iff_mem.1 h

section
variable {s : State} {c : Fin 5} {o : OpenFill} {u : Nat}

theorem setFill_self (s : State) (c : Fin 5) (m : FillMachine) : (s.setFill c m).res.fills[c] = m := by
  simp [State.setFill]

/-! ### Requests (16 R357 step 1) -/

/-- The oldest queued request opens where nothing of the class is open and its domain is on. -/
def State.openOldest (s : State) (c : Fin 5) : State :=
  let m := s.res.fills[c]
  match m.queue with
  | u :: q => if m.openFill.isNone && s.fillDomain c then (s.setFill c { m with queue := q }).startFill c u none else s
  | [] => s

theorem openQueued_eq (s : State) (c : Fin 5) :
    s.openQueued c = (((s.openOldest c).openOldest c).openOldest c).openOldest c := rfl

/-- While a fill of the class is open no request opens. -/
theorem openQueued_open (h : s.res.fills[c].openFill = some o) : s.openQueued c = s := by
  have hs : s.openOldest c = s := by
    unfold State.openOldest
    dsimp only
    split
    · exact if_neg (by rw [h]; simp)
    · rfl
  rw [openQueued_eq, hs, hs, hs, hs]

theorem requestFill_ignored (h : s.fillUnit c u = false ∨ u ∈ s.res.fills[c].queue ∨ u ∈ s.res.fills[c].dead) : s.requestFill c u = s := by
  refine if_pos ?_
  rcases h with h | h | h <;> simp [-Fin.getElem_fin, h]

/-- The machine of a class with a unit fenced. -/
def FillMachine.fence (m : FillMachine) (u : Nat) : FillMachine :=
  { m with fenced := if m.fenced.contains u then m.fenced else nsInsert u m.fenced }

theorem mem_fence (m : FillMachine) (u : Nat) : u ∈ (m.fence u).fenced := by
  unfold FillMachine.fence
  dsimp only
  split
  · exact List.contains_iff_mem.1 ‹_›
  · exact mem_nsInsert_self u m.fenced

/-- A request beside the open fill of another unit fences its unit, and joins the queue or, beyond 4, is counted as dropped. -/
theorem requestFill_beside (hu : s.fillUnit c u = true) (hq : u ∉ s.res.fills[c].queue) (hd : u ∉ s.res.fills[c].dead)
    (ho : s.res.fills[c].openFill = some o) (hn : o.unit ≠ u) : s.requestFill c u =
    if 4 ≤ s.res.fills[c].queue.length then (s.setFill c (s.res.fills[c].fence u)).tallyInc 0x2D
    else (s.setFill c (s.res.fills[c].fence u)).setFill c { s.res.fills[c].fence u with queue := s.res.fills[c].queue ++ [u] } := by
  have hopen (m : FillMachine) (h : m.openFill = some o) (t : State) : (t.setFill c m).openQueued c = t.setFill c m :=
    openQueued_open ((congrArg FillMachine.openFill (setFill_self t c m)).trans h)
  have hno : (!s.fillUnit c u || s.res.fills[c].queue.contains u || s.res.fills[c].dead.contains u
      || (match s.res.fills[c].openFill with | some o => o.unit == u | none => false)) = false := by
    simp [-Fin.getElem_fin, hu, hq, hd, ho, hn]
  refine (if_neg (ne_true_of_eq_false hno)).trans ?_
  exact congrArg (fun t => if 4 ≤ s.res.fills[c].queue.length then (s.setFill c (s.res.fills[c].fence u)).tallyInc 0x2D else t)
    (hopen { s.res.fills[c].fence u with queue := s.res.fills[c].queue ++ [u] } ho _)

/-! ### The close (16 R357 step 3) -/

/-- The machine of a class whose open fill closes with a result. -/
def FillMachine.closed (m : FillMachine) (o : OpenFill) (r : FillRes) : FillMachine :=
  { m with
    openFill := none, fenced := nsErase o.unit m.fenced, dead := o.unit :: m.dead
    inUse := m.inUse ++ (match o.spare with | some n => [(n, o.unit)] | none => []), res := r }

/-- A close takes the unit out of use and the spare into use, and raises vector 11; beside the class's machine it counts and notifies. -/
theorem closeFill_spec (s : State) (c : Fin 5) (o : OpenFill) (remap : Bool) :
    (∃ r, (s.closeFill c o remap).res.fills[c] = s.res.fills[c].closed o r) ∧ (s.closeFill c o remap).dep = (s.raiseVector 11).dep := by
  unfold State.closeFill
  dsimp only
  rw [(sparesChanged_notified _ _).res, (sparesChanged_notified _ _).dep]
  split <;> split <;> exact ⟨⟨_, setFill_self ..⟩, rfl⟩

theorem closeFill_leaves (s : State) (c : Fin 5) (o : OpenFill) :
    let t := s.closeFill c o false
    o.unit ∈ t.res.fills[c].dead ∧ (∀ n, o.spare = some n → (n, o.unit) ∈ t.res.fills[c].inUse) ∧ t.res.fills[c].openFill = none
      ∧ t.dep.ipend.getLsbD 11 = true := by
  obtain ⟨⟨r, hf⟩, hd⟩ := closeFill_spec s c o false
  dsimp only
  rw [hf, hd]
  refine ⟨List.mem_cons_self .., fun n hn => ?_, rfl, by simp [State.raiseVector]⟩
  rw [FillMachine.closed, hn]
  exact List.mem_append_right _ (List.mem_singleton_self _)

end

/-! ### The commands of the fill machines (16 R357) -/

section
variable {s : State} {c : Fin 5} {o : OpenFill}

/-- FILL_CLOSE of a class of Table 16.4. -/
theorem fillClose_yields (s : State) (c : Fin 5) : Yields (.fillClose (BitVec.ofNat 3 c.val)) s (s.endFill c) := by
  fin_cases c <;> rfl

theorem endFill_none (h : s.res.fills[c].openFill = none) : s.endFill c = s := by
  unfold State.endFill
  rw [h]

/-- The open fill closes, and the next request opens, unless a fold fill waits for entries that have started. -/
theorem endFill_open (h : s.res.fills[c].openFill = some o) : s.endFill c =
    if (o.spare.isNone && s.tile.queue.any fun e => e.started && (e.op.unit == .stope || e.op.unit == .seam)) = true then s
    else
      let t := ((s.closeFill c o false).openQueued c).marginAfterFill
      if c = 1 then t.tuneAfterFill o.unit else t := by
  unfold State.endFill
  rw [h]

end

end Sys2Proof.Machine
end

section
/-! SUPPORT. The capture of a parity error: what counts, records and escalations leave of it (16 R351). -/

namespace Sys2Proof.Machine

/-- `t` is `s` but for counts and records: the capture and the deputy are as they were. -/
def CaptureKept (s t : State) : Prop :=
  t.res.capValid = s.res.capValid ∧ t.res.capClass = s.res.capClass ∧ t.res.capUnit = s.res.capUnit ∧ t.res.capAddr = s.res.capAddr
    ∧ t.dep = s.dep

theorem CaptureKept.refl (s : State) : CaptureKept s s := ⟨rfl, rfl, rfl, rfl, rfl⟩

theorem CaptureKept.trans {s t u : State} (h : CaptureKept s t) (k : CaptureKept t u) : CaptureKept s u := by
  obtain ⟨h1, h2, h3, h4, h5⟩ := h
  obtain ⟨k1, k2, k3, k4, k5⟩ := k
  exact ⟨k1.trans h1, k2.trans h2, k3.trans h3, k4.trans h4, k5.trans h5⟩

section
variable (s : State)

theorem logEvent_captureKept (kind cls unit addr info : Nat) : CaptureKept s (s.logEvent kind cls unit addr info) := ⟨rfl, rfl, rfl, rfl, rfl⟩

theorem setEvent_captureKept (n : Nat) : CaptureKept s (s.setEvent n) := by
  obtain ⟨_, _, e⟩ := setEvent_eq s n
  rw [e]
  exact .refl s

theorem intervalCounted_captureKept (c : Fin 14) : CaptureKept s (s.intervalCounted c) := by
  unfold State.intervalCounted
  split
  · exact ⟨rfl, rfl, rfl, rfl, rfl⟩
  · exact .refl s

theorem thresholdCounted_captureKept (c : Fin 14) (now : Word) : CaptureKept s (s.thresholdCounted c now) := by
  unfold State.thresholdCounted
  dsimp only
  split
  · have he (t : State) (ht : CaptureKept s t) : CaptureKept s (t.setEvent 45) := ht.trans (setEvent_captureKept t 45)
    split
    · refine (he _ ?_).trans (logEvent_captureKept ..)
      exact ⟨rfl, rfl, rfl, rfl, rfl⟩
    · exact he _ ⟨rfl, rfl, rfl, rfl, rfl⟩
  · exact ⟨rfl, rfl, rfl, rfl, rfl⟩

theorem countParity_captureKept (c : Fin 14) : CaptureKept s (s.countParity c) := by
  have ht : CaptureKept s (s.passTime.tallyInc (0x10 + c.val)) := ⟨rfl, rfl, rfl, rfl, rfl⟩
  rw [countParity_eq]
  exact (ht.trans (intervalCounted_captureKept _ c)).trans (thresholdCounted_captureKept ..)

/-- Where nothing is captured yet, an error is, and vector 11 is raised. -/
theorem parityDetected_captures {s : State} (h : s.res.capValid = false) (c : Fin 14) (kind unit addr : Nat) :
    let t := s.parityDetected c kind unit addr
    t.res.capValid = true ∧ t.res.capClass = BitVec.ofNat 4 c.val ∧ t.res.capUnit = BitVec.ofNat 12 unit ∧ t.res.capAddr = BitVec.ofNat 47 addr
      ∧ t.dep.ipend.getLsbD 11 = true := by
  intro t
  obtain ⟨hv, hc, hu, ha, hd⟩ := countParity_captureKept (((s.captureParity c kind unit addr).logEvent 1 c.val unit addr 0).raiseVector 11) c
  have hcap : (s.captureParity c kind unit addr).res = { s.res with
      capValid := true, capSeq := s.res.capSeq + 1, capClass := BitVec.ofNat 4 c.val, capKind := BitVec.ofNat 2 kind,
      capUnit := BitVec.ofNat 12 unit, capMissed := 0, capAddr := BitVec.ofNat 47 addr } := if_neg (ne_true_of_eq_false h)
  refine ⟨hv.trans (congrArg Resil.capValid hcap), hc.trans (congrArg Resil.capClass hcap), hu.trans (congrArg Resil.capUnit hcap),
    ha.trans (congrArg Resil.capAddr hcap), (congrArg (fun d : Deputy => d.ipend.getLsbD 11) hd).trans ?_⟩
  simp [State.raiseVector]

/-- An escalation captures nothing. -/
theorem escalate_capValid (cause : Nat) (eaddr einfo epc : Word) : (s.escalate cause eaddr einfo epc).res.capValid = s.res.capValid := by
  have hcount (t : State) : (t.countConsumed cause).res.capValid = t.res.capValid := by
    unfold State.countConsumed
    split <;> rfl
  by_cases h : s.lvl = 7
  · have hl : (s.cancelEarly.countConsumed cause).lvl = 7 := (countConsumed_lvl cause).trans h
    unfold State.escalate
    rw [if_pos hl]
    exact hcount s.cancelEarly
  · obtain ⟨_, _, _, e⟩ := countEntry_eq (((s.escalated cause eaddr einfo epc).setEvent 63).tallyInc 0x42) false
    rw [escalate_eq h]
    refine (logEvent_captureKept _ ..).1.trans ?_
    rw [e]
    refine (setEvent_captureKept _ 63).1.trans ?_
    rw [State.escalated, entered_res]
    exact hcount s.cancelEarly

theorem parityBank_capValid (bank reg : Nat) : (s.parityBank bank reg).res.capValid = s.res.capValid := by
  unfold State.parityBank
  split
  · rfl
  · split
    · rfl
    · split
      · exact escalate_capValid ..
      · rfl

theorem reloadTally_capValid (sub : Nat) (bucket : Option Nat) : (s.reloadTally sub bucket).res.capValid = s.res.capValid := by
  cases bucket <;> rfl

theorem parityRecord_capValid (kind addr : Nat) : (s.parityRecord kind addr).res.capValid = s.res.capValid := by
  unfold State.parityRecord
  split
  case h_4 => exact reloadTally_capValid ..
  case h_5 => exact reloadTally_capValid ..
  all_goals rfl

/-- What a class does about an error captures nothing. -/
theorem parityEffect_capValid (cls : Nat) (clean : Bool) (unit addr part : Nat) :
    (s.parityEffect cls clean unit addr part).res.capValid = s.res.capValid := by
  unfold State.parityEffect
  split
  case h_6 => exact parityBank_capValid ..
  case h_9 => split <;> rfl
  case h_12 => exact parityRecord_capValid ..
  all_goals rfl

end

end Sys2Proof.Machine
end

section
/-! ## Fills, and what a detected parity error does (16 R351, R357, Tables 16.1 and 16.2) -/

namespace Sys2Proof.Machine

/-! ### A granule of the caches (Table 16.1 classes 1 and 2) -/

section
variable {m : Mem} {g : Nat}

/-- A line as an error in granule `g` leaves it: poisoned if it is that granule's. -/
def CacheLine.struck (g : Nat) (l : CacheLine) : CacheLine := if l.granule = g then { l with poison := true } else l

theorem struck_granule (g : Nat) (l : CacheLine) : (l.struck g).granule = l.granule := by
  unfold CacheLine.struck
  split <;> rfl

theorem struck_data (g : Nat) (l : CacheLine) : (l.struck g).data = l.data := by
  unfold CacheLine.struck
  split <;> rfl

theorem struck_poison {l : CacheLine} (h : l.granule = g) : (l.struck g).poison = true := by
  rw [CacheLine.struck, if_pos h]

theorem struck_other {l : CacheLine} (h : l.granule ≠ g) : l.struck g = l := if_neg h

/-- The lines found after an only copy is poisoned are those found before, struck. -/
theorem lineFind_struck (k g : Nat) (l : List CacheLine) : lineFind k (l.map (CacheLine.struck g)) = (lineFind k l).map (CacheLine.struck g) := by
  unfold lineFind
  rw [List.find?_map]
  congr 2
  funext x
  exact congrArg (· == k) (struck_granule g x)

theorem parityAt_held {l : CacheLine} (h : lineFind g m.cache = some l) :
    m.parityAt g false = { m with cache := m.cache.map (CacheLine.struck g) } := if_pos (by rw [h]; rfl)

theorem parityAt_absent (h : lineFind g m.cache = none) : m.parityAt g false = { m with copyPoison := nsErase g m.copyPoison } :=
  if_neg (by rw [h]; decide)

theorem parityAt_held_poisoned {l : CacheLine} (h : lineFind g m.cache = some l) : (m.parityAt g false).poisoned g = true := by
  have hs : lineFind g (m.cache.map (CacheLine.struck g)) = some (l.struck g) := by rw [lineFind_struck, h]; rfl
  rw [parityAt_held h]
  exact (poisoned_of_dirty (dirty_of_cache hs)).trans (struck_poison (lineFind_eq_some h))

/-- Where no cache holds the granule dirty, its poisoned clean copy is dropped, and memory's mark counts. -/
theorem parityAt_clean_poisoned (h : m.dirty g = none) : (m.parityAt g false).poisoned g = nsMem g m.poison := by
  have hc : lineFind g m.cache = none := by
    cases hl : lineFind g m.cache with
    | none => rfl
    | some l => exact absurd ((dirty_of_cache hl).symm.trans h) nofun
  have hd : ({ m with copyPoison := nsErase g m.copyPoison } : Mem).dirty g = none := h
  rw [parityAt_absent hc]
  simp only [Mem.poisoned, hd, nsMem_nsErase, bne_self_eq_false, Bool.false_and, Bool.false_or]

/-- Every other granule keeps its indication. -/
theorem parityAt_poisoned_ne {k : Nat} (hk : k ≠ g) : (m.parityAt g false).poisoned k = m.poisoned k := by
  cases hl : lineFind g m.cache with
  | none =>
    have he : nsMem k (nsErase g m.copyPoison) = nsMem k m.copyPoison := by
      rw [nsMem_nsErase, bne_iff_ne.2 hk, Bool.true_and]
    have hd : ({ m with copyPoison := nsErase g m.copyPoison } : Mem).dirty k = m.dirty k := rfl
    rw [parityAt_absent hl]
    simp only [Mem.poisoned, hd, he]
  | some l =>
    have hs : lineFind k (m.cache.map (CacheLine.struck g)) = lineFind k m.cache := by
      rw [lineFind_struck]
      cases hx : lineFind k m.cache with
      | none => rfl
      | some x => exact congrArg some (struck_other fun h => hk ((lineFind_eq_some hx).symm.trans h))
    rw [parityAt_held hl]
    simp only [Mem.poisoned, Mem.dirty, hs]

/-- No byte changes. -/
theorem parityAt_byte (a : Nat) : (m.parityAt g false).byte a = m.byte a := by
  cases hl : lineFind g m.cache with
  | none => rw [parityAt_absent hl]; rfl
  | some l =>
    rw [parityAt_held hl]
    simp only [Mem.byte, Mem.dirty, lineFind_struck]
    cases hx : lineFind (a / 64) m.cache with
    | none => rfl
    | some x => exact congrArg (fun d : BitVec 512 => d.extractLsb' (8 * (a % 64)) 8) (struck_data g x)

end

section
variable {s : State} (clean : Bool) (unit addr part : Nat)

/-- A buffered store in error writes poisoned (class 4). -/
theorem parityStore_poison {m : Mem} {e : StoreEntry} (h : (m.parityStore unit).sb[unit]? = some e) : e.poison = true := by
  rw [Mem.parityStore, List.getElem?_modify_eq] at h
  obtain ⟨x, -, rfl⟩ := Option.map_eq_some_iff.1 h
  rfl

/-- A sync record in error is poisoned (class 13). -/
theorem parityRecord_sync (h : smWf SyncObj.zero 0 s.sy.objs = true) (n : BitVec 13) :
    ((s.setObj n { s.obj n with pois := true }).obj n).pois = true :=
  congrArg SyncObj.pois (smGet_smSet_self n.toNat _ h)

/-- An error in the bank of the running level escalates it (class 5). -/
theorem parityBank_running (hm : s.core.mode = .run) (hl : s.levelOfPhys unit = some s.lvl) :
    s.parityBank unit part = s.escalate 25 (wd part) 4 s.bank.pc := by
  unfold State.parityBank
  rw [hl]
  exact (if_neg (not_not.2 rfl)).trans (if_pos hm)

end

/-! ### The command (16 R351) -/

section
variable {s : State} {cls : BitVec 4} (hc : cls.toNat < 14) (clean : Bool) (unit : BitVec 12) (addr : BitVec 47) (part : BitVec 13)
include hc

theorem parityError_yields : Yields (.parityError cls clean unit addr part) s
    (if s.parityPowered cls.toNat then
      (s.parityFound (Fin.ofNat 14 cls.toNat) clean unit.toNat addr.toNat part.toNat).paritySpares cls.toNat unit.toNat part.toNat
     else s) := if_pos (decide_eq_true hc)

/-- Outside tile state an error is captured where nothing is. -/
theorem parityFound_captures (h8 : cls ≠ 8) (hv : s.res.capValid = false) :
    let t := s.parityFound (Fin.ofNat 14 cls.toNat) clean unit.toNat addr.toNat part.toNat
    t.res.capValid = true ∧ t.res.capClass = cls ∧ t.res.capUnit = unit ∧ t.res.capAddr = addr ∧ t.dep.ipend.getLsbD 11 = true := by
  intro t
  have hval : (Fin.ofNat 14 cls.toNat).val = cls.toNat := Nat.mod_eq_of_lt hc
  have hne : Fin.ofNat 14 cls.toNat ≠ 8 := fun e => h8 (BitVec.eq_of_toNat_eq (hval.symm.trans (congrArg Fin.val e)))
  obtain ⟨h1, h2, h3, h4, h5⟩ := parityDetected_captures
    (s := (s.parityEffect (Fin.ofNat 14 cls.toNat).val clean unit.toNat addr.toNat part.toNat).tallyAdd 0x31
      (s.newlyPoisoned (Fin.ofNat 14 cls.toNat).val clean unit.toNat addr.toNat))
    ((parityEffect_capValid s ..).trans hv) (Fin.ofNat 14 cls.toNat) (parityKind (Fin.ofNat 14 cls.toNat).val clean) unit.toNat addr.toNat
  have ht : t = _ := if_neg hne
  rw [ht]
  rw [BitVec.ofNat_toNat, BitVec.setWidth_eq] at h3 h4
  exact ⟨h1, h2.trans (by rw [hval, BitVec.ofNat_toNat, BitVec.setWidth_eq]), h3, h4, h5⟩

end

/-- Settles O45: a request by what its unit is, a close by `closeFill_spec`, an error by what its class does and by its capture. -/
theorem fillsAndParityErrors : Obligations.FillsAndParityErrors := by
  refine ⟨?_, ?_⟩
  · intro s u cmd
    have asks (c : Fin 5) : Yields (cmd c) s (s.requestFill c u.toNat) := by fin_cases c <;> rfl
    refine ⟨asks, fun c h => ?_, fun c hu hq hd ⟨o, ho, hn⟩ => ?_, fun c h => ?_, fun c o ho hw => ?_, fun c o ho hw => ?_, fun c o => ?_⟩
    · have hy := asks c
      rwa [requestFill_ignored h] at hy
    · refine ⟨_, asks c, ?_⟩
      rw [hardwire_res, requestFill_beside hu hq hd ho hn]
      split
      · have hm : ((s.setFill c (s.res.fills[c].fence u.toNat)).tallyInc 0x2D).res.fills[c] = _ := setFill_self ..
        rw [hm]
        exact ⟨mem_fence .., rfl⟩
      · rw [setFill_self]
        exact ⟨mem_fence .., rfl⟩
    · have hy := fillClose_yields s c
      rwa [endFill_none h] at hy
    · have hy := fillClose_yields s c
      rwa [endFill_open ho, if_neg (ne_true_of_eq_false hw)] at hy
    · have hy := fillClose_yields s c
      rwa [endFill_open ho, if_pos hw] at hy
    · exact closeFill_leaves s c o
  · intro s cls clean unit addr part hc
    have hy := parityError_yields (s := s) hc clean unit addr part
    have hobj : BitVec.ofNat 13 addr.toNat = addr.setWidth 13 := BitVec.ofNat_toNat ..
    refine ⟨fun h => ?_, fun h => ?_, parityFound_captures hc clean unit addr part, rfl, rfl,
      ⟨fun l => parityAt_held_poisoned, parityAt_clean_poisoned, fun k => parityAt_poisoned_ne, parityAt_byte⟩,
      fun e => parityStore_poison unit.toNat, fun h => ?_, parityBank_running unit.toNat part.toNat⟩
    · rwa [if_neg (ne_true_of_eq_false h)] at hy
    · rwa [if_pos h] at hy
    · rw [← hobj]
      exact parityRecord_sync h (BitVec.ofNat 13 addr.toNat)

end Sys2Proof.Machine
end

section
/-! ## PD_CORE powered up with a bank that has no spare (16 R357, R360, Table 16.6; 17 R388, R389) -/

namespace Sys2Proof.Machine

/-- PD_CORE rises. While it was off, a fill was asked for of bank 0, and the one spare bank already serves for bank 1. -/
def bankWithoutSpare : State :=
  { State.reset with
    pwr := { Power.reset with core := .rising, targets := 1 }
    res := { Resil.reset with fills := Resil.reset.fills.set 3 { FillMachine.reset with
      queue := [0], fenced := [0], dead := [1], inUse := [(0, 1)] } } }

/-- The acknowledgement opens the queued request; no spare being free, the bank is retired, which freezes the core in place of holding it
in CORE reset. -/
theorem bankWithoutSpare_freezes : (bankWithoutSpare.powerAck .core true).sequence.core.mode = .frozen := by decide +kernel

/-- Refutes O59: on PD_CORE's acknowledgement the core need not be held in reset, since a bank's retirement may freeze it
(`bankWithoutSpare`). -/
theorem not_powerDomains : ¬ Obligations.PowerDomains := by
  unfold Obligations.PowerDomains
  intro h
  obtain ⟨-, -, -, -, -, -, hup, -⟩ := h bankWithoutSpare .core
  obtain ⟨t, ht, -, -, hheld, -⟩ := hup rfl
  have ht : hardwire bankWithoutSpare (bankWithoutSpare.powerAck .core true).sequence = t := Host.Outcome.next.inj ht
  rw [← ht, hardwire_core_mode, bankWithoutSpare_freezes] at hheld
  exact absurd hheld (by decide)

end Sys2Proof.Machine
end
